-- ==== Sys2Proof/Word.lean ====
section
/-! DEFINITION. Sys2Proof/Word.lean: the word types of the machine (R16, R30, R31). -/

namespace Sys2Proof

/-- A 64-bit general register's contents, an address, a control register (R16). -/
abbrev Word := BitVec 64

/-- One byte of memory. -/
abbrev Byte := BitVec 8

/-- One instruction word (R30). -/
abbrev Insn := BitVec 32

/-- A general register number, x0 to x31 (R32). -/
abbrev XReg := BitVec 5

/-- A predicate register number, p0 to p7 (R32). -/
abbrev PReg := BitVec 3

/-- A shared register number, h0 to h7 (R32). -/
abbrev HReg := BitVec 3

/-- A vector register field: 0-23 v0-v23, 24-27 m0-m3, 28-29 vs0-vs1 (R32). -/
abbrev VReg := BitVec 5

/-- A mask register number, m0 to m3 (R32). -/
abbrev MReg := BitVec 2

/-- The optional mask of a vector instruction (R45): none is unmasked. -/
abbrev VMask := Option MReg

/-- An operand slot number, os0 to os15 (R32). -/
abbrev Slot := BitVec 4

end Sys2Proof
end

