-- ==== Sys2Proof/Machine/Payload.lean ====
section
/-! DEFINITION. Sys2Proof/Machine/Payload.lean: what the outside world hands to the steps that have no instruction word: messages and flits of other modules (R409 to R415), host datagrams (R419), RDMA packets (R421) and what the boot ROM finds (R422). All of it is bytes; Machine/Wire.lean reads them. -/

namespace Sys2Proof

/-- A flit of a Vamet link: its 64 bytes (R409). marks lists the payload bytes that a Porter read as poisoned: R334 has them pass as poisoned, and the spec gives a flit no bit for it (log entry 73). -/
structure Flit where
  bytes : List Byte
  marks : List Nat := []
deriving DecidableEq, Repr

/-- A message of another module as its flits arrive, in order, at a link end (R414). -/
structure MsgIn where
  link  : Nat
  flits : List Flit
deriving DecidableEq, Repr

/-- A datagram at a host port (R419): its source (address and UDP port, one number), its destination address and UDP port, and its bytes. -/
structure HostReq where
  source : Nat
  dest   : Nat
  port   : Nat
  bytes  : List Byte
deriving DecidableEq, Repr

/-- The opcode of an RDMA packet (R421): the four forms of RDMA WRITE, or any other. -/
inductive RdmaOp where
  | first | middle | last | only | other
deriving DecidableEq, Repr

/-- An RDMA packet at a port (R421): its queue pair, opcode, key and address (which a First or Only packet carries), payload, and whether ECN marked it CE. -/
structure RdmaWrite where
  port  : Nat
  qp    : Nat
  op    : RdmaOp
  rkey  : BitVec 32
  addr  : Nat
  bytes : List Byte
  ce    : Bool := false
deriving DecidableEq, Repr

/-- What the boot ROM finds (R422): the digest held in ROM, the Keapra root public key, the firmware image and the configuration record in flash with their signatures, and the seed that the PUF and its helper data give, if they give one. -/
structure BootInput where
  romDigest : List Byte
  rootKey   : List Byte
  firmware  : List Byte
  fwSig     : List Byte
  record    : List Byte
  recSig    : List Byte
  seed      : Option (List Byte)
deriving DecidableEq, Repr

end Sys2Proof
end

