-- ==== Sys2Proof/Syntax.lean ====
section
/-! DEFINITION. Sys2Proof/Syntax.lean: the instructions of the GZ7-2048M (Tarris) and the machine's other indivisible steps, one constructor for each row of spec/opcode_table.json. A row with an encoding carries the fields of its word (R31 to R48); a row without one carries what the outside world or an open choice supplies. -/

namespace Sys2Proof

/-- One constructor per row of the operation table; the docstring gives the row's mnemonic and rule. -/
inductive Instr where
  /-- ADD (R69). -/
  | add (rd : XReg) (rs1 : XReg) (rs2 : XReg)
  /-- SUB (R69). -/
  | sub (rd : XReg) (rs1 : XReg) (rs2 : XReg)
  /-- AND (R69). -/
  | and (rd : XReg) (rs1 : XReg) (rs2 : XReg)
  /-- OR (R69). -/
  | or (rd : XReg) (rs1 : XReg) (rs2 : XReg)
  /-- XOR (R69). -/
  | xor (rd : XReg) (rs1 : XReg) (rs2 : XReg)
  /-- ANDN (R69). -/
  | andn (rd : XReg) (rs1 : XReg) (rs2 : XReg)
  /-- ORN (R69). -/
  | orn (rd : XReg) (rs1 : XReg) (rs2 : XReg)
  /-- SLL (R69). -/
  | sll (rd : XReg) (rs1 : XReg) (rs2 : XReg)
  /-- SRL (R69). -/
  | srl (rd : XReg) (rs1 : XReg) (rs2 : XReg)
  /-- SRA (R69). -/
  | sra (rd : XReg) (rs1 : XReg) (rs2 : XReg)
  /-- ROL (R69). -/
  | rol (rd : XReg) (rs1 : XReg) (rs2 : XReg)
  /-- ROR (R69). -/
  | ror (rd : XReg) (rs1 : XReg) (rs2 : XReg)
  /-- SLT (R69). -/
  | slt (rd : XReg) (rs1 : XReg) (rs2 : XReg)
  /-- SLTU (R69). -/
  | sltu (rd : XReg) (rs1 : XReg) (rs2 : XReg)
  /-- MIN (R69). -/
  | min (rd : XReg) (rs1 : XReg) (rs2 : XReg)
  /-- MAX (R69). -/
  | max (rd : XReg) (rs1 : XReg) (rs2 : XReg)
  /-- MINU (R69). -/
  | minu (rd : XReg) (rs1 : XReg) (rs2 : XReg)
  /-- MAXU (R69). -/
  | maxu (rd : XReg) (rs1 : XReg) (rs2 : XReg)
  /-- CLZ (R69). -/
  | clz (rd : XReg) (rs1 : XReg)
  /-- CTZ (R69). -/
  | ctz (rd : XReg) (rs1 : XReg)
  /-- POPC (R69). -/
  | popc (rd : XReg) (rs1 : XReg)
  /-- SEXT_B (R69). -/
  | sextB (rd : XReg) (rs1 : XReg)
  /-- SEXT_H (R69). -/
  | sextH (rd : XReg) (rs1 : XReg)
  /-- SEXT_W (R69). -/
  | sextW (rd : XReg) (rs1 : XReg)
  /-- ZEXT_W (R69). -/
  | zextW (rd : XReg) (rs1 : XReg)
  /-- MUL (R69). -/
  | mul (rd : XReg) (rs1 : XReg) (rs2 : XReg)
  /-- MULH_SS (R69). -/
  | mulhSs (rd : XReg) (rs1 : XReg) (rs2 : XReg)
  /-- MULH_UU (R69). -/
  | mulhUu (rd : XReg) (rs1 : XReg) (rs2 : XReg)
  /-- MULH_US (R69). -/
  | mulhUs (rd : XReg) (rs1 : XReg) (rs2 : XReg)
  /-- DIVS (R70). -/
  | divs (rd : XReg) (rs1 : XReg) (rs2 : XReg)
  /-- DIVU (R70). -/
  | divu (rd : XReg) (rs1 : XReg) (rs2 : XReg)
  /-- REMS (R70). -/
  | rems (rd : XReg) (rs1 : XReg) (rs2 : XReg)
  /-- REMU (R70). -/
  | remu (rd : XReg) (rs1 : XReg) (rs2 : XReg)
  /-- ADDI (R71). -/
  | addi (rd : XReg) (rs1 : XReg) (imm : BitVec 16)
  /-- ANDI (R71). -/
  | andi (rd : XReg) (rs1 : XReg) (imm : BitVec 16)
  /-- ORI (R71). -/
  | ori (rd : XReg) (rs1 : XReg) (imm : BitVec 16)
  /-- XORI (R71). -/
  | xori (rd : XReg) (rs1 : XReg) (imm : BitVec 16)
  /-- SLTI (R71). -/
  | slti (rd : XReg) (rs1 : XReg) (imm : BitVec 16)
  /-- SLTIU (R71). -/
  | sltiu (rd : XReg) (rs1 : XReg) (imm : BitVec 16)
  /-- SLLI (R72). -/
  | slli (rd : XReg) (rs1 : XReg) (shamt : BitVec 6)
  /-- SRLI (R72). -/
  | srli (rd : XReg) (rs1 : XReg) (shamt : BitVec 6)
  /-- SRAI (R72). -/
  | srai (rd : XReg) (rs1 : XReg) (shamt : BitVec 6)
  /-- RORI (R72). -/
  | rori (rd : XReg) (rs1 : XReg) (shamt : BitVec 6)
  /-- LIH (R73). -/
  | lih (rd : XReg) (h : BitVec 2) (imm : BitVec 16)
  /-- CMPEQ (R74). -/
  | cmpeq (pd : PReg) (rs1 : XReg) (rs2 : XReg)
  /-- CMPNE (R74). -/
  | cmpne (pd : PReg) (rs1 : XReg) (rs2 : XReg)
  /-- CMPLT (R74). -/
  | cmplt (pd : PReg) (rs1 : XReg) (rs2 : XReg)
  /-- CMPGE (R74). -/
  | cmpge (pd : PReg) (rs1 : XReg) (rs2 : XReg)
  /-- CMPLTU (R74). -/
  | cmpltu (pd : PReg) (rs1 : XReg) (rs2 : XReg)
  /-- CMPGEU (R74). -/
  | cmpgeu (pd : PReg) (rs1 : XReg) (rs2 : XReg)
  /-- PAND (R75). -/
  | pand (pd : PReg) (ps1 : PReg) (ps2 : PReg)
  /-- POR (R75). -/
  | por (pd : PReg) (ps1 : PReg) (ps2 : PReg)
  /-- PXOR (R75). -/
  | pxor (pd : PReg) (ps1 : PReg) (ps2 : PReg)
  /-- PANDN (R75). -/
  | pandn (pd : PReg) (ps1 : PReg) (ps2 : PReg)
  /-- PORN (R75). -/
  | porn (pd : PReg) (ps1 : PReg) (ps2 : PReg)
  /-- PNOT (R75). -/
  | pnot (pd : PReg) (ps1 : PReg)
  /-- PFROMX (R75). -/
  | pfromx (pd : PReg) (rs1 : XReg)
  /-- PTOX (R75). -/
  | ptox (rd : XReg) (ps1 : PReg)
  /-- BEQ (R76). -/
  | beq (rs1 : XReg) (rs2 : XReg) (off : BitVec 16)
  /-- BNE (R76). -/
  | bne (rs1 : XReg) (rs2 : XReg) (off : BitVec 16)
  /-- BLT (R76). -/
  | blt (rs1 : XReg) (rs2 : XReg) (off : BitVec 16)
  /-- BGE (R76). -/
  | bge (rs1 : XReg) (rs2 : XReg) (off : BitVec 16)
  /-- BLTU (R76). -/
  | bltu (rs1 : XReg) (rs2 : XReg) (off : BitVec 16)
  /-- BGEU (R76). -/
  | bgeu (rs1 : XReg) (rs2 : XReg) (off : BitVec 16)
  /-- BP (R77). -/
  | bp (p : PReg) (sense : BitVec 1) (off : BitVec 16)
  /-- J (R78). -/
  | j (off : BitVec 26)
  /-- JAL (R78). -/
  | jal (off : BitVec 26)
  /-- JALR (R79). -/
  | jalr (rd : XReg) (rs1 : XReg) (imm : BitVec 16)
  /-- LB (R84). -/
  | lb (rd : XReg) (base : XReg) (aq : BitVec 1) (off : BitVec 12)
  /-- LBU (R84). -/
  | lbu (rd : XReg) (base : XReg) (aq : BitVec 1) (off : BitVec 12)
  /-- LH (R84). -/
  | lh (rd : XReg) (base : XReg) (aq : BitVec 1) (off : BitVec 12)
  /-- LHU (R84). -/
  | lhu (rd : XReg) (base : XReg) (aq : BitVec 1) (off : BitVec 12)
  /-- LW (R84). -/
  | lw (rd : XReg) (base : XReg) (aq : BitVec 1) (off : BitVec 12)
  /-- LWU (R84). -/
  | lwu (rd : XReg) (base : XReg) (aq : BitVec 1) (off : BitVec 12)
  /-- LD (R84). -/
  | ld (rd : XReg) (base : XReg) (aq : BitVec 1) (off : BitVec 12)
  /-- SB (R84). -/
  | sb (rs : XReg) (base : XReg) (rl : BitVec 1) (off : BitVec 12)
  /-- SH (R84). -/
  | sh (rs : XReg) (base : XReg) (rl : BitVec 1) (off : BitVec 12)
  /-- SW (R84). -/
  | sw (rs : XReg) (base : XReg) (rl : BitVec 1) (off : BitVec 12)
  /-- SD (R84). -/
  | sd (rs : XReg) (base : XReg) (rl : BitVec 1) (off : BitVec 12)
  /-- ACAS (R89). -/
  | acas (rd : XReg) (rs1 : XReg) (rs2 : XReg) (aq : BitVec 1) (rl : BitVec 1) (size : BitVec 2)
  /-- ASWAP (R89). -/
  | aswap (rd : XReg) (rs1 : XReg) (rs2 : XReg) (aq : BitVec 1) (rl : BitVec 1) (size : BitVec 2)
  /-- AADD (R89). -/
  | aadd (rd : XReg) (rs1 : XReg) (rs2 : XReg) (aq : BitVec 1) (rl : BitVec 1) (size : BitVec 2)
  /-- AAND (R89). -/
  | aand (rd : XReg) (rs1 : XReg) (rs2 : XReg) (aq : BitVec 1) (rl : BitVec 1) (size : BitVec 2)
  /-- AOR (R89). -/
  | aor (rd : XReg) (rs1 : XReg) (rs2 : XReg) (aq : BitVec 1) (rl : BitVec 1) (size : BitVec 2)
  /-- AXOR (R89). -/
  | axor (rd : XReg) (rs1 : XReg) (rs2 : XReg) (aq : BitVec 1) (rl : BitVec 1) (size : BitVec 2)
  /-- AMIN (R89). -/
  | amin (rd : XReg) (rs1 : XReg) (rs2 : XReg) (aq : BitVec 1) (rl : BitVec 1) (size : BitVec 2)
  /-- AMAX (R89). -/
  | amax (rd : XReg) (rs1 : XReg) (rs2 : XReg) (aq : BitVec 1) (rl : BitVec 1) (size : BitVec 2)
  /-- AMINU (R89). -/
  | aminu (rd : XReg) (rs1 : XReg) (rs2 : XReg) (aq : BitVec 1) (rl : BitVec 1) (size : BitVec 2)
  /-- AMAXU (R89). -/
  | amaxu (rd : XReg) (rs1 : XReg) (rs2 : XReg) (aq : BitVec 1) (rl : BitVec 1) (size : BitVec 2)
  /-- FENCE (R93). -/
  | fence (scope : BitVec 2)
  /-- FENCE_Q (R94). -/
  | fenceQ (mask : BitVec 5) (scope : BitVec 2)
  /-- FADD (R97). -/
  | fadd (rd : XReg) (rs1 : XReg) (rs2 : XReg) (rm : BitVec 2) (fmt : BitVec 1)
  /-- FSUB (R97). -/
  | fsub (rd : XReg) (rs1 : XReg) (rs2 : XReg) (rm : BitVec 2) (fmt : BitVec 1)
  /-- FMUL (R97). -/
  | fmul (rd : XReg) (rs1 : XReg) (rs2 : XReg) (rm : BitVec 2) (fmt : BitVec 1)
  /-- FDIV (R97). -/
  | fdiv (rd : XReg) (rs1 : XReg) (rs2 : XReg) (rm : BitVec 2) (fmt : BitVec 1)
  /-- FSQRT (R97). -/
  | fsqrt (rd : XReg) (rs1 : XReg) (rm : BitVec 2) (fmt : BitVec 1)
  /-- FMIN (R97). -/
  | fmin (rd : XReg) (rs1 : XReg) (rs2 : XReg) (fmt : BitVec 1)
  /-- FMAX (R97). -/
  | fmax (rd : XReg) (rs1 : XReg) (rs2 : XReg) (fmt : BitVec 1)
  /-- FMAC (R97). -/
  | fmac (rd : XReg) (rs1 : XReg) (rs2 : XReg) (rm : BitVec 2) (fmt : BitVec 1)
  /-- FNEG (R97). -/
  | fneg (rd : XReg) (rs1 : XReg) (fmt : BitVec 1)
  /-- FABS (R97). -/
  | fabs (rd : XReg) (rs1 : XReg) (fmt : BitVec 1)
  /-- FKIND (R97). -/
  | fkind (rd : XReg) (rs1 : XReg) (fmt : BitVec 1)
  /-- FCMPEQ (R97). -/
  | fcmpeq (pd : PReg) (rs1 : XReg) (rs2 : XReg) (fmt : BitVec 1)
  /-- FCMPLT (R97). -/
  | fcmplt (pd : PReg) (rs1 : XReg) (rs2 : XReg) (fmt : BitVec 1)
  /-- FCMPLE (R97). -/
  | fcmple (pd : PReg) (rs1 : XReg) (rs2 : XReg) (fmt : BitVec 1)
  /-- FTOI (R97). -/
  | ftoi (rd : XReg) (rs1 : XReg) (rm : BitVec 2) (fmt : BitVec 1)
  /-- FTOU (R97). -/
  | ftou (rd : XReg) (rs1 : XReg) (rm : BitVec 2) (fmt : BitVec 1)
  /-- ITOF (R97). -/
  | itof (rd : XReg) (rs1 : XReg) (rm : BitVec 2) (fmt : BitVec 1)
  /-- UTOF (R97). -/
  | utof (rd : XReg) (rs1 : XReg) (rm : BitVec 2) (fmt : BitVec 1)
  /-- FTOF (R97). -/
  | ftof (rd : XReg) (rs1 : XReg) (rm : BitVec 2) (fmt : BitVec 1)
  /-- ECALL (R101). -/
  | ecall
  /-- EBREAK (R101). -/
  | ebreak
  /-- TRET (R26). -/
  | tret
  /-- UIRET (R332). -/
  | uiret
  /-- CRD (R104). -/
  | crd (rd : XReg) (cr : BitVec 11)
  /-- CWR (R104). -/
  | cwr (rs1 : XReg) (cr : BitVec 11)
  /-- CSET (R104). -/
  | cset (rd : XReg) (rs1 : XReg) (cr : BitVec 11)
  /-- CCLR (R104). -/
  | cclr (rd : XReg) (rs1 : XReg) (cr : BitVec 11)
  /-- SLEEP (R105). -/
  | sleep
  /-- DCCLEAN (R106). -/
  | dcclean (rs1 : XReg)
  /-- DCFLUSH (R106). -/
  | dcflush (rs1 : XReg)
  /-- DCINV (R106). -/
  | dcinv (rs1 : XReg)
  /-- ICINV (R106). -/
  | icinv (rs1 : XReg)
  /-- CSTART (R119). -/
  | cstart (rd : XReg) (rs1 : XReg) (rs2 : XReg)
  /-- CSTOP (R120). -/
  | cstop (rd : XReg) (rs1 : XReg)
  /-- CREAP (R122). -/
  | creap (rd : XReg) (rs1 : XReg)
  /-- CSELF (R121). -/
  | cself (rs1 : XReg)
  /-- FORKL (R125). -/
  | forkl (rd : XReg) (rs1 : XReg)
  /-- JOINL (R126). -/
  | joinl (rd : XReg)
  /-- MOVH (R116). -/
  | movh (hd : HReg) (rs1 : XReg)
  /-- MOVFH (R116). -/
  | movfh (rd : XReg) (hs : HReg)
  /-- BINIT (R286). -/
  | binit (rd : XReg) (rs1 : XReg) (rs2 : XReg)
  /-- BARR (R286). -/
  | barr (rd : XReg) (rs1 : XReg) (rs2 : XReg)
  /-- BEXP (R287). -/
  | bexp (rd : XReg) (rs1 : XReg) (rs2 : XReg)
  /-- BWAIT (R288). -/
  | bwait (rd : XReg) (rs1 : XReg) (rs2 : XReg)
  /-- BTEST (R288). -/
  | btest (rd : XReg) (rs1 : XReg) (rs2 : XReg)
  /-- PHASEND (R289). -/
  | phasend (rd : XReg) (rs1 : XReg) (rs2 : XReg)
  /-- CHBIND (R206). -/
  | chbind (rd : XReg) (rs1 : XReg)
  /-- CHUNBIND (R207). -/
  | chunbind (rd : XReg) (rs1 : XReg)
  /-- CHSEND (R211). -/
  | chsend (rd : XReg) (rs1 : XReg) (rs2 : XReg)
  /-- CHRECV (R211). -/
  | chrecv (rd : XReg) (rt : XReg) (rs1 : XReg)
  /-- CHSENDV (R212). -/
  | chsendv (rd : XReg) (rs1 : XReg) (vs : VReg)
  /-- CHRECVV (R212). -/
  | chrecvv (vd : VReg) (rt : XReg) (rs1 : XReg)
  /-- CHCLOSE (R207). -/
  | chclose (rd : XReg) (rs1 : XReg)
  /-- SELECT (R215). -/
  | select (rd : XReg) (rt : XReg) (rs1 : XReg)
  /-- CHSENDB (R334). -/
  | chsendb (rd : XReg) (rs1 : XReg) (rs2 : XReg)
  /-- CHRECVB (R334). -/
  | chrecvb (rd : XReg) (rs1 : XReg) (rs2 : XReg)
  /-- VSETVL (R173). -/
  | vsetvl (rd : XReg) (rs1 : XReg)
  /-- VSETT (R174). -/
  | vsett (rd : XReg) (rs1 : XReg)
  /-- VMODE (R175). -/
  | vmode (rd : XReg) (rs1 : XReg)
  /-- CTWR (R176). -/
  | ctwr (rs1 : XReg) (rs2 : XReg)
  /-- CTSEL (R177). -/
  | ctsel (rs1 : XReg)
  /-- VADD (R179). -/
  | vadd (vd : VReg) (vs1 : VReg) (c : XReg) (x : BitVec 1) (mk : VMask)
  /-- VSUB (R179). -/
  | vsub (vd : VReg) (vs1 : VReg) (c : XReg) (x : BitVec 1) (mk : VMask)
  /-- VRSUB (R179). -/
  | vrsub (vd : VReg) (vs1 : VReg) (c : XReg) (x : BitVec 1) (mk : VMask)
  /-- VAND (R179). -/
  | vand (vd : VReg) (vs1 : VReg) (c : XReg) (x : BitVec 1) (mk : VMask)
  /-- VOR (R179). -/
  | vor (vd : VReg) (vs1 : VReg) (c : XReg) (x : BitVec 1) (mk : VMask)
  /-- VXOR (R179). -/
  | vxor (vd : VReg) (vs1 : VReg) (c : XReg) (x : BitVec 1) (mk : VMask)
  /-- VSLL (R179). -/
  | vsll (vd : VReg) (vs1 : VReg) (c : XReg) (x : BitVec 1) (mk : VMask)
  /-- VSRL (R179). -/
  | vsrl (vd : VReg) (vs1 : VReg) (c : XReg) (x : BitVec 1) (mk : VMask)
  /-- VSRA (R179). -/
  | vsra (vd : VReg) (vs1 : VReg) (c : XReg) (x : BitVec 1) (mk : VMask)
  /-- VMIN (R179). -/
  | vmin (vd : VReg) (vs1 : VReg) (c : XReg) (x : BitVec 1) (mk : VMask)
  /-- VMAX (R179). -/
  | vmax (vd : VReg) (vs1 : VReg) (c : XReg) (x : BitVec 1) (mk : VMask)
  /-- VMINU (R179). -/
  | vminu (vd : VReg) (vs1 : VReg) (c : XReg) (x : BitVec 1) (mk : VMask)
  /-- VMAXU (R179). -/
  | vmaxu (vd : VReg) (vs1 : VReg) (c : XReg) (x : BitVec 1) (mk : VMask)
  /-- VMUL (R179). -/
  | vmul (vd : VReg) (vs1 : VReg) (c : XReg) (x : BitVec 1) (mk : VMask)
  /-- VMULH (R179). -/
  | vmulh (vd : VReg) (vs1 : VReg) (c : XReg) (x : BitVec 1) (mk : VMask)
  /-- VMULHU (R179). -/
  | vmulhu (vd : VReg) (vs1 : VReg) (c : XReg) (x : BitVec 1) (mk : VMask)
  /-- VSADD (R179). -/
  | vsadd (vd : VReg) (vs1 : VReg) (c : XReg) (x : BitVec 1) (mk : VMask)
  /-- VSADDU (R179). -/
  | vsaddu (vd : VReg) (vs1 : VReg) (c : XReg) (x : BitVec 1) (mk : VMask)
  /-- VSSUB (R179). -/
  | vssub (vd : VReg) (vs1 : VReg) (c : XReg) (x : BitVec 1) (mk : VMask)
  /-- VSSUBU (R179). -/
  | vssubu (vd : VReg) (vs1 : VReg) (c : XReg) (x : BitVec 1) (mk : VMask)
  /-- VMACC (R179). -/
  | vmacc (vd : VReg) (vs1 : VReg) (c : XReg) (x : BitVec 1) (mk : VMask)
  /-- VABS (R179). -/
  | vabs (vd : VReg) (vs1 : VReg) (mk : VMask)
  /-- VNEG (R179). -/
  | vneg (vd : VReg) (vs1 : VReg) (mk : VMask)
  /-- VCMPEQ (R180). -/
  | vcmpeq (md : MReg) (vs1 : VReg) (c : XReg) (x : BitVec 1) (mk : VMask)
  /-- VCMPNE (R180). -/
  | vcmpne (md : MReg) (vs1 : VReg) (c : XReg) (x : BitVec 1) (mk : VMask)
  /-- VCMPLT (R180). -/
  | vcmplt (md : MReg) (vs1 : VReg) (c : XReg) (x : BitVec 1) (mk : VMask)
  /-- VCMPLE (R180). -/
  | vcmple (md : MReg) (vs1 : VReg) (c : XReg) (x : BitVec 1) (mk : VMask)
  /-- VCMPLTU (R180). -/
  | vcmpltu (md : MReg) (vs1 : VReg) (c : XReg) (x : BitVec 1) (mk : VMask)
  /-- VCMPLEU (R180). -/
  | vcmpleu (md : MReg) (vs1 : VReg) (c : XReg) (x : BitVec 1) (mk : VMask)
  /-- VFADD (R181). -/
  | vfadd (vd : VReg) (vs1 : VReg) (c : XReg) (x : BitVec 1) (mk : VMask)
  /-- VFSUB (R181). -/
  | vfsub (vd : VReg) (vs1 : VReg) (c : XReg) (x : BitVec 1) (mk : VMask)
  /-- VFMUL (R181). -/
  | vfmul (vd : VReg) (vs1 : VReg) (c : XReg) (x : BitVec 1) (mk : VMask)
  /-- VFDIV (R181). -/
  | vfdiv (vd : VReg) (vs1 : VReg) (c : XReg) (x : BitVec 1) (mk : VMask)
  /-- VFSQRT (R181). -/
  | vfsqrt (vd : VReg) (vs1 : VReg) (mk : VMask)
  /-- VFMIN (R181). -/
  | vfmin (vd : VReg) (vs1 : VReg) (c : XReg) (x : BitVec 1) (mk : VMask)
  /-- VFMAX (R181). -/
  | vfmax (vd : VReg) (vs1 : VReg) (c : XReg) (x : BitVec 1) (mk : VMask)
  /-- VFMACC (R181). -/
  | vfmacc (vd : VReg) (vs1 : VReg) (c : XReg) (x : BitVec 1) (mk : VMask)
  /-- VFABS (R181). -/
  | vfabs (vd : VReg) (vs1 : VReg) (mk : VMask)
  /-- VFNEG (R181). -/
  | vfneg (vd : VReg) (vs1 : VReg) (mk : VMask)
  /-- VFCMPEQ (R182). -/
  | vfcmpeq (md : MReg) (vs1 : VReg) (c : XReg) (x : BitVec 1) (mk : VMask)
  /-- VFCMPLT (R182). -/
  | vfcmplt (md : MReg) (vs1 : VReg) (c : XReg) (x : BitVec 1) (mk : VMask)
  /-- VFCMPLE (R182). -/
  | vfcmple (md : MReg) (vs1 : VReg) (c : XReg) (x : BitVec 1) (mk : VMask)
  /-- VFCVT (R184). -/
  | vfcvt (vd : VReg) (vs1 : VReg) (tag : BitVec 5) (mk : VMask)
  /-- VQUANT (R184). -/
  | vquant (vd : VReg) (vs1 : VReg) (tag : BitVec 5) (mk : VMask)
  /-- VDEQUANT (R184). -/
  | vdequant (vd : VReg) (vs1 : VReg) (tag : BitVec 5) (mk : VMask)
  /-- MAND (R185). -/
  | mand (md : MReg) (ms1 : MReg) (ms2 : MReg) (x : BitVec 1) (mk : VMask)
  /-- MOR (R185). -/
  | mor (md : MReg) (ms1 : MReg) (ms2 : MReg) (x : BitVec 1) (mk : VMask)
  /-- MXOR (R185). -/
  | mxor (md : MReg) (ms1 : MReg) (ms2 : MReg) (x : BitVec 1) (mk : VMask)
  /-- MANDN (R185). -/
  | mandn (md : MReg) (ms1 : MReg) (ms2 : MReg) (x : BitVec 1) (mk : VMask)
  /-- MNOT (R185). -/
  | mnot (md : MReg) (ms1 : MReg) (x : BitVec 1) (mk : VMask)
  /-- MSET (R185). -/
  | mset (md : MReg) (x : BitVec 1) (mk : VMask)
  /-- MCLR (R185). -/
  | mclr (md : MReg) (x : BitVec 1) (mk : VMask)
  /-- MPOPC (R186). -/
  | mpopc (rd : XReg) (ms1 : MReg) (mk : VMask)
  /-- MFIRST (R186). -/
  | mfirst (rd : XReg) (ms1 : MReg) (mk : VMask)
  /-- VSHUF (R189). -/
  | vshuf (vd : VReg) (vs1 : VReg) (vi : VReg) (mk : VMask)
  /-- VSLIDEUP (R189). -/
  | vslideup (vd : VReg) (vs1 : VReg) (rs2 : XReg) (mk : VMask)
  /-- VSLIDEDN (R189). -/
  | vslidedn (vd : VReg) (vs1 : VReg) (rs2 : XReg) (mk : VMask)
  /-- VCOMPRESS (R191). -/
  | vcompress (vd : VReg) (vs1 : VReg) (mr : MReg)
  /-- VEXPAND (R191). -/
  | vexpand (vd : VReg) (vs1 : VReg) (mr : MReg)
  /-- VDENSE (R192). -/
  | vdense (vd : VReg) (vs1 : VReg) (c : XReg) (x : BitVec 1) (mk : VMask)
  /-- VRED_SUM (R190). -/
  | vredSum (d : XReg) (vs1 : VReg) (x : BitVec 1) (mk : VMask)
  /-- VRED_MIN (R190). -/
  | vredMin (d : XReg) (vs1 : VReg) (x : BitVec 1) (mk : VMask)
  /-- VRED_MAX (R190). -/
  | vredMax (d : XReg) (vs1 : VReg) (x : BitVec 1) (mk : VMask)
  /-- VRED_MINU (R190). -/
  | vredMinu (d : XReg) (vs1 : VReg) (x : BitVec 1) (mk : VMask)
  /-- VRED_MAXU (R190). -/
  | vredMaxu (d : XReg) (vs1 : VReg) (x : BitVec 1) (mk : VMask)
  /-- VRED_AND (R190). -/
  | vredAnd (d : XReg) (vs1 : VReg) (x : BitVec 1) (mk : VMask)
  /-- VRED_OR (R190). -/
  | vredOr (d : XReg) (vs1 : VReg) (x : BitVec 1) (mk : VMask)
  /-- VRED_XOR (R190). -/
  | vredXor (d : XReg) (vs1 : VReg) (x : BitVec 1) (mk : VMask)
  /-- VRED_FSUM (R190). -/
  | vredFsum (d : XReg) (vs1 : VReg) (x : BitVec 1) (mk : VMask)
  /-- VRED_FMIN (R190). -/
  | vredFmin (d : XReg) (vs1 : VReg) (x : BitVec 1) (mk : VMask)
  /-- VRED_FMAX (R190). -/
  | vredFmax (d : XReg) (vs1 : VReg) (x : BitVec 1) (mk : VMask)
  /-- VSCAN_SUM (R190). -/
  | vscanSum (vd : VReg) (vs1 : VReg) (mk : VMask)
  /-- VSCAN_MIN (R190). -/
  | vscanMin (vd : VReg) (vs1 : VReg) (mk : VMask)
  /-- VSCAN_MAX (R190). -/
  | vscanMax (vd : VReg) (vs1 : VReg) (mk : VMask)
  /-- VSCAN_MINU (R190). -/
  | vscanMinu (vd : VReg) (vs1 : VReg) (mk : VMask)
  /-- VSCAN_MAXU (R190). -/
  | vscanMaxu (vd : VReg) (vs1 : VReg) (mk : VMask)
  /-- VSCAN_AND (R190). -/
  | vscanAnd (vd : VReg) (vs1 : VReg) (mk : VMask)
  /-- VSCAN_OR (R190). -/
  | vscanOr (vd : VReg) (vs1 : VReg) (mk : VMask)
  /-- VSCAN_XOR (R190). -/
  | vscanXor (vd : VReg) (vs1 : VReg) (mk : VMask)
  /-- VSCAN_FSUM (R190). -/
  | vscanFsum (vd : VReg) (vs1 : VReg) (mk : VMask)
  /-- VMV (R187). -/
  | vmv (vd : VReg) (vs1 : VReg) (mk : VMask)
  /-- VMERGE (R187). -/
  | vmerge (vd : VReg) (vs1 : VReg) (c : XReg) (x : BitVec 1) (mr : MReg)
  /-- VBCAST (R187). -/
  | vbcast (vd : VReg) (rs2 : XReg) (mk : VMask)
  /-- VMVXS (R187). -/
  | vmvxs (rd : XReg) (vs1 : VReg)
  /-- VMVSX (R187). -/
  | vmvsx (vd : VReg) (rs2 : XReg)
  /-- VID (R187). -/
  | vid (vd : VReg) (mk : VMask)
  /-- VLD (R195). -/
  | vld (vd : VReg) (base : XReg) (mk : VMask)
  /-- VLDS (R195). -/
  | vlds (vd : VReg) (base : XReg) (rs : XReg) (mk : VMask)
  /-- VLDX (R195). -/
  | vldx (vd : VReg) (base : XReg) (vi : VReg) (iw : BitVec 2) (mk : VMask)
  /-- VST (R195). -/
  | vst (vs : VReg) (base : XReg) (mk : VMask)
  /-- VSTS (R195). -/
  | vsts (vs : VReg) (base : XReg) (rs : XReg) (mk : VMask)
  /-- VSTX (R195). -/
  | vstx (vs : VReg) (base : XReg) (vi : VReg) (iw : BitVec 2) (mk : VMask)
  /-- VLDL (R276). -/
  | vldl (vd : VReg) (base : XReg) (vi : VReg) (iw : BitVec 2) (mk : VMask)
  /-- VSTC (R277). -/
  | vstc (vs : VReg) (base : XReg) (vi : VReg) (iw : BitVec 2) (mr : MReg)
  /-- VAMO_ADD (R280). -/
  | vamoAdd (vs : VReg) (base : XReg) (vi : VReg) (mk : VMask)
  /-- VAMO_MIN (R280). -/
  | vamoMin (vs : VReg) (base : XReg) (vi : VReg) (mk : VMask)
  /-- VAMO_MAX (R280). -/
  | vamoMax (vs : VReg) (base : XReg) (vi : VReg) (mk : VMask)
  /-- VAMO_FADD (R280). -/
  | vamoFadd (vs : VReg) (base : XReg) (vi : VReg) (mk : VMask)
  /-- MATTACH (R303). -/
  | mattach (rd : XReg) (rs1 : XReg)
  /-- MDETACH (R304). -/
  | mdetach
  /-- MCLAIM (R306). -/
  | mclaim (rd : XReg) (rs1 : XReg)
  /-- MRELEASE (R306). -/
  | mrelease (os : Slot)
  /-- MLDA (R308). -/
  | mlda (os : Slot) (base : XReg) (rs : XReg) (sp : BitVec 1) (fmt : BitVec 2)
  /-- MLDB (R308). -/
  | mldb (os : Slot) (base : XReg) (rs : XReg) (fmt : BitVec 2)
  /-- MZERO (R309). -/
  | mzero (t : BitVec 2)
  /-- MOP (R311). -/
  | mop (t : BitVec 2) (osa : Slot) (osb : Slot) (rs : XReg) (z : BitVec 1)
  /-- MTMV (R310). -/
  | mtmv (vd : VReg) (t : BitVec 2) (rs : XReg) (mk : VMask)
  /-- MVTM (R310). -/
  | mvtm (t : BitVec 2) (vs : VReg) (rs : XReg) (mk : VMask)
  /-- MTLD (R309). -/
  | mtld (t : BitVec 2) (base : XReg) (rs : XReg)
  /-- MTST (R309). -/
  | mtst (t : BitVec 2) (base : XReg) (rs : XReg) (h : BitVec 1)
  /-- MPRUNE (R318). -/
  | mprune (osd : Slot) (oss : Slot) (rs : XReg)
  /-- MHDR (R317). -/
  | mhdr (rd : XReg) (os : Slot) (l : BitVec 1)
  /-- MWAIT (R302). -/
  | mwait (rd : XReg) (rs1 : XReg)
  /-- PCOPY (R326). -/
  | pcopy (rd : XReg) (rs1 : XReg)
  /-- PFILL (R326). -/
  | pfill (rd : XReg) (rs1 : XReg)
  /-- PWAIT (R328). -/
  | pwait (rd : XReg) (rs1 : XReg)
  /-- PPOLL (R328). -/
  | ppoll (rd : XReg) (rs1 : XReg)
  /-- PCANCEL (R328). -/
  | pcancel (rd : XReg) (rs1 : XReg)
  /-- CLLOAD (R338). -/
  | clload (rd : XReg) (rs1 : XReg) (rs2 : XReg)
  /-- CLQUERY (R339). -/
  | clquery (vd : VReg) (vi : VReg) (rs1 : XReg)
  /-- CLRUN (R343). -/
  | clrun (rd : XReg) (rs1 : XReg) (rs2 : XReg)
  /-- CLWAIT (R348). -/
  | clwait (rd : XReg) (rs1 : XReg)
  /-- PFX (R51). -/
  | pfx (p : PReg) (sense : BitVec 1) (ce : BitVec 1) (copy : XReg)
  /-- TLBINV (R256). -/
  | tlbinv (v : Word)
  /-- VTYPE_WRITE (R138). -/
  | vtypeWrite (v : Word)
  /-- REGISTER_WRITE (R9). -/
  | registerWrite (cr : BitVec 11) (v : Word)
  /-- INTERRUPT_ENTRY (R24). -/
  | interruptEntry
  /-- USER_COMPLETION (R332). -/
  | userCompletion
  /-- SAVE_FULL (R377). -/
  | saveFull
  /-- LOCAL_COMPARE (R29). -/
  | localCompare
  /-- MEMORY_REPLY (R85). -/
  | memoryReply
  /-- DIVIDE_COMPLETE (R64). -/
  | divideComplete
  /-- FENCE_WAIT_END (R93). -/
  | fenceWaitEnd
  /-- VECTOR_ORDER_WAIT_END (R198). -/
  | vectorOrderWaitEnd
  /-- QUEUE_ENTRY_FREE (R127). -/
  | queueEntryFree
  /-- DRAIN_END (R129). -/
  | drainEnd
  /-- SLEEP_WAKE (R105). -/
  | sleepWake
  /-- CSTOP_WAIT_END (R120). -/
  | cstopWaitEnd
  /-- CREAP_WAIT_END (R122). -/
  | creapWaitEnd
  /-- JOINL_TAKEOVER (R126). -/
  | joinlTakeover
  /-- HWM_RECHECK (R163). -/
  | hwmRecheck
  /-- CTWR_WAIT_END (R155). -/
  | ctwrWaitEnd
  /-- STREAM_INDEX_WAIT_END (R195). -/
  | streamIndexWaitEnd
  /-- TLBINV_WAIT_END (R256). -/
  | tlbinvWaitEnd
  /-- VECTOR_QUEUE_ENTRY (R168). -/
  | vectorQueueEntry (core : Nat) (base : Nat)
  /-- VECTOR_DATA_PHASE (R197). -/
  | vectorDataPhase (core : Nat) (base : Nat)
  /-- PROBE_QUERY (R221). -/
  | probeQuery (n : Nat) (m : Option MsgIn)
  /-- ANSWER (R221). -/
  | answer (n : Nat) (m : Option MsgIn)
  /-- BARRIER_WAIT_END (R288). -/
  | barrierWaitEnd
  /-- SCATTER_DRAIN_END (R289). -/
  | scatterDrainEnd
  /-- JOB_WAIT_END (R302). -/
  | jobWaitEnd
  /-- ATTACH_JOB (R303). -/
  | attachJob (tile : Nat)
  /-- DETACH_JOB (R304). -/
  | detachJob (tile : Nat)
  /-- SLOT_RELEASE_JOB (R306). -/
  | slotReleaseJob (tile : Nat)
  /-- OPERAND_LOAD_JOB (R308). -/
  | operandLoadJob (tile : Nat)
  /-- ACCUMULATOR_JOB (R309). -/
  | accumulatorJob (tile : Nat)
  /-- MOP_JOB (R312). -/
  | mopJob (tile : Nat)
  /-- PRUNE_JOB (R319). -/
  | pruneJob (tile : Nat)
  /-- GOVERNOR_WINDOW (R320). -/
  | governorWindow (tile : Nat) (held : Nat)
  /-- PORTER_JOB (R327). -/
  | porterJob (tile : Nat) (n : Nat)
  /-- COMPLETION_PLACE_WAIT_END (R331). -/
  | completionPlaceWaitEnd
  /-- BLOCK_TRANSFER (R334). -/
  | blockTransfer (tile : Nat) (n : Nat)
  /-- CELLAR_LOAD_JOB (R338). -/
  | cellarLoadJob (tile : Nat)
  /-- KERNEL_MOVE (R344). -/
  | kernelMove (tile : Nat)
  /-- HBM_REFRESH (R341). -/
  | hbmRefresh (tile : Nat) (row : Nat)
  /-- HBM_TEMP_SAMPLE (R396). -/
  | hbmTempSample (stack : Nat) (temp : BitVec 10)
  /-- THERMAL_SAMPLE (R393). -/
  | thermalSample (die : Nat) (temp : BitVec 10)
  /-- DROOP_BEGIN (R392). -/
  | droopBegin (stack : Nat)
  /-- DROOP_END (R392). -/
  | droopEnd (stack : Nat) (cycles : Nat)
  /-- POWER_UPDATE (R397). -/
  | powerUpdate (watts : BitVec 16)
  /-- DISPATCH (R233). -/
  | dispatch (lseq : Nat) (tiles : List Nat)
  /-- PLACEMENT_COMPLETE (R235). -/
  | placementComplete (lseq : Nat)
  /-- PREEMPTION (R374). -/
  | preemption (lseq : Nat)
  /-- PROCESS_RESTORE (R378). -/
  | processRestore (lseq : Nat)
  /-- RUN (R400). -/
  | run (tile : Nat)
  /-- QUIESCE (R400). -/
  | quiesce (tile : Nat)
  /-- GATE (R400). -/
  | gate (tile : Nat)
  /-- WAKE (R400). -/
  | wake (tile : Nat)
  /-- QUIESCE_COMPLETE (R400). -/
  | quiesceComplete (tile : Nat)
  /-- GATING_COMPLETE (R400). -/
  | gatingComplete (tile : Nat)
  /-- WAKING_COMPLETE (R400). -/
  | wakingComplete (tile : Nat)
  /-- NAK (R410). -/
  | nak (link : Nat) (ftag : Nat)
  /-- ACK (R414). -/
  | ack (m : MsgIn)
  /-- OFFER (R416). -/
  | offer (m : MsgIn)
  /-- COMMIT (R416). -/
  | commit (m : MsgIn)
  /-- DATA (R415). -/
  | data (m : MsgIn)
  /-- CLOSE (R416). -/
  | close (m : MsgIn)
  /-- LINK_UP (R410). -/
  | linkUp (link : Nat)
  /-- LINK_TRAINING_TIMEOUT (R410). -/
  | linkTrainingTimeout (link : Nat)
  /-- LINK_RETRY (R410). -/
  | linkRetry (link : Nat)
  /-- ACK_TIMER (R414). -/
  | ackTimer (peer : Nat)
  /-- RESEND_TIMER (R414). -/
  | resendTimer (peer : Nat)
  /-- ADMIT (R418). -/
  | admitLaunch (m : MsgIn)
  /-- ADMITTED (R418). -/
  | admitted (m : MsgIn)
  /-- IMAGE (R418). -/
  | image (m : MsgIn)
  /-- RESERVE (R418). -/
  | reserve (m : MsgIn)
  /-- RESERVED (R418). -/
  | reserved (m : MsgIn)
  /-- PLACE (R418). -/
  | place (m : MsgIn)
  /-- PLACED (R418). -/
  | placed (m : MsgIn)
  /-- STOPPED (R418). -/
  | stopped (m : MsgIn)
  /-- END (R418). -/
  | endMsg (m : MsgIn)
  /-- ENDED (R418). -/
  | ended (m : MsgIn)
  /-- KNOT (R418). -/
  | knot (m : MsgIn)
  /-- SWITCH (R418). -/
  | switch (m : MsgIn)
  /-- SWITCHED (R418). -/
  | switched (m : MsgIn)
  /-- COMMITSAVE (R418). -/
  | commitsave (m : MsgIn)
  /-- RESTORE (R418). -/
  | restore (m : MsgIn)
  /-- RESTORED (R418). -/
  | restored (m : MsgIn)
  /-- JOIN (R418). -/
  | join (m : MsgIn)
  /-- JOINED (R418). -/
  | joined (m : MsgIn)
  /-- PARK (R418). -/
  | park (m : MsgIn)
  /-- STAGE (R419). -/
  | stage (q : HostReq)
  /-- SUBMIT (R230). -/
  | submit (q : HostReq)
  /-- CANCEL (R232). -/
  | cancel (q : HostReq)
  /-- QUERY (R419). -/
  | query (q : HostReq)
  /-- KNOTLOG (R419). -/
  | knotlog (q : HostReq)
  /-- FLOOR (R419). -/
  | floor (q : HostReq)
  /-- ATTEST (R424). -/
  | attest (q : HostReq)
  /-- RELEASE (R421). -/
  | release (q : HostReq)
  /-- RDMA_WRITE (R421). -/
  | rdmaWrite (w : RdmaWrite)
  /-- DEVICE_RESET (R422). -/
  | deviceReset (b : BootInput)
  /-- SECURITY_ALARM (R425). -/
  | securityAlarm
  /-- ILLEGAL_INSN (R34). -/
  | illegalInsn (w : Insn)
  /-- PAGE_FAULT_FETCH (R22). -/
  | pageFaultFetch
  /-- FLIT_REJECTED (R410). -/
  | flitRejected (link : Nat) (f : Flit)
  /-- TRANSIT_FLIT (R412). -/
  | transitFlit (m : MsgIn)
  /-- BAD_COMMAND (R419). -/
  | badCommand (q : HostReq)
  /-- REPORT_SIGNED (R424). -/
  | reportSigned (salt : BitVec 512)
deriving DecidableEq, Repr

end Sys2Proof
end

