-- ==== Sys2Proof/WellFormed.lean ====
section
/-! DEFINITION. Sys2Proof/WellFormed.lean: which field values of a word are legal where the field's width admits more (R32, R34 items 4 to 7 and 9). -/

namespace Sys2Proof

/-- A vector register field in a destination position: v0 to v23 and m0 to m3 (R32, R34 items 5 and 6). -/
def vdst (v : BitVec 5) : Bool := v.toNat ≤ 27

/-- A vector register field in a source position: 30 and 31 are illegal (R32, R34 item 5). -/
def vsrc (v : BitVec 5) : Bool := v.toNat ≤ 29

/-- The c field of a V-form instruction: a vector source when X = 0, any general register when X = 1 (R45). -/
def vsrcX (c : BitVec 5) (x : BitVec 1) : Bool := x == 1#1 || vsrc c

/-- An instruction's fields hold values that its word may hold. Steps without a word are always well formed. -/
def Instr.wf : Instr → Bool
  | .fenceQ mask _ => mask != 0#5
  | .ftof _ _ rm fmt => fmt == 1#1 || rm == 0#2
  | .chsendv _ _ vs => vdst vs
  | .chrecvv vd _ _ => vdst vd
  | .vadd vd vs1 c x _ => vdst vd && vsrc vs1 && vsrcX c x
  | .vsub vd vs1 c x _ => vdst vd && vsrc vs1 && vsrcX c x
  | .vrsub vd vs1 c x _ => vdst vd && vsrc vs1 && vsrcX c x
  | .vand vd vs1 c x _ => vdst vd && vsrc vs1 && vsrcX c x
  | .vor vd vs1 c x _ => vdst vd && vsrc vs1 && vsrcX c x
  | .vxor vd vs1 c x _ => vdst vd && vsrc vs1 && vsrcX c x
  | .vsll vd vs1 c x _ => vdst vd && vsrc vs1 && vsrcX c x
  | .vsrl vd vs1 c x _ => vdst vd && vsrc vs1 && vsrcX c x
  | .vsra vd vs1 c x _ => vdst vd && vsrc vs1 && vsrcX c x
  | .vmin vd vs1 c x _ => vdst vd && vsrc vs1 && vsrcX c x
  | .vmax vd vs1 c x _ => vdst vd && vsrc vs1 && vsrcX c x
  | .vminu vd vs1 c x _ => vdst vd && vsrc vs1 && vsrcX c x
  | .vmaxu vd vs1 c x _ => vdst vd && vsrc vs1 && vsrcX c x
  | .vmul vd vs1 c x _ => vdst vd && vsrc vs1 && vsrcX c x
  | .vmulh vd vs1 c x _ => vdst vd && vsrc vs1 && vsrcX c x
  | .vmulhu vd vs1 c x _ => vdst vd && vsrc vs1 && vsrcX c x
  | .vsadd vd vs1 c x _ => vdst vd && vsrc vs1 && vsrcX c x
  | .vsaddu vd vs1 c x _ => vdst vd && vsrc vs1 && vsrcX c x
  | .vssub vd vs1 c x _ => vdst vd && vsrc vs1 && vsrcX c x
  | .vssubu vd vs1 c x _ => vdst vd && vsrc vs1 && vsrcX c x
  | .vmacc vd vs1 c x _ => vdst vd && vsrc vs1 && vsrcX c x
  | .vabs vd vs1 _ => vdst vd && vsrc vs1
  | .vneg vd vs1 _ => vdst vd && vsrc vs1
  | .vcmpeq _ vs1 c x _ => vsrc vs1 && vsrcX c x
  | .vcmpne _ vs1 c x _ => vsrc vs1 && vsrcX c x
  | .vcmplt _ vs1 c x _ => vsrc vs1 && vsrcX c x
  | .vcmple _ vs1 c x _ => vsrc vs1 && vsrcX c x
  | .vcmpltu _ vs1 c x _ => vsrc vs1 && vsrcX c x
  | .vcmpleu _ vs1 c x _ => vsrc vs1 && vsrcX c x
  | .vfadd vd vs1 c x _ => vdst vd && vsrc vs1 && vsrcX c x
  | .vfsub vd vs1 c x _ => vdst vd && vsrc vs1 && vsrcX c x
  | .vfmul vd vs1 c x _ => vdst vd && vsrc vs1 && vsrcX c x
  | .vfdiv vd vs1 c x _ => vdst vd && vsrc vs1 && vsrcX c x
  | .vfsqrt vd vs1 _ => vdst vd && vsrc vs1
  | .vfmin vd vs1 c x _ => vdst vd && vsrc vs1 && vsrcX c x
  | .vfmax vd vs1 c x _ => vdst vd && vsrc vs1 && vsrcX c x
  | .vfmacc vd vs1 c x _ => vdst vd && vsrc vs1 && vsrcX c x
  | .vfabs vd vs1 _ => vdst vd && vsrc vs1
  | .vfneg vd vs1 _ => vdst vd && vsrc vs1
  | .vfcmpeq _ vs1 c x _ => vsrc vs1 && vsrcX c x
  | .vfcmplt _ vs1 c x _ => vsrc vs1 && vsrcX c x
  | .vfcmple _ vs1 c x _ => vsrc vs1 && vsrcX c x
  | .vfcvt vd vs1 _ _ => vdst vd && vsrc vs1
  | .vquant vd vs1 _ _ => vdst vd && vsrc vs1
  | .vdequant vd vs1 _ _ => vdst vd && vsrc vs1
  | .vshuf vd vs1 vi _ => vdst vd && vsrc vs1 && vsrc vi
  | .vslideup vd vs1 _ _ => vdst vd && vsrc vs1
  | .vslidedn vd vs1 _ _ => vdst vd && vsrc vs1
  | .vcompress vd vs1 _ => vdst vd && vsrc vs1
  | .vexpand vd vs1 _ => vdst vd && vsrc vs1
  | .vdense vd vs1 c x _ => vdst vd && vsrc vs1 && (x == 1#1 || c == 0#5)
  | .vredSum d vs1 x _ => (x == 1#1 || vdst d) && vsrc vs1
  | .vredMin d vs1 x _ => (x == 1#1 || vdst d) && vsrc vs1
  | .vredMax d vs1 x _ => (x == 1#1 || vdst d) && vsrc vs1
  | .vredMinu d vs1 x _ => (x == 1#1 || vdst d) && vsrc vs1
  | .vredMaxu d vs1 x _ => (x == 1#1 || vdst d) && vsrc vs1
  | .vredAnd d vs1 x _ => (x == 1#1 || vdst d) && vsrc vs1
  | .vredOr d vs1 x _ => (x == 1#1 || vdst d) && vsrc vs1
  | .vredXor d vs1 x _ => (x == 1#1 || vdst d) && vsrc vs1
  | .vredFsum d vs1 x _ => (x == 1#1 || vdst d) && vsrc vs1
  | .vredFmin d vs1 x _ => (x == 1#1 || vdst d) && vsrc vs1
  | .vredFmax d vs1 x _ => (x == 1#1 || vdst d) && vsrc vs1
  | .vscanSum vd vs1 _ => vdst vd && vsrc vs1
  | .vscanMin vd vs1 _ => vdst vd && vsrc vs1
  | .vscanMax vd vs1 _ => vdst vd && vsrc vs1
  | .vscanMinu vd vs1 _ => vdst vd && vsrc vs1
  | .vscanMaxu vd vs1 _ => vdst vd && vsrc vs1
  | .vscanAnd vd vs1 _ => vdst vd && vsrc vs1
  | .vscanOr vd vs1 _ => vdst vd && vsrc vs1
  | .vscanXor vd vs1 _ => vdst vd && vsrc vs1
  | .vscanFsum vd vs1 _ => vdst vd && vsrc vs1
  | .vmv vd vs1 _ => vdst vd && vsrc vs1
  | .vmerge vd vs1 c x _ => vdst vd && vsrc vs1 && vsrcX c x
  | .vbcast vd _ _ => vdst vd
  | .vmvxs _ vs1 => vsrc vs1
  | .vmvsx vd _ => vdst vd
  | .vid vd _ => vdst vd
  | .vld vd _ _ => vdst vd
  | .vlds vd _ _ _ => vdst vd
  | .vldx vd _ vi iw _ => vdst vd && vsrc vi && iw != 3#2
  | .vst vs _ _ => vsrc vs
  | .vsts vs _ _ _ => vsrc vs
  | .vstx vs _ vi iw _ => vsrc vs && vsrc vi && iw != 3#2
  | .vldl vd _ vi iw _ => vdst vd && vsrc vi && iw != 3#2
  | .vstc vs _ vi iw _ => vdst vs && vsrc vi && iw != 3#2
  | .vamoAdd vs _ vi _ => vdst vs && vdst vi
  | .vamoMin vs _ vi _ => vdst vs && vdst vi
  | .vamoMax vs _ vi _ => vdst vs && vdst vi
  | .vamoFadd vs _ vi _ => vdst vs && vdst vi
  | .mtmv vd _ _ _ => vdst vd
  | .mvtm _ vs _ _ => vdst vs
  | .clquery vd vi _ => vdst vd && vdst vi
  | .pfx _ _ ce copy => ce == 1#1 || copy == 0#5
  | _ => true

end Sys2Proof
end

