-- ==== Sys2Proof/Decode.lean ====
section
/-! DEFINITION. Sys2Proof/Decode.lean: the decoder of instruction words and, after it, the encoder, both from the formats of R31 and the assignments of R33 to R49. The decoder is total: a word that is no instruction (R34) answers none. -/

namespace Sys2Proof

/-- The optional mask of the V and VM formats, bits [10:8] of the word (R45): masked = 1 names a mask register; masked = 0 with a non-zero register is reserved (R34 item 8). -/
def maskOf (k : BitVec 3) : Option VMask :=
  if k.extractLsb' 2 1 == 1#1 then some (some (k.extractLsb' 0 2)) else if k == 0#3 then some none else none

/-- The mask bits of MTMV and MVTM, mod [3:0] (R297): [3] masked, [2] zero, [1:0] the register. -/
def maskOf4 (k : BitVec 4) : Option VMask :=
  if k.extractLsb' 3 1 == 1#1 && k.extractLsb' 2 1 == 0#1 then some (some (k.extractLsb' 0 2)) else if k == 0#4 then some none else none

/-- Major 0x01: the function field chooses the row (R35 to R48); every other value is no instruction (R34). -/
noncomputable def decode01 (a b c : BitVec 5) (f : BitVec 11) : Option Instr :=
  match f.toNat with
  | 0 => some (.add a b c)
  | 1 => some (.sub a b c)
  | 2 => some (.and a b c)
  | 3 => some (.or a b c)
  | 4 => some (.xor a b c)
  | 5 => some (.andn a b c)
  | 6 => some (.orn a b c)
  | 8 => some (.sll a b c)
  | 9 => some (.srl a b c)
  | 10 => some (.sra a b c)
  | 11 => some (.rol a b c)
  | 12 => some (.ror a b c)
  | 16 => some (.slt a b c)
  | 17 => some (.sltu a b c)
  | 18 => some (.min a b c)
  | 19 => some (.max a b c)
  | 20 => some (.minu a b c)
  | 21 => some (.maxu a b c)
  | 24 => if c == 0#5 then some (.clz a b) else none
  | 25 => if c == 0#5 then some (.ctz a b) else none
  | 26 => if c == 0#5 then some (.popc a b) else none
  | 27 => if c == 0#5 then some (.sextB a b) else none
  | 28 => if c == 0#5 then some (.sextH a b) else none
  | 29 => if c == 0#5 then some (.sextW a b) else none
  | 30 => if c == 0#5 then some (.zextW a b) else none
  | 32 => some (.mul a b c)
  | 33 => some (.mulhSs a b c)
  | 34 => some (.mulhUu a b c)
  | 35 => some (.mulhUs a b c)
  | 36 => some (.divs a b c)
  | 37 => some (.divu a b c)
  | 38 => some (.rems a b c)
  | 39 => some (.remu a b c)
  | _ => none

/-- Major 0x0A: the function field chooses the row (R35 to R48); every other value is no instruction (R34). -/
noncomputable def decode0A (a b c : BitVec 5) (f : BitVec 11) : Option Instr :=
  match f.toNat with
  | 0 => if a.extractLsb' 3 2 == 0#2 then some (.cmpeq (a.extractLsb' 0 3) b c) else none
  | 1 => if a.extractLsb' 3 2 == 0#2 then some (.cmpne (a.extractLsb' 0 3) b c) else none
  | 2 => if a.extractLsb' 3 2 == 0#2 then some (.cmplt (a.extractLsb' 0 3) b c) else none
  | 3 => if a.extractLsb' 3 2 == 0#2 then some (.cmpge (a.extractLsb' 0 3) b c) else none
  | 4 => if a.extractLsb' 3 2 == 0#2 then some (.cmpltu (a.extractLsb' 0 3) b c) else none
  | 5 => if a.extractLsb' 3 2 == 0#2 then some (.cmpgeu (a.extractLsb' 0 3) b c) else none
  | _ => none

/-- Major 0x0C: the function field chooses the row (R35 to R48); every other value is no instruction (R34). -/
noncomputable def decode0C (a b c : BitVec 5) (f : BitVec 11) : Option Instr :=
  match f.toNat with
  | 0 => if a.extractLsb' 3 2 == 0#2 && b.extractLsb' 3 2 == 0#2 && c.extractLsb' 3 2 == 0#2 then some (.pand (a.extractLsb' 0 3) (b.extractLsb' 0 3) (c.extractLsb' 0 3)) else none
  | 1 => if a.extractLsb' 3 2 == 0#2 && b.extractLsb' 3 2 == 0#2 && c.extractLsb' 3 2 == 0#2 then some (.por (a.extractLsb' 0 3) (b.extractLsb' 0 3) (c.extractLsb' 0 3)) else none
  | 2 => if a.extractLsb' 3 2 == 0#2 && b.extractLsb' 3 2 == 0#2 && c.extractLsb' 3 2 == 0#2 then some (.pxor (a.extractLsb' 0 3) (b.extractLsb' 0 3) (c.extractLsb' 0 3)) else none
  | 3 => if a.extractLsb' 3 2 == 0#2 && b.extractLsb' 3 2 == 0#2 && c.extractLsb' 3 2 == 0#2 then some (.pandn (a.extractLsb' 0 3) (b.extractLsb' 0 3) (c.extractLsb' 0 3)) else none
  | 4 => if a.extractLsb' 3 2 == 0#2 && b.extractLsb' 3 2 == 0#2 && c.extractLsb' 3 2 == 0#2 then some (.porn (a.extractLsb' 0 3) (b.extractLsb' 0 3) (c.extractLsb' 0 3)) else none
  | 5 => if a.extractLsb' 3 2 == 0#2 && b.extractLsb' 3 2 == 0#2 && c == 0#5 then some (.pnot (a.extractLsb' 0 3) (b.extractLsb' 0 3)) else none
  | 6 => if a.extractLsb' 3 2 == 0#2 && c == 0#5 then some (.pfromx (a.extractLsb' 0 3) b) else none
  | 7 => if b.extractLsb' 3 2 == 0#2 && c == 0#5 then some (.ptox a (b.extractLsb' 0 3)) else none
  | _ => none

/-- Major 0x1C: the function field chooses the row (R35 to R48); every other value is no instruction (R34). -/
noncomputable def decode1C (a b c : BitVec 5) (f : BitVec 11) : Option Instr :=
  match (f.extractLsb' 0 4).toNat with
  | 0 => if f.extractLsb' 4 3 == 0#3 then some (.acas a b c (f.extractLsb' 10 1) (f.extractLsb' 9 1) (f.extractLsb' 7 2)) else none
  | 1 => if f.extractLsb' 4 3 == 0#3 then some (.aswap a b c (f.extractLsb' 10 1) (f.extractLsb' 9 1) (f.extractLsb' 7 2)) else none
  | 2 => if f.extractLsb' 4 3 == 0#3 then some (.aadd a b c (f.extractLsb' 10 1) (f.extractLsb' 9 1) (f.extractLsb' 7 2)) else none
  | 3 => if f.extractLsb' 4 3 == 0#3 then some (.aand a b c (f.extractLsb' 10 1) (f.extractLsb' 9 1) (f.extractLsb' 7 2)) else none
  | 4 => if f.extractLsb' 4 3 == 0#3 then some (.aor a b c (f.extractLsb' 10 1) (f.extractLsb' 9 1) (f.extractLsb' 7 2)) else none
  | 5 => if f.extractLsb' 4 3 == 0#3 then some (.axor a b c (f.extractLsb' 10 1) (f.extractLsb' 9 1) (f.extractLsb' 7 2)) else none
  | 6 => if f.extractLsb' 4 3 == 0#3 then some (.amin a b c (f.extractLsb' 10 1) (f.extractLsb' 9 1) (f.extractLsb' 7 2)) else none
  | 7 => if f.extractLsb' 4 3 == 0#3 then some (.amax a b c (f.extractLsb' 10 1) (f.extractLsb' 9 1) (f.extractLsb' 7 2)) else none
  | 8 => if f.extractLsb' 4 3 == 0#3 then some (.aminu a b c (f.extractLsb' 10 1) (f.extractLsb' 9 1) (f.extractLsb' 7 2)) else none
  | 9 => if f.extractLsb' 4 3 == 0#3 then some (.amaxu a b c (f.extractLsb' 10 1) (f.extractLsb' 9 1) (f.extractLsb' 7 2)) else none
  | _ => none

/-- Major 0x1D: the function field chooses the row (R35 to R48); every other value is no instruction (R34). -/
noncomputable def decode1D (a b c : BitVec 5) (f : BitVec 11) : Option Instr :=
  match (f.extractLsb' 8 3).toNat with
  | 0 => if a == 0#5 && b == 0#5 && c == 0#5 && f.extractLsb' 2 6 == 0#6 then some (.fence (f.extractLsb' 0 2)) else none
  | 1 => if a == 0#5 && b == 0#5 && c == 0#5 && f.extractLsb' 7 1 == 0#1 then some (.fenceQ (f.extractLsb' 2 5) (f.extractLsb' 0 2)) else none
  | _ => none

/-- Major 0x1E: the function field chooses the row (R35 to R48); every other value is no instruction (R34). -/
noncomputable def decode1E (a b c : BitVec 5) (f : BitVec 11) : Option Instr :=
  match (f.extractLsb' 0 7).toNat with
  | 0 => if f.extractLsb' 10 1 == 0#1 then some (.fadd a b c (f.extractLsb' 8 2) (f.extractLsb' 7 1)) else none
  | 1 => if f.extractLsb' 10 1 == 0#1 then some (.fsub a b c (f.extractLsb' 8 2) (f.extractLsb' 7 1)) else none
  | 2 => if f.extractLsb' 10 1 == 0#1 then some (.fmul a b c (f.extractLsb' 8 2) (f.extractLsb' 7 1)) else none
  | 3 => if f.extractLsb' 10 1 == 0#1 then some (.fdiv a b c (f.extractLsb' 8 2) (f.extractLsb' 7 1)) else none
  | 4 => if c == 0#5 && f.extractLsb' 10 1 == 0#1 then some (.fsqrt a b (f.extractLsb' 8 2) (f.extractLsb' 7 1)) else none
  | 5 => if f.extractLsb' 8 3 == 0#3 then some (.fmin a b c (f.extractLsb' 7 1)) else none
  | 6 => if f.extractLsb' 8 3 == 0#3 then some (.fmax a b c (f.extractLsb' 7 1)) else none
  | 7 => if f.extractLsb' 10 1 == 0#1 then some (.fmac a b c (f.extractLsb' 8 2) (f.extractLsb' 7 1)) else none
  | 8 => if c == 0#5 && f.extractLsb' 8 3 == 0#3 then some (.fneg a b (f.extractLsb' 7 1)) else none
  | 9 => if c == 0#5 && f.extractLsb' 8 3 == 0#3 then some (.fabs a b (f.extractLsb' 7 1)) else none
  | 10 => if c == 0#5 && f.extractLsb' 8 3 == 0#3 then some (.fkind a b (f.extractLsb' 7 1)) else none
  | 16 => if a.extractLsb' 3 2 == 0#2 && f.extractLsb' 8 3 == 0#3 then some (.fcmpeq (a.extractLsb' 0 3) b c (f.extractLsb' 7 1)) else none
  | 17 => if a.extractLsb' 3 2 == 0#2 && f.extractLsb' 8 3 == 0#3 then some (.fcmplt (a.extractLsb' 0 3) b c (f.extractLsb' 7 1)) else none
  | 18 => if a.extractLsb' 3 2 == 0#2 && f.extractLsb' 8 3 == 0#3 then some (.fcmple (a.extractLsb' 0 3) b c (f.extractLsb' 7 1)) else none
  | 32 => if c == 0#5 && f.extractLsb' 10 1 == 0#1 then some (.ftoi a b (f.extractLsb' 8 2) (f.extractLsb' 7 1)) else none
  | 33 => if c == 0#5 && f.extractLsb' 10 1 == 0#1 then some (.ftou a b (f.extractLsb' 8 2) (f.extractLsb' 7 1)) else none
  | 34 => if c == 0#5 && f.extractLsb' 10 1 == 0#1 then some (.itof a b (f.extractLsb' 8 2) (f.extractLsb' 7 1)) else none
  | 35 => if c == 0#5 && f.extractLsb' 10 1 == 0#1 then some (.utof a b (f.extractLsb' 8 2) (f.extractLsb' 7 1)) else none
  | 36 => if c == 0#5 && f.extractLsb' 10 1 == 0#1 then some (.ftof a b (f.extractLsb' 8 2) (f.extractLsb' 7 1)) else none
  | _ => none

/-- Major 0x1F: the function field chooses the row (R35 to R48); every other value is no instruction (R34). -/
noncomputable def decode1F (a b c : BitVec 5) (f : BitVec 11) : Option Instr :=
  match c.toNat with
  | 0 => if a == 0#5 && b == 0#5 && f == 0#11 then some .ecall else none
  | 1 => if a == 0#5 && b == 0#5 && f == 0#11 then some .ebreak else none
  | 2 => if a == 0#5 && b == 0#5 && f == 0#11 then some .tret else none
  | 3 => if a == 0#5 && b == 0#5 && f == 0#11 then some .uiret else none
  | 4 => if b == 0#5 then some (.crd a f) else none
  | 5 => if a == 0#5 then some (.cwr b f) else none
  | 6 => some (.cset a b f)
  | 7 => some (.cclr a b f)
  | 8 => if a == 0#5 && b == 0#5 && f == 0#11 then some .sleep else none
  | 9 => if a == 0#5 && f == 0#11 then some (.dcclean b) else none
  | 10 => if a == 0#5 && f == 0#11 then some (.dcflush b) else none
  | 11 => if a == 0#5 && f == 0#11 then some (.dcinv b) else none
  | 12 => if a == 0#5 && f == 0#11 then some (.icinv b) else none
  | _ => none

/-- Major 0x20: the function field chooses the row (R35 to R48); every other value is no instruction (R34). -/
noncomputable def decode20 (a b c : BitVec 5) (f : BitVec 11) : Option Instr :=
  match f.toNat with
  | 0 => some (.cstart a b c)
  | 1 => if c == 0#5 then some (.cstop a b) else none
  | 2 => if c == 0#5 then some (.creap a b) else none
  | 3 => if a == 0#5 && c == 0#5 then some (.cself b) else none
  | 4 => if c == 0#5 then some (.forkl a b) else none
  | 5 => if b == 0#5 && c == 0#5 then some (.joinl a) else none
  | 6 => if a.extractLsb' 3 2 == 0#2 && c == 0#5 then some (.movh (a.extractLsb' 0 3) b) else none
  | 7 => if b.extractLsb' 3 2 == 0#2 && c == 0#5 then some (.movfh a (b.extractLsb' 0 3)) else none
  | _ => none

/-- Major 0x21: the function field chooses the row (R35 to R48); every other value is no instruction (R34). -/
noncomputable def decode21 (a b c : BitVec 5) (f : BitVec 11) : Option Instr :=
  match f.toNat with
  | 0 => some (.binit a b c)
  | 1 => some (.barr a b c)
  | 2 => some (.bexp a b c)
  | 3 => some (.bwait a b c)
  | 4 => some (.btest a b c)
  | 5 => some (.phasend a b c)
  | _ => none

/-- Major 0x22: the function field chooses the row (R35 to R48); every other value is no instruction (R34). -/
noncomputable def decode22 (a b c : BitVec 5) (f : BitVec 11) : Option Instr :=
  match f.toNat with
  | 0 => if c == 0#5 then some (.chbind a b) else none
  | 1 => if c == 0#5 then some (.chunbind a b) else none
  | 2 => some (.chsend a b c)
  | 3 => some (.chrecv a c b)
  | 4 => some (.chsendv a b c)
  | 5 => some (.chrecvv a c b)
  | 6 => if c == 0#5 then some (.chclose a b) else none
  | 7 => some (.select a c b)
  | 8 => some (.chsendb a b c)
  | 9 => some (.chrecvb a b c)
  | _ => none

/-- Major 0x28: the function field chooses the row (R35 to R48); every other value is no instruction (R34). -/
noncomputable def decode28 (a b c : BitVec 5) (f : BitVec 11) : Option Instr :=
  match f.toNat with
  | 0 => if c == 0#5 then some (.vsetvl a b) else none
  | 1 => if c == 0#5 then some (.vsett a b) else none
  | 2 => if c == 0#5 then some (.vmode a b) else none
  | 3 => if a == 0#5 then some (.ctwr b c) else none
  | 4 => if a == 0#5 && c == 0#5 then some (.ctsel b) else none
  | _ => none

/-- Major 0x29: the function field chooses the row (R35 to R48); every other value is no instruction (R34). -/
noncomputable def decode29 (a b c : BitVec 5) (f : BitVec 11) : Option Instr :=
  match (f.extractLsb' 0 7).toNat with
  | 0 => (maskOf (f.extractLsb' 8 3)).map fun mk => .vadd a b c (f.extractLsb' 7 1) mk
  | 1 => (maskOf (f.extractLsb' 8 3)).map fun mk => .vsub a b c (f.extractLsb' 7 1) mk
  | 2 => (maskOf (f.extractLsb' 8 3)).map fun mk => .vrsub a b c (f.extractLsb' 7 1) mk
  | 3 => (maskOf (f.extractLsb' 8 3)).map fun mk => .vand a b c (f.extractLsb' 7 1) mk
  | 4 => (maskOf (f.extractLsb' 8 3)).map fun mk => .vor a b c (f.extractLsb' 7 1) mk
  | 5 => (maskOf (f.extractLsb' 8 3)).map fun mk => .vxor a b c (f.extractLsb' 7 1) mk
  | 6 => (maskOf (f.extractLsb' 8 3)).map fun mk => .vsll a b c (f.extractLsb' 7 1) mk
  | 7 => (maskOf (f.extractLsb' 8 3)).map fun mk => .vsrl a b c (f.extractLsb' 7 1) mk
  | 8 => (maskOf (f.extractLsb' 8 3)).map fun mk => .vsra a b c (f.extractLsb' 7 1) mk
  | 9 => (maskOf (f.extractLsb' 8 3)).map fun mk => .vmin a b c (f.extractLsb' 7 1) mk
  | 10 => (maskOf (f.extractLsb' 8 3)).map fun mk => .vmax a b c (f.extractLsb' 7 1) mk
  | 11 => (maskOf (f.extractLsb' 8 3)).map fun mk => .vminu a b c (f.extractLsb' 7 1) mk
  | 12 => (maskOf (f.extractLsb' 8 3)).map fun mk => .vmaxu a b c (f.extractLsb' 7 1) mk
  | 13 => (maskOf (f.extractLsb' 8 3)).map fun mk => .vmul a b c (f.extractLsb' 7 1) mk
  | 14 => (maskOf (f.extractLsb' 8 3)).map fun mk => .vmulh a b c (f.extractLsb' 7 1) mk
  | 15 => (maskOf (f.extractLsb' 8 3)).map fun mk => .vmulhu a b c (f.extractLsb' 7 1) mk
  | 16 => (maskOf (f.extractLsb' 8 3)).map fun mk => .vsadd a b c (f.extractLsb' 7 1) mk
  | 17 => (maskOf (f.extractLsb' 8 3)).map fun mk => .vsaddu a b c (f.extractLsb' 7 1) mk
  | 18 => (maskOf (f.extractLsb' 8 3)).map fun mk => .vssub a b c (f.extractLsb' 7 1) mk
  | 19 => (maskOf (f.extractLsb' 8 3)).map fun mk => .vssubu a b c (f.extractLsb' 7 1) mk
  | 20 => (maskOf (f.extractLsb' 8 3)).map fun mk => .vmacc a b c (f.extractLsb' 7 1) mk
  | 21 => if c == 0#5 && f.extractLsb' 7 1 == 0#1 then (maskOf (f.extractLsb' 8 3)).map fun mk => .vabs a b mk else none
  | 22 => if c == 0#5 && f.extractLsb' 7 1 == 0#1 then (maskOf (f.extractLsb' 8 3)).map fun mk => .vneg a b mk else none
  | 24 => if a.extractLsb' 2 3 == 6#3 then (maskOf (f.extractLsb' 8 3)).map fun mk => .vcmpeq (a.extractLsb' 0 2) b c (f.extractLsb' 7 1) mk else none
  | 25 => if a.extractLsb' 2 3 == 6#3 then (maskOf (f.extractLsb' 8 3)).map fun mk => .vcmpne (a.extractLsb' 0 2) b c (f.extractLsb' 7 1) mk else none
  | 26 => if a.extractLsb' 2 3 == 6#3 then (maskOf (f.extractLsb' 8 3)).map fun mk => .vcmplt (a.extractLsb' 0 2) b c (f.extractLsb' 7 1) mk else none
  | 27 => if a.extractLsb' 2 3 == 6#3 then (maskOf (f.extractLsb' 8 3)).map fun mk => .vcmple (a.extractLsb' 0 2) b c (f.extractLsb' 7 1) mk else none
  | 28 => if a.extractLsb' 2 3 == 6#3 then (maskOf (f.extractLsb' 8 3)).map fun mk => .vcmpltu (a.extractLsb' 0 2) b c (f.extractLsb' 7 1) mk else none
  | 29 => if a.extractLsb' 2 3 == 6#3 then (maskOf (f.extractLsb' 8 3)).map fun mk => .vcmpleu (a.extractLsb' 0 2) b c (f.extractLsb' 7 1) mk else none
  | _ => none

/-- Major 0x2A: the function field chooses the row (R35 to R48); every other value is no instruction (R34). -/
noncomputable def decode2A (a b c : BitVec 5) (f : BitVec 11) : Option Instr :=
  match (f.extractLsb' 0 7).toNat with
  | 0 => (maskOf (f.extractLsb' 8 3)).map fun mk => .vfadd a b c (f.extractLsb' 7 1) mk
  | 1 => (maskOf (f.extractLsb' 8 3)).map fun mk => .vfsub a b c (f.extractLsb' 7 1) mk
  | 2 => (maskOf (f.extractLsb' 8 3)).map fun mk => .vfmul a b c (f.extractLsb' 7 1) mk
  | 3 => (maskOf (f.extractLsb' 8 3)).map fun mk => .vfdiv a b c (f.extractLsb' 7 1) mk
  | 4 => if c == 0#5 && f.extractLsb' 7 1 == 0#1 then (maskOf (f.extractLsb' 8 3)).map fun mk => .vfsqrt a b mk else none
  | 5 => (maskOf (f.extractLsb' 8 3)).map fun mk => .vfmin a b c (f.extractLsb' 7 1) mk
  | 6 => (maskOf (f.extractLsb' 8 3)).map fun mk => .vfmax a b c (f.extractLsb' 7 1) mk
  | 7 => (maskOf (f.extractLsb' 8 3)).map fun mk => .vfmacc a b c (f.extractLsb' 7 1) mk
  | 9 => if c == 0#5 && f.extractLsb' 7 1 == 0#1 then (maskOf (f.extractLsb' 8 3)).map fun mk => .vfabs a b mk else none
  | 10 => if c == 0#5 && f.extractLsb' 7 1 == 0#1 then (maskOf (f.extractLsb' 8 3)).map fun mk => .vfneg a b mk else none
  | 16 => if a.extractLsb' 2 3 == 6#3 then (maskOf (f.extractLsb' 8 3)).map fun mk => .vfcmpeq (a.extractLsb' 0 2) b c (f.extractLsb' 7 1) mk else none
  | 17 => if a.extractLsb' 2 3 == 6#3 then (maskOf (f.extractLsb' 8 3)).map fun mk => .vfcmplt (a.extractLsb' 0 2) b c (f.extractLsb' 7 1) mk else none
  | 18 => if a.extractLsb' 2 3 == 6#3 then (maskOf (f.extractLsb' 8 3)).map fun mk => .vfcmple (a.extractLsb' 0 2) b c (f.extractLsb' 7 1) mk else none
  | 32 => if f.extractLsb' 7 1 == 0#1 then (maskOf (f.extractLsb' 8 3)).map fun mk => .vfcvt a b c mk else none
  | 33 => if f.extractLsb' 7 1 == 0#1 then (maskOf (f.extractLsb' 8 3)).map fun mk => .vquant a b c mk else none
  | 34 => if f.extractLsb' 7 1 == 0#1 then (maskOf (f.extractLsb' 8 3)).map fun mk => .vdequant a b c mk else none
  | _ => none

/-- Major 0x2B: the function field chooses the row (R35 to R48); every other value is no instruction (R34). -/
noncomputable def decode2B (a b c : BitVec 5) (f : BitVec 11) : Option Instr :=
  match (f.extractLsb' 0 7).toNat with
  | 0 => if a.extractLsb' 2 3 == 6#3 && b.extractLsb' 2 3 == 6#3 && c.extractLsb' 2 3 == 6#3 then (maskOf (f.extractLsb' 8 3)).map fun mk => .mand (a.extractLsb' 0 2) (b.extractLsb' 0 2) (c.extractLsb' 0 2) (f.extractLsb' 7 1) mk else none
  | 1 => if a.extractLsb' 2 3 == 6#3 && b.extractLsb' 2 3 == 6#3 && c.extractLsb' 2 3 == 6#3 then (maskOf (f.extractLsb' 8 3)).map fun mk => .mor (a.extractLsb' 0 2) (b.extractLsb' 0 2) (c.extractLsb' 0 2) (f.extractLsb' 7 1) mk else none
  | 2 => if a.extractLsb' 2 3 == 6#3 && b.extractLsb' 2 3 == 6#3 && c.extractLsb' 2 3 == 6#3 then (maskOf (f.extractLsb' 8 3)).map fun mk => .mxor (a.extractLsb' 0 2) (b.extractLsb' 0 2) (c.extractLsb' 0 2) (f.extractLsb' 7 1) mk else none
  | 3 => if a.extractLsb' 2 3 == 6#3 && b.extractLsb' 2 3 == 6#3 && c.extractLsb' 2 3 == 6#3 then (maskOf (f.extractLsb' 8 3)).map fun mk => .mandn (a.extractLsb' 0 2) (b.extractLsb' 0 2) (c.extractLsb' 0 2) (f.extractLsb' 7 1) mk else none
  | 4 => if a.extractLsb' 2 3 == 6#3 && b.extractLsb' 2 3 == 6#3 && c == 0#5 then (maskOf (f.extractLsb' 8 3)).map fun mk => .mnot (a.extractLsb' 0 2) (b.extractLsb' 0 2) (f.extractLsb' 7 1) mk else none
  | 5 => if a.extractLsb' 2 3 == 6#3 && b == 0#5 && c == 0#5 then (maskOf (f.extractLsb' 8 3)).map fun mk => .mset (a.extractLsb' 0 2) (f.extractLsb' 7 1) mk else none
  | 6 => if a.extractLsb' 2 3 == 6#3 && b == 0#5 && c == 0#5 then (maskOf (f.extractLsb' 8 3)).map fun mk => .mclr (a.extractLsb' 0 2) (f.extractLsb' 7 1) mk else none
  | 8 => if b.extractLsb' 2 3 == 6#3 && c == 0#5 && f.extractLsb' 7 1 == 1#1 then (maskOf (f.extractLsb' 8 3)).map fun mk => .mpopc a (b.extractLsb' 0 2) mk else none
  | 9 => if b.extractLsb' 2 3 == 6#3 && c == 0#5 && f.extractLsb' 7 1 == 1#1 then (maskOf (f.extractLsb' 8 3)).map fun mk => .mfirst a (b.extractLsb' 0 2) mk else none
  | _ => none

/-- Major 0x2C: the function field chooses the row (R35 to R48); every other value is no instruction (R34). VCOMPRESS and VEXPAND have c = 0 and X = 0, which spec/opcode_table.json fixes for them and R46 leaves unsaid (log entry 26). -/
noncomputable def decode2C (a b c : BitVec 5) (f : BitVec 11) : Option Instr :=
  match (f.extractLsb' 0 7).toNat with
  | 0 => if f.extractLsb' 7 1 == 0#1 then (maskOf (f.extractLsb' 8 3)).map fun mk => .vshuf a b c mk else none
  | 1 => if f.extractLsb' 7 1 == 1#1 then (maskOf (f.extractLsb' 8 3)).map fun mk => .vslideup a b c mk else none
  | 2 => if f.extractLsb' 7 1 == 1#1 then (maskOf (f.extractLsb' 8 3)).map fun mk => .vslidedn a b c mk else none
  | 3 => if c == 0#5 && f.extractLsb' 10 1 == 1#1 && f.extractLsb' 7 1 == 0#1 then some (.vcompress a b (f.extractLsb' 8 2)) else none
  | 4 => if c == 0#5 && f.extractLsb' 10 1 == 1#1 && f.extractLsb' 7 1 == 0#1 then some (.vexpand a b (f.extractLsb' 8 2)) else none
  | 5 => (maskOf (f.extractLsb' 8 3)).map fun mk => .vdense a b c (f.extractLsb' 7 1) mk
  | 16 => if c == 0#5 then (maskOf (f.extractLsb' 8 3)).map fun mk => .vredSum a b (f.extractLsb' 7 1) mk else none
  | 17 => if c == 0#5 then (maskOf (f.extractLsb' 8 3)).map fun mk => .vredMin a b (f.extractLsb' 7 1) mk else none
  | 18 => if c == 0#5 then (maskOf (f.extractLsb' 8 3)).map fun mk => .vredMax a b (f.extractLsb' 7 1) mk else none
  | 19 => if c == 0#5 then (maskOf (f.extractLsb' 8 3)).map fun mk => .vredMinu a b (f.extractLsb' 7 1) mk else none
  | 20 => if c == 0#5 then (maskOf (f.extractLsb' 8 3)).map fun mk => .vredMaxu a b (f.extractLsb' 7 1) mk else none
  | 21 => if c == 0#5 then (maskOf (f.extractLsb' 8 3)).map fun mk => .vredAnd a b (f.extractLsb' 7 1) mk else none
  | 22 => if c == 0#5 then (maskOf (f.extractLsb' 8 3)).map fun mk => .vredOr a b (f.extractLsb' 7 1) mk else none
  | 23 => if c == 0#5 then (maskOf (f.extractLsb' 8 3)).map fun mk => .vredXor a b (f.extractLsb' 7 1) mk else none
  | 24 => if c == 0#5 then (maskOf (f.extractLsb' 8 3)).map fun mk => .vredFsum a b (f.extractLsb' 7 1) mk else none
  | 25 => if c == 0#5 then (maskOf (f.extractLsb' 8 3)).map fun mk => .vredFmin a b (f.extractLsb' 7 1) mk else none
  | 26 => if c == 0#5 then (maskOf (f.extractLsb' 8 3)).map fun mk => .vredFmax a b (f.extractLsb' 7 1) mk else none
  | 32 => if c == 0#5 && f.extractLsb' 7 1 == 0#1 then (maskOf (f.extractLsb' 8 3)).map fun mk => .vscanSum a b mk else none
  | 33 => if c == 0#5 && f.extractLsb' 7 1 == 0#1 then (maskOf (f.extractLsb' 8 3)).map fun mk => .vscanMin a b mk else none
  | 34 => if c == 0#5 && f.extractLsb' 7 1 == 0#1 then (maskOf (f.extractLsb' 8 3)).map fun mk => .vscanMax a b mk else none
  | 35 => if c == 0#5 && f.extractLsb' 7 1 == 0#1 then (maskOf (f.extractLsb' 8 3)).map fun mk => .vscanMinu a b mk else none
  | 36 => if c == 0#5 && f.extractLsb' 7 1 == 0#1 then (maskOf (f.extractLsb' 8 3)).map fun mk => .vscanMaxu a b mk else none
  | 37 => if c == 0#5 && f.extractLsb' 7 1 == 0#1 then (maskOf (f.extractLsb' 8 3)).map fun mk => .vscanAnd a b mk else none
  | 38 => if c == 0#5 && f.extractLsb' 7 1 == 0#1 then (maskOf (f.extractLsb' 8 3)).map fun mk => .vscanOr a b mk else none
  | 39 => if c == 0#5 && f.extractLsb' 7 1 == 0#1 then (maskOf (f.extractLsb' 8 3)).map fun mk => .vscanXor a b mk else none
  | 40 => if c == 0#5 && f.extractLsb' 7 1 == 0#1 then (maskOf (f.extractLsb' 8 3)).map fun mk => .vscanFsum a b mk else none
  | _ => none

/-- Major 0x2D: the function field chooses the row (R35 to R48); every other value is no instruction (R34). -/
noncomputable def decode2D (a b c : BitVec 5) (f : BitVec 11) : Option Instr :=
  match (f.extractLsb' 4 4).toNat with
  | 0 => if c == 0#5 && f.extractLsb' 2 2 == 0#2 && f.extractLsb' 0 2 == 0#2 then (maskOf (f.extractLsb' 8 3)).map fun mk => .vld a b mk else none
  | 1 => if f.extractLsb' 2 2 == 0#2 && f.extractLsb' 0 2 == 0#2 then (maskOf (f.extractLsb' 8 3)).map fun mk => .vlds a b c mk else none
  | 2 => if f.extractLsb' 2 2 == 0#2 then (maskOf (f.extractLsb' 8 3)).map fun mk => .vldx a b c (f.extractLsb' 0 2) mk else none
  | 3 => if c == 0#5 && f.extractLsb' 2 2 == 0#2 && f.extractLsb' 0 2 == 0#2 then (maskOf (f.extractLsb' 8 3)).map fun mk => .vst a b mk else none
  | 4 => if f.extractLsb' 2 2 == 0#2 && f.extractLsb' 0 2 == 0#2 then (maskOf (f.extractLsb' 8 3)).map fun mk => .vsts a b c mk else none
  | 5 => if f.extractLsb' 2 2 == 0#2 then (maskOf (f.extractLsb' 8 3)).map fun mk => .vstx a b c (f.extractLsb' 0 2) mk else none
  | 6 => if f.extractLsb' 2 2 == 0#2 then (maskOf (f.extractLsb' 8 3)).map fun mk => .vldl a b c (f.extractLsb' 0 2) mk else none
  | 7 => if f.extractLsb' 10 1 == 1#1 && f.extractLsb' 2 2 == 0#2 then some (.vstc a b c (f.extractLsb' 0 2) (f.extractLsb' 8 2)) else none
  | 8 => if f.extractLsb' 2 2 == 0#2 && f.extractLsb' 0 2 == 0#2 then (maskOf (f.extractLsb' 8 3)).map fun mk => .vamoAdd a b c mk else if f.extractLsb' 2 2 == 0#2 && f.extractLsb' 0 2 == 1#2 then (maskOf (f.extractLsb' 8 3)).map fun mk => .vamoMin a b c mk else if f.extractLsb' 2 2 == 0#2 && f.extractLsb' 0 2 == 2#2 then (maskOf (f.extractLsb' 8 3)).map fun mk => .vamoMax a b c mk else if f.extractLsb' 2 2 == 0#2 && f.extractLsb' 0 2 == 3#2 then (maskOf (f.extractLsb' 8 3)).map fun mk => .vamoFadd a b c mk else none
  | _ => none

/-- Major 0x2E: the function field chooses the row (R35 to R48); every other value is no instruction (R34). -/
noncomputable def decode2E (a b c : BitVec 5) (f : BitVec 11) : Option Instr :=
  match (f.extractLsb' 0 7).toNat with
  | 0 => if c == 0#5 && f.extractLsb' 7 1 == 0#1 then (maskOf (f.extractLsb' 8 3)).map fun mk => .vmv a b mk else none
  | 1 => if f.extractLsb' 10 1 == 1#1 then some (.vmerge a b c (f.extractLsb' 7 1) (f.extractLsb' 8 2)) else none
  | 2 => if b == 0#5 && f.extractLsb' 7 1 == 1#1 then (maskOf (f.extractLsb' 8 3)).map fun mk => .vbcast a c mk else none
  | 3 => if c == 0#5 && f.extractLsb' 8 3 == 0#3 && f.extractLsb' 7 1 == 1#1 then some (.vmvxs a b) else none
  | 4 => if b == 0#5 && f.extractLsb' 8 3 == 0#3 && f.extractLsb' 7 1 == 1#1 then some (.vmvsx a c) else none
  | 5 => if b == 0#5 && c == 0#5 && f.extractLsb' 7 1 == 0#1 then (maskOf (f.extractLsb' 8 3)).map fun mk => .vid a mk else none
  | _ => none

/-- Major 0x30: the function field chooses the row (R35 to R48); every other value is no instruction (R34). -/
noncomputable def decode30 (a b c : BitVec 5) (f : BitVec 11) : Option Instr :=
  match (f.extractLsb' 4 5).toNat with
  | 0 => if c == 0#5 && f.extractLsb' 9 2 == 0#2 && f.extractLsb' 0 4 == 0#4 then some (.mattach a b) else none
  | 1 => if a == 0#5 && b == 0#5 && c == 0#5 && f.extractLsb' 9 2 == 0#2 && f.extractLsb' 0 4 == 0#4 then some .mdetach else none
  | 2 => if c == 0#5 && f.extractLsb' 9 2 == 0#2 && f.extractLsb' 0 4 == 0#4 then some (.mclaim a b) else none
  | 3 => if a.extractLsb' 4 1 == 0#1 && b == 0#5 && c == 0#5 && f.extractLsb' 9 2 == 0#2 && f.extractLsb' 0 4 == 0#4 then some (.mrelease (a.extractLsb' 0 4)) else none
  | 4 => if a.extractLsb' 4 1 == 0#1 && f.extractLsb' 9 2 == 0#2 && f.extractLsb' 3 1 == 0#1 then some (.mlda (a.extractLsb' 0 4) b c (f.extractLsb' 2 1) (f.extractLsb' 0 2)) else none
  | 5 => if a.extractLsb' 4 1 == 0#1 && f.extractLsb' 9 2 == 0#2 && f.extractLsb' 2 2 == 0#2 then some (.mldb (a.extractLsb' 0 4) b c (f.extractLsb' 0 2)) else none
  | 6 => if a == 0#5 && b == 0#5 && c == 0#5 && f.extractLsb' 0 4 == 0#4 then some (.mzero (f.extractLsb' 9 2)) else none
  | 7 => if a.extractLsb' 4 1 == 0#1 && b.extractLsb' 4 1 == 0#1 && f.extractLsb' 1 3 == 0#3 then some (.mop (f.extractLsb' 9 2) (a.extractLsb' 0 4) (b.extractLsb' 0 4) c (f.extractLsb' 0 1)) else none
  | 8 => if c == 0#5 then (maskOf4 (f.extractLsb' 0 4)).map fun mk => .mtmv a (f.extractLsb' 9 2) b mk else none
  | 9 => if c == 0#5 then (maskOf4 (f.extractLsb' 0 4)).map fun mk => .mvtm (f.extractLsb' 9 2) a b mk else none
  | 10 => if a == 0#5 && f.extractLsb' 0 4 == 0#4 then some (.mtld (f.extractLsb' 9 2) b c) else none
  | 11 => if a == 0#5 && f.extractLsb' 1 3 == 0#3 then some (.mtst (f.extractLsb' 9 2) b c (f.extractLsb' 0 1)) else none
  | 12 => if a.extractLsb' 4 1 == 0#1 && b.extractLsb' 4 1 == 0#1 && f.extractLsb' 9 2 == 0#2 && f.extractLsb' 0 4 == 0#4 then some (.mprune (a.extractLsb' 0 4) (b.extractLsb' 0 4) c) else none
  | 13 => if b.extractLsb' 4 1 == 0#1 && c == 0#5 && f.extractLsb' 9 2 == 0#2 && f.extractLsb' 1 3 == 0#3 then some (.mhdr a (b.extractLsb' 0 4) (f.extractLsb' 0 1)) else none
  | 14 => if c == 0#5 && f.extractLsb' 9 2 == 0#2 && f.extractLsb' 0 4 == 0#4 then some (.mwait a b) else none
  | _ => none

/-- Major 0x31: the function field chooses the row (R35 to R48); every other value is no instruction (R34). -/
noncomputable def decode31 (a b c : BitVec 5) (f : BitVec 11) : Option Instr :=
  match f.toNat with
  | 0 => if c == 0#5 then some (.pcopy a b) else none
  | 1 => if c == 0#5 then some (.pfill a b) else none
  | 2 => if c == 0#5 then some (.pwait a b) else none
  | 3 => if c == 0#5 then some (.ppoll a b) else none
  | 4 => if c == 0#5 then some (.pcancel a b) else none
  | _ => none

/-- Major 0x32: the function field chooses the row (R35 to R48); every other value is no instruction (R34). -/
noncomputable def decode32 (a b c : BitVec 5) (f : BitVec 11) : Option Instr :=
  match f.toNat with
  | 0 => some (.clload a b c)
  | 1 => some (.clquery a c b)
  | 2 => some (.clrun a b c)
  | 3 => if c == 0#5 then some (.clwait a b) else none
  | _ => none

/-- Major 0x08 (I or M form): bits [15:14] of the low half choose the row. -/
noncomputable def decode08 (a b : BitVec 5) (i : BitVec 16) : Option Instr :=
  match (i.extractLsb' 14 2).toNat with
  | 0 => if i.extractLsb' 6 8 == 0#8 then some (.slli a b (i.extractLsb' 0 6)) else none
  | 1 => if i.extractLsb' 6 8 == 0#8 then some (.srli a b (i.extractLsb' 0 6)) else none
  | 2 => if i.extractLsb' 6 8 == 0#8 then some (.srai a b (i.extractLsb' 0 6)) else none
  | 3 => if i.extractLsb' 6 8 == 0#8 then some (.rori a b (i.extractLsb' 0 6)) else none
  | _ => none

/-- Major 0x1A (I or M form): bits [15:13] of the low half choose the row. -/
noncomputable def decode1A (a b : BitVec 5) (i : BitVec 16) : Option Instr :=
  match (i.extractLsb' 13 3).toNat with
  | 0 => some (.lb a b (i.extractLsb' 12 1) (i.extractLsb' 0 12))
  | 1 => some (.lbu a b (i.extractLsb' 12 1) (i.extractLsb' 0 12))
  | 2 => some (.lh a b (i.extractLsb' 12 1) (i.extractLsb' 0 12))
  | 3 => some (.lhu a b (i.extractLsb' 12 1) (i.extractLsb' 0 12))
  | 4 => some (.lw a b (i.extractLsb' 12 1) (i.extractLsb' 0 12))
  | 5 => some (.lwu a b (i.extractLsb' 12 1) (i.extractLsb' 0 12))
  | 6 => some (.ld a b (i.extractLsb' 12 1) (i.extractLsb' 0 12))
  | _ => none

/-- Major 0x1B (I or M form): bits [15:13] of the low half choose the row. -/
noncomputable def decode1B (a b : BitVec 5) (i : BitVec 16) : Option Instr :=
  match (i.extractLsb' 13 3).toNat with
  | 0 => some (.sb a b (i.extractLsb' 12 1) (i.extractLsb' 0 12))
  | 2 => some (.sh a b (i.extractLsb' 12 1) (i.extractLsb' 0 12))
  | 4 => some (.sw a b (i.extractLsb' 12 1) (i.extractLsb' 0 12))
  | 6 => some (.sd a b (i.extractLsb' 12 1) (i.extractLsb' 0 12))
  | _ => none

/-- The major opcode chooses the format and the table (R33). -/
noncomputable def decodeRaw (w : Insn) : Option Instr :=
  let a := w.extractLsb' 21 5
  let b := w.extractLsb' 16 5
  let c := w.extractLsb' 11 5
  let f := w.extractLsb' 0 11
  let i := w.extractLsb' 0 16
  match (w.extractLsb' 26 6).toNat with
  | 1 => decode01 a b c f
  | 2 => some (.addi a b i)
  | 3 => some (.andi a b i)
  | 4 => some (.ori a b i)
  | 5 => some (.xori a b i)
  | 6 => some (.slti a b i)
  | 7 => some (.sltiu a b i)
  | 8 => decode08 a b i
  | 9 => if b.extractLsb' 2 3 == 0#3 then some (.lih a (b.extractLsb' 0 2) i) else none
  | 10 => decode0A a b c f
  | 12 => decode0C a b c f
  | 16 => some (.beq a b i)
  | 17 => some (.bne a b i)
  | 18 => some (.blt a b i)
  | 19 => some (.bge a b i)
  | 20 => some (.bltu a b i)
  | 21 => some (.bgeu a b i)
  | 22 => if a.extractLsb' 3 2 == 0#2 && b.extractLsb' 1 4 == 0#4 then some (.bp (a.extractLsb' 0 3) (b.extractLsb' 0 1) i) else none
  | 23 => some (.j (w.extractLsb' 0 26))
  | 24 => some (.jal (w.extractLsb' 0 26))
  | 25 => some (.jalr a b i)
  | 26 => decode1A a b i
  | 27 => decode1B a b i
  | 28 => decode1C a b c f
  | 29 => decode1D a b c f
  | 30 => decode1E a b c f
  | 31 => decode1F a b c f
  | 32 => decode20 a b c f
  | 33 => decode21 a b c f
  | 34 => decode22 a b c f
  | 40 => decode28 a b c f
  | 41 => decode29 a b c f
  | 42 => decode2A a b c f
  | 43 => decode2B a b c f
  | 44 => decode2C a b c f
  | 45 => decode2D a b c f
  | 46 => decode2E a b c f
  | 48 => decode30 a b c f
  | 49 => decode31 a b c f
  | 50 => decode32 a b c f
  | 63 => if c == 0#5 && f == 0#11 then some (.pfx (a.extractLsb' 2 3) (a.extractLsb' 1 1) (a.extractLsb' 0 1) b) else none
  | _ => none

/-- The instruction that a word is, or none where the word is no instruction (R34). -/
noncomputable def decode (w : Insn) : Option Instr := (decodeRaw w).filter Instr.wf

/-- The 32-bit word whose bytes lie in memory from the lowest address (R30: little-endian). -/
def wordOfBytes (b0 b1 b2 b3 : Byte) : Insn := b3 ++ b2 ++ b1 ++ b0

/-- Decode the four bytes of an instruction word, lowest address first; any other number of bytes is rejected. -/
noncomputable def decodeBytes : List Byte → Option Instr
  | [b0, b1, b2, b3] => decode (wordOfBytes b0 b1 b2 b3)
  | _ => none

/-- The instruction the decoder reads from a word given in the operation table's bit numbering; every word of this machine has 32 bits. -/
noncomputable def decodeTableWord (nbits w : Nat) : Option Instr :=
  if nbits ≤ 32 then decode (BitVec.ofNat 32 (w % 2 ^ nbits)) else none

/-- Mask bits [10:8] of a word (R45). -/
def maskBits : VMask → BitVec 3
  | none => 0#3
  | some m => 1#1 ++ m

/-- Mask bits mod [3:0] of MTMV and MVTM (R297). -/
def maskBits4 : VMask → BitVec 4
  | none => 0#4
  | some m => 1#1 ++ 0#1 ++ m

/-- The field layout shared by the O, A, V, VM, X and P formats (R30, R31). -/
def encO (maj : BitVec 6) (a b c : BitVec 5) (f : BitVec 11) : Insn := maj ++ a ++ b ++ c ++ f

/-- The I, B and M formats: a 16-bit low half (R31). -/
def encI (maj : BitVec 6) (a b : BitVec 5) (imm : BitVec 16) : Insn := maj ++ a ++ b ++ imm

/-- The J format (R31). -/
def encJ (maj : BitVec 6) (off : BitVec 26) : Insn := maj ++ off

/-- The word of an instruction; the steps that have no encoding answer none. -/
def encode : Instr → Option Insn
  | .add rd rs1 rs2 => some (encO 1#6 rd rs1 rs2 0#11)
  | .sub rd rs1 rs2 => some (encO 1#6 rd rs1 rs2 1#11)
  | .and rd rs1 rs2 => some (encO 1#6 rd rs1 rs2 2#11)
  | .or rd rs1 rs2 => some (encO 1#6 rd rs1 rs2 3#11)
  | .xor rd rs1 rs2 => some (encO 1#6 rd rs1 rs2 4#11)
  | .andn rd rs1 rs2 => some (encO 1#6 rd rs1 rs2 5#11)
  | .orn rd rs1 rs2 => some (encO 1#6 rd rs1 rs2 6#11)
  | .sll rd rs1 rs2 => some (encO 1#6 rd rs1 rs2 8#11)
  | .srl rd rs1 rs2 => some (encO 1#6 rd rs1 rs2 9#11)
  | .sra rd rs1 rs2 => some (encO 1#6 rd rs1 rs2 10#11)
  | .rol rd rs1 rs2 => some (encO 1#6 rd rs1 rs2 11#11)
  | .ror rd rs1 rs2 => some (encO 1#6 rd rs1 rs2 12#11)
  | .slt rd rs1 rs2 => some (encO 1#6 rd rs1 rs2 16#11)
  | .sltu rd rs1 rs2 => some (encO 1#6 rd rs1 rs2 17#11)
  | .min rd rs1 rs2 => some (encO 1#6 rd rs1 rs2 18#11)
  | .max rd rs1 rs2 => some (encO 1#6 rd rs1 rs2 19#11)
  | .minu rd rs1 rs2 => some (encO 1#6 rd rs1 rs2 20#11)
  | .maxu rd rs1 rs2 => some (encO 1#6 rd rs1 rs2 21#11)
  | .clz rd rs1 => some (encO 1#6 rd rs1 0#5 24#11)
  | .ctz rd rs1 => some (encO 1#6 rd rs1 0#5 25#11)
  | .popc rd rs1 => some (encO 1#6 rd rs1 0#5 26#11)
  | .sextB rd rs1 => some (encO 1#6 rd rs1 0#5 27#11)
  | .sextH rd rs1 => some (encO 1#6 rd rs1 0#5 28#11)
  | .sextW rd rs1 => some (encO 1#6 rd rs1 0#5 29#11)
  | .zextW rd rs1 => some (encO 1#6 rd rs1 0#5 30#11)
  | .mul rd rs1 rs2 => some (encO 1#6 rd rs1 rs2 32#11)
  | .mulhSs rd rs1 rs2 => some (encO 1#6 rd rs1 rs2 33#11)
  | .mulhUu rd rs1 rs2 => some (encO 1#6 rd rs1 rs2 34#11)
  | .mulhUs rd rs1 rs2 => some (encO 1#6 rd rs1 rs2 35#11)
  | .divs rd rs1 rs2 => some (encO 1#6 rd rs1 rs2 36#11)
  | .divu rd rs1 rs2 => some (encO 1#6 rd rs1 rs2 37#11)
  | .rems rd rs1 rs2 => some (encO 1#6 rd rs1 rs2 38#11)
  | .remu rd rs1 rs2 => some (encO 1#6 rd rs1 rs2 39#11)
  | .addi rd rs1 imm => some (encI 2#6 rd rs1 imm)
  | .andi rd rs1 imm => some (encI 3#6 rd rs1 imm)
  | .ori rd rs1 imm => some (encI 4#6 rd rs1 imm)
  | .xori rd rs1 imm => some (encI 5#6 rd rs1 imm)
  | .slti rd rs1 imm => some (encI 6#6 rd rs1 imm)
  | .sltiu rd rs1 imm => some (encI 7#6 rd rs1 imm)
  | .slli rd rs1 shamt => some (encI 8#6 rd rs1 (0#2 ++ 0#8 ++ shamt))
  | .srli rd rs1 shamt => some (encI 8#6 rd rs1 (1#2 ++ 0#8 ++ shamt))
  | .srai rd rs1 shamt => some (encI 8#6 rd rs1 (2#2 ++ 0#8 ++ shamt))
  | .rori rd rs1 shamt => some (encI 8#6 rd rs1 (3#2 ++ 0#8 ++ shamt))
  | .lih rd h imm => some (encI 9#6 rd (0#3 ++ h) imm)
  | .cmpeq pd rs1 rs2 => some (encO 10#6 (0#2 ++ pd) rs1 rs2 0#11)
  | .cmpne pd rs1 rs2 => some (encO 10#6 (0#2 ++ pd) rs1 rs2 1#11)
  | .cmplt pd rs1 rs2 => some (encO 10#6 (0#2 ++ pd) rs1 rs2 2#11)
  | .cmpge pd rs1 rs2 => some (encO 10#6 (0#2 ++ pd) rs1 rs2 3#11)
  | .cmpltu pd rs1 rs2 => some (encO 10#6 (0#2 ++ pd) rs1 rs2 4#11)
  | .cmpgeu pd rs1 rs2 => some (encO 10#6 (0#2 ++ pd) rs1 rs2 5#11)
  | .pand pd ps1 ps2 => some (encO 12#6 (0#2 ++ pd) (0#2 ++ ps1) (0#2 ++ ps2) 0#11)
  | .por pd ps1 ps2 => some (encO 12#6 (0#2 ++ pd) (0#2 ++ ps1) (0#2 ++ ps2) 1#11)
  | .pxor pd ps1 ps2 => some (encO 12#6 (0#2 ++ pd) (0#2 ++ ps1) (0#2 ++ ps2) 2#11)
  | .pandn pd ps1 ps2 => some (encO 12#6 (0#2 ++ pd) (0#2 ++ ps1) (0#2 ++ ps2) 3#11)
  | .porn pd ps1 ps2 => some (encO 12#6 (0#2 ++ pd) (0#2 ++ ps1) (0#2 ++ ps2) 4#11)
  | .pnot pd ps1 => some (encO 12#6 (0#2 ++ pd) (0#2 ++ ps1) 0#5 5#11)
  | .pfromx pd rs1 => some (encO 12#6 (0#2 ++ pd) rs1 0#5 6#11)
  | .ptox rd ps1 => some (encO 12#6 rd (0#2 ++ ps1) 0#5 7#11)
  | .beq rs1 rs2 off => some (encI 16#6 rs1 rs2 off)
  | .bne rs1 rs2 off => some (encI 17#6 rs1 rs2 off)
  | .blt rs1 rs2 off => some (encI 18#6 rs1 rs2 off)
  | .bge rs1 rs2 off => some (encI 19#6 rs1 rs2 off)
  | .bltu rs1 rs2 off => some (encI 20#6 rs1 rs2 off)
  | .bgeu rs1 rs2 off => some (encI 21#6 rs1 rs2 off)
  | .bp p sense off => some (encI 22#6 (0#2 ++ p) (0#4 ++ sense) off)
  | .j off => some (encJ 23#6 off)
  | .jal off => some (encJ 24#6 off)
  | .jalr rd rs1 imm => some (encI 25#6 rd rs1 imm)
  | .lb rd base aq off => some (encI 26#6 rd base (0#3 ++ aq ++ off))
  | .lbu rd base aq off => some (encI 26#6 rd base (1#3 ++ aq ++ off))
  | .lh rd base aq off => some (encI 26#6 rd base (2#3 ++ aq ++ off))
  | .lhu rd base aq off => some (encI 26#6 rd base (3#3 ++ aq ++ off))
  | .lw rd base aq off => some (encI 26#6 rd base (4#3 ++ aq ++ off))
  | .lwu rd base aq off => some (encI 26#6 rd base (5#3 ++ aq ++ off))
  | .ld rd base aq off => some (encI 26#6 rd base (6#3 ++ aq ++ off))
  | .sb rs base rl off => some (encI 27#6 rs base (0#3 ++ rl ++ off))
  | .sh rs base rl off => some (encI 27#6 rs base (2#3 ++ rl ++ off))
  | .sw rs base rl off => some (encI 27#6 rs base (4#3 ++ rl ++ off))
  | .sd rs base rl off => some (encI 27#6 rs base (6#3 ++ rl ++ off))
  | .acas rd rs1 rs2 aq rl size => some (encO 28#6 rd rs1 rs2 (aq ++ rl ++ size ++ 0#3 ++ 0#4))
  | .aswap rd rs1 rs2 aq rl size => some (encO 28#6 rd rs1 rs2 (aq ++ rl ++ size ++ 0#3 ++ 1#4))
  | .aadd rd rs1 rs2 aq rl size => some (encO 28#6 rd rs1 rs2 (aq ++ rl ++ size ++ 0#3 ++ 2#4))
  | .aand rd rs1 rs2 aq rl size => some (encO 28#6 rd rs1 rs2 (aq ++ rl ++ size ++ 0#3 ++ 3#4))
  | .aor rd rs1 rs2 aq rl size => some (encO 28#6 rd rs1 rs2 (aq ++ rl ++ size ++ 0#3 ++ 4#4))
  | .axor rd rs1 rs2 aq rl size => some (encO 28#6 rd rs1 rs2 (aq ++ rl ++ size ++ 0#3 ++ 5#4))
  | .amin rd rs1 rs2 aq rl size => some (encO 28#6 rd rs1 rs2 (aq ++ rl ++ size ++ 0#3 ++ 6#4))
  | .amax rd rs1 rs2 aq rl size => some (encO 28#6 rd rs1 rs2 (aq ++ rl ++ size ++ 0#3 ++ 7#4))
  | .aminu rd rs1 rs2 aq rl size => some (encO 28#6 rd rs1 rs2 (aq ++ rl ++ size ++ 0#3 ++ 8#4))
  | .amaxu rd rs1 rs2 aq rl size => some (encO 28#6 rd rs1 rs2 (aq ++ rl ++ size ++ 0#3 ++ 9#4))
  | .fence scope => some (encO 29#6 0#5 0#5 0#5 (0#9 ++ scope))
  | .fenceQ mask scope => some (encO 29#6 0#5 0#5 0#5 (2#4 ++ mask ++ scope))
  | .fadd rd rs1 rs2 rm fmt => some (encO 30#6 rd rs1 rs2 (0#1 ++ rm ++ fmt ++ 0#7))
  | .fsub rd rs1 rs2 rm fmt => some (encO 30#6 rd rs1 rs2 (0#1 ++ rm ++ fmt ++ 1#7))
  | .fmul rd rs1 rs2 rm fmt => some (encO 30#6 rd rs1 rs2 (0#1 ++ rm ++ fmt ++ 2#7))
  | .fdiv rd rs1 rs2 rm fmt => some (encO 30#6 rd rs1 rs2 (0#1 ++ rm ++ fmt ++ 3#7))
  | .fsqrt rd rs1 rm fmt => some (encO 30#6 rd rs1 0#5 (0#1 ++ rm ++ fmt ++ 4#7))
  | .fmin rd rs1 rs2 fmt => some (encO 30#6 rd rs1 rs2 (0#3 ++ fmt ++ 5#7))
  | .fmax rd rs1 rs2 fmt => some (encO 30#6 rd rs1 rs2 (0#3 ++ fmt ++ 6#7))
  | .fmac rd rs1 rs2 rm fmt => some (encO 30#6 rd rs1 rs2 (0#1 ++ rm ++ fmt ++ 7#7))
  | .fneg rd rs1 fmt => some (encO 30#6 rd rs1 0#5 (0#3 ++ fmt ++ 8#7))
  | .fabs rd rs1 fmt => some (encO 30#6 rd rs1 0#5 (0#3 ++ fmt ++ 9#7))
  | .fkind rd rs1 fmt => some (encO 30#6 rd rs1 0#5 (0#3 ++ fmt ++ 10#7))
  | .fcmpeq pd rs1 rs2 fmt => some (encO 30#6 (0#2 ++ pd) rs1 rs2 (0#3 ++ fmt ++ 16#7))
  | .fcmplt pd rs1 rs2 fmt => some (encO 30#6 (0#2 ++ pd) rs1 rs2 (0#3 ++ fmt ++ 17#7))
  | .fcmple pd rs1 rs2 fmt => some (encO 30#6 (0#2 ++ pd) rs1 rs2 (0#3 ++ fmt ++ 18#7))
  | .ftoi rd rs1 rm fmt => some (encO 30#6 rd rs1 0#5 (0#1 ++ rm ++ fmt ++ 32#7))
  | .ftou rd rs1 rm fmt => some (encO 30#6 rd rs1 0#5 (0#1 ++ rm ++ fmt ++ 33#7))
  | .itof rd rs1 rm fmt => some (encO 30#6 rd rs1 0#5 (0#1 ++ rm ++ fmt ++ 34#7))
  | .utof rd rs1 rm fmt => some (encO 30#6 rd rs1 0#5 (0#1 ++ rm ++ fmt ++ 35#7))
  | .ftof rd rs1 rm fmt => some (encO 30#6 rd rs1 0#5 (0#1 ++ rm ++ fmt ++ 36#7))
  | .ecall => some (encO 31#6 0#5 0#5 0#5 0#11)
  | .ebreak => some (encO 31#6 0#5 0#5 1#5 0#11)
  | .tret => some (encO 31#6 0#5 0#5 2#5 0#11)
  | .uiret => some (encO 31#6 0#5 0#5 3#5 0#11)
  | .crd rd cr => some (encO 31#6 rd 0#5 4#5 cr)
  | .cwr rs1 cr => some (encO 31#6 0#5 rs1 5#5 cr)
  | .cset rd rs1 cr => some (encO 31#6 rd rs1 6#5 cr)
  | .cclr rd rs1 cr => some (encO 31#6 rd rs1 7#5 cr)
  | .sleep => some (encO 31#6 0#5 0#5 8#5 0#11)
  | .dcclean rs1 => some (encO 31#6 0#5 rs1 9#5 0#11)
  | .dcflush rs1 => some (encO 31#6 0#5 rs1 10#5 0#11)
  | .dcinv rs1 => some (encO 31#6 0#5 rs1 11#5 0#11)
  | .icinv rs1 => some (encO 31#6 0#5 rs1 12#5 0#11)
  | .cstart rd rs1 rs2 => some (encO 32#6 rd rs1 rs2 0#11)
  | .cstop rd rs1 => some (encO 32#6 rd rs1 0#5 1#11)
  | .creap rd rs1 => some (encO 32#6 rd rs1 0#5 2#11)
  | .cself rs1 => some (encO 32#6 0#5 rs1 0#5 3#11)
  | .forkl rd rs1 => some (encO 32#6 rd rs1 0#5 4#11)
  | .joinl rd => some (encO 32#6 rd 0#5 0#5 5#11)
  | .movh hd rs1 => some (encO 32#6 (0#2 ++ hd) rs1 0#5 6#11)
  | .movfh rd hs => some (encO 32#6 rd (0#2 ++ hs) 0#5 7#11)
  | .binit rd rs1 rs2 => some (encO 33#6 rd rs1 rs2 0#11)
  | .barr rd rs1 rs2 => some (encO 33#6 rd rs1 rs2 1#11)
  | .bexp rd rs1 rs2 => some (encO 33#6 rd rs1 rs2 2#11)
  | .bwait rd rs1 rs2 => some (encO 33#6 rd rs1 rs2 3#11)
  | .btest rd rs1 rs2 => some (encO 33#6 rd rs1 rs2 4#11)
  | .phasend rd rs1 rs2 => some (encO 33#6 rd rs1 rs2 5#11)
  | .chbind rd rs1 => some (encO 34#6 rd rs1 0#5 0#11)
  | .chunbind rd rs1 => some (encO 34#6 rd rs1 0#5 1#11)
  | .chsend rd rs1 rs2 => some (encO 34#6 rd rs1 rs2 2#11)
  | .chrecv rd rt rs1 => some (encO 34#6 rd rs1 rt 3#11)
  | .chsendv rd rs1 vs => some (encO 34#6 rd rs1 vs 4#11)
  | .chrecvv vd rt rs1 => some (encO 34#6 vd rs1 rt 5#11)
  | .chclose rd rs1 => some (encO 34#6 rd rs1 0#5 6#11)
  | .select rd rt rs1 => some (encO 34#6 rd rs1 rt 7#11)
  | .chsendb rd rs1 rs2 => some (encO 34#6 rd rs1 rs2 8#11)
  | .chrecvb rd rs1 rs2 => some (encO 34#6 rd rs1 rs2 9#11)
  | .vsetvl rd rs1 => some (encO 40#6 rd rs1 0#5 0#11)
  | .vsett rd rs1 => some (encO 40#6 rd rs1 0#5 1#11)
  | .vmode rd rs1 => some (encO 40#6 rd rs1 0#5 2#11)
  | .ctwr rs1 rs2 => some (encO 40#6 0#5 rs1 rs2 3#11)
  | .ctsel rs1 => some (encO 40#6 0#5 rs1 0#5 4#11)
  | .vadd vd vs1 c x mk => some (encO 41#6 vd vs1 c (maskBits mk ++ x ++ 0#7))
  | .vsub vd vs1 c x mk => some (encO 41#6 vd vs1 c (maskBits mk ++ x ++ 1#7))
  | .vrsub vd vs1 c x mk => some (encO 41#6 vd vs1 c (maskBits mk ++ x ++ 2#7))
  | .vand vd vs1 c x mk => some (encO 41#6 vd vs1 c (maskBits mk ++ x ++ 3#7))
  | .vor vd vs1 c x mk => some (encO 41#6 vd vs1 c (maskBits mk ++ x ++ 4#7))
  | .vxor vd vs1 c x mk => some (encO 41#6 vd vs1 c (maskBits mk ++ x ++ 5#7))
  | .vsll vd vs1 c x mk => some (encO 41#6 vd vs1 c (maskBits mk ++ x ++ 6#7))
  | .vsrl vd vs1 c x mk => some (encO 41#6 vd vs1 c (maskBits mk ++ x ++ 7#7))
  | .vsra vd vs1 c x mk => some (encO 41#6 vd vs1 c (maskBits mk ++ x ++ 8#7))
  | .vmin vd vs1 c x mk => some (encO 41#6 vd vs1 c (maskBits mk ++ x ++ 9#7))
  | .vmax vd vs1 c x mk => some (encO 41#6 vd vs1 c (maskBits mk ++ x ++ 10#7))
  | .vminu vd vs1 c x mk => some (encO 41#6 vd vs1 c (maskBits mk ++ x ++ 11#7))
  | .vmaxu vd vs1 c x mk => some (encO 41#6 vd vs1 c (maskBits mk ++ x ++ 12#7))
  | .vmul vd vs1 c x mk => some (encO 41#6 vd vs1 c (maskBits mk ++ x ++ 13#7))
  | .vmulh vd vs1 c x mk => some (encO 41#6 vd vs1 c (maskBits mk ++ x ++ 14#7))
  | .vmulhu vd vs1 c x mk => some (encO 41#6 vd vs1 c (maskBits mk ++ x ++ 15#7))
  | .vsadd vd vs1 c x mk => some (encO 41#6 vd vs1 c (maskBits mk ++ x ++ 16#7))
  | .vsaddu vd vs1 c x mk => some (encO 41#6 vd vs1 c (maskBits mk ++ x ++ 17#7))
  | .vssub vd vs1 c x mk => some (encO 41#6 vd vs1 c (maskBits mk ++ x ++ 18#7))
  | .vssubu vd vs1 c x mk => some (encO 41#6 vd vs1 c (maskBits mk ++ x ++ 19#7))
  | .vmacc vd vs1 c x mk => some (encO 41#6 vd vs1 c (maskBits mk ++ x ++ 20#7))
  | .vabs vd vs1 mk => some (encO 41#6 vd vs1 0#5 (maskBits mk ++ 0#1 ++ 21#7))
  | .vneg vd vs1 mk => some (encO 41#6 vd vs1 0#5 (maskBits mk ++ 0#1 ++ 22#7))
  | .vcmpeq md vs1 c x mk => some (encO 41#6 (6#3 ++ md) vs1 c (maskBits mk ++ x ++ 24#7))
  | .vcmpne md vs1 c x mk => some (encO 41#6 (6#3 ++ md) vs1 c (maskBits mk ++ x ++ 25#7))
  | .vcmplt md vs1 c x mk => some (encO 41#6 (6#3 ++ md) vs1 c (maskBits mk ++ x ++ 26#7))
  | .vcmple md vs1 c x mk => some (encO 41#6 (6#3 ++ md) vs1 c (maskBits mk ++ x ++ 27#7))
  | .vcmpltu md vs1 c x mk => some (encO 41#6 (6#3 ++ md) vs1 c (maskBits mk ++ x ++ 28#7))
  | .vcmpleu md vs1 c x mk => some (encO 41#6 (6#3 ++ md) vs1 c (maskBits mk ++ x ++ 29#7))
  | .vfadd vd vs1 c x mk => some (encO 42#6 vd vs1 c (maskBits mk ++ x ++ 0#7))
  | .vfsub vd vs1 c x mk => some (encO 42#6 vd vs1 c (maskBits mk ++ x ++ 1#7))
  | .vfmul vd vs1 c x mk => some (encO 42#6 vd vs1 c (maskBits mk ++ x ++ 2#7))
  | .vfdiv vd vs1 c x mk => some (encO 42#6 vd vs1 c (maskBits mk ++ x ++ 3#7))
  | .vfsqrt vd vs1 mk => some (encO 42#6 vd vs1 0#5 (maskBits mk ++ 0#1 ++ 4#7))
  | .vfmin vd vs1 c x mk => some (encO 42#6 vd vs1 c (maskBits mk ++ x ++ 5#7))
  | .vfmax vd vs1 c x mk => some (encO 42#6 vd vs1 c (maskBits mk ++ x ++ 6#7))
  | .vfmacc vd vs1 c x mk => some (encO 42#6 vd vs1 c (maskBits mk ++ x ++ 7#7))
  | .vfabs vd vs1 mk => some (encO 42#6 vd vs1 0#5 (maskBits mk ++ 0#1 ++ 9#7))
  | .vfneg vd vs1 mk => some (encO 42#6 vd vs1 0#5 (maskBits mk ++ 0#1 ++ 10#7))
  | .vfcmpeq md vs1 c x mk => some (encO 42#6 (6#3 ++ md) vs1 c (maskBits mk ++ x ++ 16#7))
  | .vfcmplt md vs1 c x mk => some (encO 42#6 (6#3 ++ md) vs1 c (maskBits mk ++ x ++ 17#7))
  | .vfcmple md vs1 c x mk => some (encO 42#6 (6#3 ++ md) vs1 c (maskBits mk ++ x ++ 18#7))
  | .vfcvt vd vs1 tag mk => some (encO 42#6 vd vs1 tag (maskBits mk ++ 0#1 ++ 32#7))
  | .vquant vd vs1 tag mk => some (encO 42#6 vd vs1 tag (maskBits mk ++ 0#1 ++ 33#7))
  | .vdequant vd vs1 tag mk => some (encO 42#6 vd vs1 tag (maskBits mk ++ 0#1 ++ 34#7))
  | .mand md ms1 ms2 x mk => some (encO 43#6 (6#3 ++ md) (6#3 ++ ms1) (6#3 ++ ms2) (maskBits mk ++ x ++ 0#7))
  | .mor md ms1 ms2 x mk => some (encO 43#6 (6#3 ++ md) (6#3 ++ ms1) (6#3 ++ ms2) (maskBits mk ++ x ++ 1#7))
  | .mxor md ms1 ms2 x mk => some (encO 43#6 (6#3 ++ md) (6#3 ++ ms1) (6#3 ++ ms2) (maskBits mk ++ x ++ 2#7))
  | .mandn md ms1 ms2 x mk => some (encO 43#6 (6#3 ++ md) (6#3 ++ ms1) (6#3 ++ ms2) (maskBits mk ++ x ++ 3#7))
  | .mnot md ms1 x mk => some (encO 43#6 (6#3 ++ md) (6#3 ++ ms1) 0#5 (maskBits mk ++ x ++ 4#7))
  | .mset md x mk => some (encO 43#6 (6#3 ++ md) 0#5 0#5 (maskBits mk ++ x ++ 5#7))
  | .mclr md x mk => some (encO 43#6 (6#3 ++ md) 0#5 0#5 (maskBits mk ++ x ++ 6#7))
  | .mpopc rd ms1 mk => some (encO 43#6 rd (6#3 ++ ms1) 0#5 (maskBits mk ++ 1#1 ++ 8#7))
  | .mfirst rd ms1 mk => some (encO 43#6 rd (6#3 ++ ms1) 0#5 (maskBits mk ++ 1#1 ++ 9#7))
  | .vshuf vd vs1 vi mk => some (encO 44#6 vd vs1 vi (maskBits mk ++ 0#1 ++ 0#7))
  | .vslideup vd vs1 rs2 mk => some (encO 44#6 vd vs1 rs2 (maskBits mk ++ 1#1 ++ 1#7))
  | .vslidedn vd vs1 rs2 mk => some (encO 44#6 vd vs1 rs2 (maskBits mk ++ 1#1 ++ 2#7))
  | .vcompress vd vs1 mr => some (encO 44#6 vd vs1 0#5 (1#1 ++ mr ++ 0#1 ++ 3#7))
  | .vexpand vd vs1 mr => some (encO 44#6 vd vs1 0#5 (1#1 ++ mr ++ 0#1 ++ 4#7))
  | .vdense vd vs1 c x mk => some (encO 44#6 vd vs1 c (maskBits mk ++ x ++ 5#7))
  | .vredSum d vs1 x mk => some (encO 44#6 d vs1 0#5 (maskBits mk ++ x ++ 16#7))
  | .vredMin d vs1 x mk => some (encO 44#6 d vs1 0#5 (maskBits mk ++ x ++ 17#7))
  | .vredMax d vs1 x mk => some (encO 44#6 d vs1 0#5 (maskBits mk ++ x ++ 18#7))
  | .vredMinu d vs1 x mk => some (encO 44#6 d vs1 0#5 (maskBits mk ++ x ++ 19#7))
  | .vredMaxu d vs1 x mk => some (encO 44#6 d vs1 0#5 (maskBits mk ++ x ++ 20#7))
  | .vredAnd d vs1 x mk => some (encO 44#6 d vs1 0#5 (maskBits mk ++ x ++ 21#7))
  | .vredOr d vs1 x mk => some (encO 44#6 d vs1 0#5 (maskBits mk ++ x ++ 22#7))
  | .vredXor d vs1 x mk => some (encO 44#6 d vs1 0#5 (maskBits mk ++ x ++ 23#7))
  | .vredFsum d vs1 x mk => some (encO 44#6 d vs1 0#5 (maskBits mk ++ x ++ 24#7))
  | .vredFmin d vs1 x mk => some (encO 44#6 d vs1 0#5 (maskBits mk ++ x ++ 25#7))
  | .vredFmax d vs1 x mk => some (encO 44#6 d vs1 0#5 (maskBits mk ++ x ++ 26#7))
  | .vscanSum vd vs1 mk => some (encO 44#6 vd vs1 0#5 (maskBits mk ++ 0#1 ++ 32#7))
  | .vscanMin vd vs1 mk => some (encO 44#6 vd vs1 0#5 (maskBits mk ++ 0#1 ++ 33#7))
  | .vscanMax vd vs1 mk => some (encO 44#6 vd vs1 0#5 (maskBits mk ++ 0#1 ++ 34#7))
  | .vscanMinu vd vs1 mk => some (encO 44#6 vd vs1 0#5 (maskBits mk ++ 0#1 ++ 35#7))
  | .vscanMaxu vd vs1 mk => some (encO 44#6 vd vs1 0#5 (maskBits mk ++ 0#1 ++ 36#7))
  | .vscanAnd vd vs1 mk => some (encO 44#6 vd vs1 0#5 (maskBits mk ++ 0#1 ++ 37#7))
  | .vscanOr vd vs1 mk => some (encO 44#6 vd vs1 0#5 (maskBits mk ++ 0#1 ++ 38#7))
  | .vscanXor vd vs1 mk => some (encO 44#6 vd vs1 0#5 (maskBits mk ++ 0#1 ++ 39#7))
  | .vscanFsum vd vs1 mk => some (encO 44#6 vd vs1 0#5 (maskBits mk ++ 0#1 ++ 40#7))
  | .vmv vd vs1 mk => some (encO 46#6 vd vs1 0#5 (maskBits mk ++ 0#1 ++ 0#7))
  | .vmerge vd vs1 c x mr => some (encO 46#6 vd vs1 c (1#1 ++ mr ++ x ++ 1#7))
  | .vbcast vd rs2 mk => some (encO 46#6 vd 0#5 rs2 (maskBits mk ++ 1#1 ++ 2#7))
  | .vmvxs rd vs1 => some (encO 46#6 rd vs1 0#5 (0#3 ++ 1#1 ++ 3#7))
  | .vmvsx vd rs2 => some (encO 46#6 vd 0#5 rs2 (0#3 ++ 1#1 ++ 4#7))
  | .vid vd mk => some (encO 46#6 vd 0#5 0#5 (maskBits mk ++ 0#1 ++ 5#7))
  | .vld vd base mk => some (encO 45#6 vd base 0#5 (maskBits mk ++ 0#4 ++ 0#2 ++ 0#2))
  | .vlds vd base rs mk => some (encO 45#6 vd base rs (maskBits mk ++ 1#4 ++ 0#2 ++ 0#2))
  | .vldx vd base vi iw mk => some (encO 45#6 vd base vi (maskBits mk ++ 2#4 ++ 0#2 ++ iw))
  | .vst vs base mk => some (encO 45#6 vs base 0#5 (maskBits mk ++ 3#4 ++ 0#2 ++ 0#2))
  | .vsts vs base rs mk => some (encO 45#6 vs base rs (maskBits mk ++ 4#4 ++ 0#2 ++ 0#2))
  | .vstx vs base vi iw mk => some (encO 45#6 vs base vi (maskBits mk ++ 5#4 ++ 0#2 ++ iw))
  | .vldl vd base vi iw mk => some (encO 45#6 vd base vi (maskBits mk ++ 6#4 ++ 0#2 ++ iw))
  | .vstc vs base vi iw mr => some (encO 45#6 vs base vi (1#1 ++ mr ++ 7#4 ++ 0#2 ++ iw))
  | .vamoAdd vs base vi mk => some (encO 45#6 vs base vi (maskBits mk ++ 8#4 ++ 0#2 ++ 0#2))
  | .vamoMin vs base vi mk => some (encO 45#6 vs base vi (maskBits mk ++ 8#4 ++ 0#2 ++ 1#2))
  | .vamoMax vs base vi mk => some (encO 45#6 vs base vi (maskBits mk ++ 8#4 ++ 0#2 ++ 2#2))
  | .vamoFadd vs base vi mk => some (encO 45#6 vs base vi (maskBits mk ++ 8#4 ++ 0#2 ++ 3#2))
  | .mattach rd rs1 => some (encO 48#6 rd rs1 0#5 (0#2 ++ 0#5 ++ 0#4))
  | .mdetach => some (encO 48#6 0#5 0#5 0#5 (0#2 ++ 1#5 ++ 0#4))
  | .mclaim rd rs1 => some (encO 48#6 rd rs1 0#5 (0#2 ++ 2#5 ++ 0#4))
  | .mrelease os => some (encO 48#6 (0#1 ++ os) 0#5 0#5 (0#2 ++ 3#5 ++ 0#4))
  | .mlda os base rs sp fmt => some (encO 48#6 (0#1 ++ os) base rs (0#2 ++ 4#5 ++ 0#1 ++ sp ++ fmt))
  | .mldb os base rs fmt => some (encO 48#6 (0#1 ++ os) base rs (0#2 ++ 5#5 ++ 0#2 ++ fmt))
  | .mzero t => some (encO 48#6 0#5 0#5 0#5 (t ++ 6#5 ++ 0#4))
  | .mop t osa osb rs z => some (encO 48#6 (0#1 ++ osa) (0#1 ++ osb) rs (t ++ 7#5 ++ 0#3 ++ z))
  | .mtmv vd t rs mk => some (encO 48#6 vd rs 0#5 (t ++ 8#5 ++ maskBits4 mk))
  | .mvtm t vs rs mk => some (encO 48#6 vs rs 0#5 (t ++ 9#5 ++ maskBits4 mk))
  | .mtld t base rs => some (encO 48#6 0#5 base rs (t ++ 10#5 ++ 0#4))
  | .mtst t base rs h => some (encO 48#6 0#5 base rs (t ++ 11#5 ++ 0#3 ++ h))
  | .mprune osd oss rs => some (encO 48#6 (0#1 ++ osd) (0#1 ++ oss) rs (0#2 ++ 12#5 ++ 0#4))
  | .mhdr rd os l => some (encO 48#6 rd (0#1 ++ os) 0#5 (0#2 ++ 13#5 ++ 0#3 ++ l))
  | .mwait rd rs1 => some (encO 48#6 rd rs1 0#5 (0#2 ++ 14#5 ++ 0#4))
  | .pcopy rd rs1 => some (encO 49#6 rd rs1 0#5 0#11)
  | .pfill rd rs1 => some (encO 49#6 rd rs1 0#5 1#11)
  | .pwait rd rs1 => some (encO 49#6 rd rs1 0#5 2#11)
  | .ppoll rd rs1 => some (encO 49#6 rd rs1 0#5 3#11)
  | .pcancel rd rs1 => some (encO 49#6 rd rs1 0#5 4#11)
  | .clload rd rs1 rs2 => some (encO 50#6 rd rs1 rs2 0#11)
  | .clquery vd vi rs1 => some (encO 50#6 vd rs1 vi 1#11)
  | .clrun rd rs1 rs2 => some (encO 50#6 rd rs1 rs2 2#11)
  | .clwait rd rs1 => some (encO 50#6 rd rs1 0#5 3#11)
  | .pfx p sense ce copy => some (encO 63#6 (p ++ sense ++ ce) copy 0#5 0#11)
  | .tlbinv _ => none
  | .vtypeWrite _ => none
  | .registerWrite _ _ => none
  | .interruptEntry => none
  | .userCompletion => none
  | .saveFull => none
  | .localCompare => none
  | .memoryReply => none
  | .divideComplete => none
  | .fenceWaitEnd => none
  | .vectorOrderWaitEnd => none
  | .queueEntryFree => none
  | .drainEnd => none
  | .sleepWake => none
  | .cstopWaitEnd => none
  | .creapWaitEnd => none
  | .joinlTakeover => none
  | .hwmRecheck => none
  | .ctwrWaitEnd => none
  | .streamIndexWaitEnd => none
  | .tlbinvWaitEnd => none
  | .vectorQueueEntry _ _ => none
  | .vectorDataPhase _ _ => none
  | .probeQuery _ _ => none
  | .answer _ _ => none
  | .barrierWaitEnd => none
  | .scatterDrainEnd => none
  | .jobWaitEnd => none
  | .attachJob _ => none
  | .detachJob _ => none
  | .slotReleaseJob _ => none
  | .operandLoadJob _ => none
  | .accumulatorJob _ => none
  | .mopJob _ => none
  | .pruneJob _ => none
  | .governorWindow _ _ => none
  | .porterJob _ _ => none
  | .completionPlaceWaitEnd => none
  | .blockTransfer _ _ => none
  | .cellarLoadJob _ => none
  | .kernelMove _ => none
  | .hbmRefresh _ _ => none
  | .hbmTempSample _ _ => none
  | .thermalSample _ _ => none
  | .droopBegin _ => none
  | .droopEnd _ _ => none
  | .powerUpdate _ => none
  | .dispatch _ _ => none
  | .placementComplete _ => none
  | .preemption _ => none
  | .processRestore _ => none
  | .run _ => none
  | .quiesce _ => none
  | .gate _ => none
  | .wake _ => none
  | .quiesceComplete _ => none
  | .gatingComplete _ => none
  | .wakingComplete _ => none
  | .nak _ _ => none
  | .ack _ => none
  | .offer _ => none
  | .commit _ => none
  | .data _ => none
  | .close _ => none
  | .linkUp _ => none
  | .linkTrainingTimeout _ => none
  | .linkRetry _ => none
  | .ackTimer _ => none
  | .resendTimer _ => none
  | .admitLaunch _ => none
  | .admitted _ => none
  | .image _ => none
  | .reserve _ => none
  | .reserved _ => none
  | .place _ => none
  | .placed _ => none
  | .stopped _ => none
  | .endMsg _ => none
  | .ended _ => none
  | .knot _ => none
  | .switch _ => none
  | .switched _ => none
  | .commitsave _ => none
  | .restore _ => none
  | .restored _ => none
  | .join _ => none
  | .joined _ => none
  | .park _ => none
  | .stage _ => none
  | .submit _ => none
  | .cancel _ => none
  | .query _ => none
  | .knotlog _ => none
  | .floor _ => none
  | .attest _ => none
  | .release _ => none
  | .rdmaWrite _ => none
  | .deviceReset _ => none
  | .securityAlarm => none
  | .illegalInsn _ => none
  | .pageFaultFetch => none
  | .flitRejected _ _ => none
  | .transitFlit _ => none
  | .badCommand _ => none
  | .reportSigned _ => none

end Sys2Proof
end

