-- ==== Sys2Proof/Config.lean ====
section
/-! DEFINITION. Sys2Proof/Config.lean: what the part fixes, and the free values: constants without a body, of which no value can be proved. -/

namespace Sys2Proof.Config

/-- The 16 rows of a register (field value reg) in a physical lane whose contents the spec leaves undefined (R12, R136); epoch tells one undefined moment from another. A free value: log entry 6. -/
opaque undefRows (epoch reg lane : Nat) : BitVec 16

/-- A byte that a read of undefined scratch or unkept state returns (R12). A free value: log entry 6. -/
opaque undefByte (n : Nat) : BitVec 8

/-- What a unit register of a kernel holds before anything wrote it, by kernel and port (R344 and R345 give no start). A free value: log entry 6. -/
opaque kernelUnit (stamp port : Nat) : BitVec 32

/-- The guard bit, 0 to 7, that a value outside 1 to 7 written to CMP.G selects (R345 gives none). A free value: log entry 6. -/
opaque kernelGuard (value : Nat) : Fin 8

/-- The RKEY that STAGE gives a region (R419, R421 state no value). A free value: log entry 6. -/
opaque stageKey (n : Nat) : BitVec 32

/-- Modulus and private exponent of the RSA-4096 key that boot derives from the identity seed (R422 gives no derivation). A free value: log entry 74. -/
opaque identityKey (seed : List (BitVec 8)) : Nat × Nat

/-- Whether a context on another module of the same launch holds an endpoint that no context here holds (R202; no message of R415 carries it). A free value: log entry 33. -/
opaque heldElsewhere (n : Nat) : Bool

/-- Tiles of a module, in a 16 x 16 mesh (R1). -/
def tiles : Nat := 256

/-- Context slots of a core (R108). -/
def slots : Nat := 16

/-- Bytes of one tile's HBM4 channel (R250). -/
def tileBytes : Nat := 2 ^ 31

/-- The first tile-physical address of the Cellar table area (R250). -/
def cellarBase : Nat := 0x7FF00000

/-- TLB entries of a core (R255). -/
def tlbEntries : Nat := 512

/-- Pointer entries the tile's walker keeps (R255). -/
def walkerEntries : Nat := 64

/-- Entries of a partition's vector queue (R127). -/
def vectorQueue : Nat := 32

end Sys2Proof.Config
end

