-- ==== Sys2Proof/Machine/Maps.lean ====
section
/-! DEFINITION. Sys2Proof/Machine/Maps.lean: finite maps from numbers to data as plain lists in rising key order; what an unlisted key reads as is the reader's to say. -/

namespace Sys2Proof

/-- A map from numbers to data: pairs in rising order of key. -/
abbrev AMap (α : Type) := List (Nat × α)

/-- The datum listed under a key. -/
def AMap.find {α : Type} : AMap α → Nat → Option α
  | [], _ => none
  | (k, v) :: m, i => if k = i then some v else AMap.find m i

/-- The datum under a key, or d where none is listed. -/
def AMap.get {α : Type} (m : AMap α) (i : Nat) (d : α) : α := (AMap.find m i).getD d

/-- List a datum under a key, in place of what stood there. -/
def AMap.set {α : Type} : AMap α → Nat → α → AMap α
  | [], i, a => [(i, a)]
  | (k, v) :: m, i, a =>
    if k = i then (i, a) :: m
    else if i < k then (i, a) :: (k, v) :: m
    else (k, v) :: AMap.set m i a

/-- Take a key out of the list. -/
def AMap.erase {α : Type} : AMap α → Nat → AMap α
  | [], _ => []
  | (k, v) :: m, i => if k = i then AMap.erase m i else (k, v) :: AMap.erase m i

/-- Apply a function to what is listed under every key. -/
def AMap.mapVal {α : Type} (f : Nat → α → α) (m : AMap α) : AMap α := m.map fun kv => (kv.1, f kv.1 kv.2)

theorem AMap.find_set_same {α : Type} (m : AMap α) (i : Nat) (a : α) :
    AMap.find (AMap.set m i a) i = some a := by
  induction m with
  | nil => simp [AMap.set, AMap.find]
  | cons kv m ih =>
    obtain ⟨k, v⟩ := kv
    simp only [AMap.set]
    split
    · simp [AMap.find]
    · split
      · simp [AMap.find]
      · rename_i h _; simp [AMap.find, h, ih]

theorem AMap.find_set_ne {α : Type} (m : AMap α) {i j : Nat} (a : α) (h : i ≠ j) :
    AMap.find (AMap.set m i a) j = AMap.find m j := by
  induction m with
  | nil => simp [AMap.set, AMap.find, h]
  | cons kv m ih =>
    obtain ⟨k, v⟩ := kv
    simp only [AMap.set]
    split
    · rename_i hk; subst hk; simp [AMap.find, h]
    · split
      · simp [AMap.find, h]
      · simp only [AMap.find]; split <;> simp_all

@[simp] theorem AMap.get_set_same {α : Type} (m : AMap α) (i : Nat) (a d : α) :
    AMap.get (AMap.set m i a) i d = a := by simp [AMap.get, AMap.find_set_same]

theorem AMap.get_set_ne {α : Type} (m : AMap α) {i j : Nat} (a d : α) (h : i ≠ j) :
    AMap.get (AMap.set m i a) j d = AMap.get m j d := by simp [AMap.get, AMap.find_set_ne m a h]

theorem AMap.find_erase_same {α : Type} (m : AMap α) (i : Nat) :
    AMap.find (AMap.erase m i) i = none := by
  induction m with
  | nil => rfl
  | cons kv m ih =>
    obtain ⟨k, v⟩ := kv
    simp only [AMap.erase]
    split
    · exact ih
    · rename_i h; simp [AMap.find, h, ih]

theorem AMap.find_erase_ne {α : Type} (m : AMap α) {i j : Nat} (h : i ≠ j) :
    AMap.find (AMap.erase m i) j = AMap.find m j := by
  induction m with
  | nil => rfl
  | cons kv m ih =>
    obtain ⟨k, v⟩ := kv
    simp only [AMap.erase]
    split
    · rename_i hk; subst hk; simp [AMap.find, h, ih]
    · simp only [AMap.find]; split <;> simp_all

end Sys2Proof
end

