-- ==== Sys2Proof/Machine/Memory.lean ====
section
/-! DEFINITION. Sys2Proof/Machine/Memory.lean: memory as a list of (address, byte) pairs in one canonical form, with the poison marks of its 8-byte poison words (R360), and the writes that cores hold at CORE scope (R262). -/

namespace Sys2Proof.Machine

/-- What a byte that is not listed reads as: 0 (DESIGN CHOICE, log entry 3: the spec gives no contents of memory before it is written). -/
def unlistedByte : Byte := 0#8

/-- The byte at an address of a canonical list. -/
def cellsGet : List Host.Cell → Nat → Byte
  | [], _ => unlistedByte
  | (k, v) :: m, a => if k = a then v else cellsGet m a

/-- Store one byte, keeping addresses rising and listing no byte that equals the unlisted value. -/
def cellsSet : List Host.Cell → Nat → Byte → List Host.Cell
  | [], a, b => if b = unlistedByte then [] else [(a, b)]
  | (k, v) :: m, a, b =>
    if a = k then (if b = unlistedByte then m else (a, b) :: m)
    else if a < k then (if b = unlistedByte then (k, v) :: m else (a, b) :: (k, v) :: m)
    else (k, v) :: cellsSet m a b

/-- Every address listed lies above lo, addresses rise strictly, and no listed byte equals the unlisted value. -/
def cellsWfFrom : Option Nat → List Host.Cell → Bool
  | _, [] => true
  | lo, (k, v) :: m =>
    (match lo with
      | none => true
      | some l => decide (l < k)) && decide (v ≠ unlistedByte) && cellsWfFrom (some k) m

/-- Put a number into a rising list of numbers. -/
def natsInsert : List Nat → Nat → List Nat
  | [], a => [a]
  | k :: m, a => if a = k then k :: m else if a < k then a :: k :: m else k :: natsInsert m a

/-- Take a number out of a list of numbers. -/
def natsErase (m : List Nat) (a : Nat) : List Nat := m.filter fun k => k != a

/-- A rising list of numbers, all above lo. -/
def natsWfFrom : Option Nat → List Nat → Bool
  | _, [] => true
  | lo, k :: m =>
    (match lo with
      | none => true
      | some l => decide (l < k)) && natsWfFrom (some k) m

/-- A memory: its bytes, and the numbers (address / 8) of its poisoned words (R360). -/
structure Memory where
  cells : List Host.Cell := []
  marks : List Nat := []
deriving DecidableEq, Repr

/-- A memory in which nothing is listed. -/
def Memory.empty : Memory := {}

/-- The canonical form: rising addresses, no byte equal to the unlisted value, rising marks. -/
def Memory.wf (m : Memory) : Bool := cellsWfFrom none m.cells && natsWfFrom none m.marks

/-- One byte of memory. -/
def Memory.byte (m : Memory) (a : Nat) : Byte := cellsGet m.cells a

/-- Whether the poison word that holds an address is marked (R360). -/
def Memory.marked (m : Memory) (a : Nat) : Bool := m.marks.contains (a / 8)

/-- Replace one byte. -/
def Memory.setByte (m : Memory) (a : Nat) (b : Byte) : Memory := { m with cells := cellsSet m.cells a b }

/-- Mark or clear the poison word of an address. -/
def Memory.setMark (m : Memory) (a : Nat) (on : Bool) : Memory :=
  { m with marks := if on then natsInsert m.marks (a / 8) else natsErase m.marks (a / 8) }

/-- One byte that a write stores: its address, the byte, and whether the data is poisoned. -/
abbrev WByte := Nat × Byte × Bool

/-- Replace the bytes of a write, in order. -/
def Memory.setBytes (m : Memory) : List WByte → Memory
  | [] => m
  | (a, b, _) :: ws => Memory.setBytes (m.setByte a b) ws

/-- What a write does to the mark of poison word w (R360): any poisoned byte in the word marks it; all eight bytes, each clean, clear it; otherwise it stays. -/
def Memory.markAfter (ws : List WByte) (m : Memory) (w : Nat) : Memory :=
  if ws.any fun x => x.1 / 8 == w && x.2.2 then m.setMark (8 * w) true
  else if (List.range 8).all fun i => ws.any fun x => x.1 == 8 * w + i then m.setMark (8 * w) false
  else m

/-- The poison words that a write touches. -/
def touchedWords (ws : List WByte) : List Nat := (ws.map fun x => x.1 / 8).dedup

/-- Perform one write of an instruction or job that has already written some bytes, which count together for poison (R360). -/
def Memory.writeWith (before : List WByte) (m : Memory) (ws : List WByte) : Memory :=
  (touchedWords ws).foldl (Memory.markAfter (before ++ ws)) (m.setBytes ws)

/-- Perform one write, the bytes of one instruction or job taken together (R360). -/
def Memory.write (m : Memory) (ws : List WByte) : Memory := m.writeWith [] ws

/-- The bytes from an address upwards. -/
def Memory.bytes (m : Memory) (a n : Nat) : List Byte := (List.range n).map fun i => m.byte (a + i)

/-- Whether any byte from an address upwards lies in a marked word. -/
def Memory.anyMarked (m : Memory) (a n : Nat) : Bool := (List.range n).any fun i => m.marked (a + i)

/-- A little-endian number from bytes, lowest address first (R7). -/
def leNat : List Byte → Nat
  | [] => 0
  | b :: bs => b.toNat + 256 * leNat bs

/-- The n little-endian bytes of a number (R7). -/
def leBytes : Nat → Nat → List Byte
  | 0, _ => []
  | n + 1, v => BitVec.ofNat 8 v :: leBytes n (v / 256)

/-- The bytes of a write at consecutive addresses, all poisoned or all clean. -/
def wbytes : Nat → List Byte → Bool → List WByte
  | _, [], _ => []
  | a, b :: bs, p => (a, b, p) :: wbytes (a + 1) bs p

/-- A 64-byte line's contents: its bytes and the marks of its eight poison words. -/
structure Line where
  bytes : List Byte
  marks : BitVec 8
deriving DecidableEq, Repr

/-- The line with a number (address / 64). -/
def Memory.line (m : Memory) (l : Nat) : Line :=
  { bytes := m.bytes (64 * l) 64
    marks := (List.range 8).foldl (fun acc i => if m.marked (64 * l + 8 * i) then acc ||| (1#8 <<< i) else acc) 0#8 }

/-- Put a line's contents back. -/
def Memory.putLine (m : Memory) (l : Nat) (x : Line) : Memory :=
  (List.range 8).foldl (fun acc i => acc.setMark (64 * l + 8 * i) (x.marks.getLsbD i))
    (m.setBytes (wbytes (64 * l) x.bytes false))

end Sys2Proof.Machine
end

