-- ==== Sys2Proof/Machine/Wire.lean ====
section
/-! DEFINITION. Sys2Proof/Machine/Wire.lean: bytes on the wire: flits with their CRC (R409), message headers (R414), host datagrams (R419) and the configuration record (R423). -/

namespace Sys2Proof.Machine

/-- A little-endian field of a byte string. -/
def field (bs : List Byte) (off n : Nat) : Nat := leNat ((bs.drop off).take n)

/-- Eight steps of the reflected CRC-32 with the IEEE 802.3 polynomial. -/
def crcBits : Nat → Nat → Nat
  | 0, c => c
  | n + 1, c => crcBits n (if c % 2 = 1 then (c >>> 1) ^^^ 0xEDB88320 else c >>> 1)

/-- CRC-32 with the IEEE 802.3 polynomial over some bytes (R409). -/
def crc32 (bs : List Byte) : Nat := (bs.foldl (fun c b => crcBits 8 (c ^^^ b.toNat)) 0xFFFFFFFF) ^^^ 0xFFFFFFFF

end Sys2Proof.Machine

namespace Sys2Proof

open Sys2Proof.Machine

/-- The header of a flit (R409). -/
def Flit.header (f : Flit) : Nat := field f.bytes 0 8

def Flit.dest (f : Flit) : Nat := f.header / 2 ^ 55 % 512
def Flit.src (f : Flit) : Nat := f.header / 2 ^ 46 % 512
def Flit.kind (f : Flit) : Nat := f.header / 2 ^ 42 % 16
def Flit.ftag (f : Flit) : Nat := f.header / 2 ^ 30 % 4096
def Flit.acktag (f : Flit) : Nat := f.header / 2 ^ 18 % 4096
def Flit.len (f : Flit) : Nat := f.header / 2 ^ 12 % 64
def Flit.low (f : Flit) : Nat := f.header % 2 ^ 12

/-- The payload bytes that LEN says are used (R409). -/
def Flit.payload (f : Flit) : List Byte := (f.bytes.drop 8).take f.len

/-- Whether a flit's CRC is correct (R409). -/
def Flit.crcOk (f : Flit) : Bool := f.bytes.length == 64 && field f.bytes 60 4 == crc32 (f.bytes.take 60)

/-- A flit of a link (R409): header, payload filled up with zeros, CRC. -/
def mkFlit (src dst kind ftag ack : Nat) (payload : List Byte) (marks : List Nat := []) : Flit :=
  let body := leBytes 8 (dst % 512 * 2 ^ 55 + src % 512 * 2 ^ 46 + kind % 16 * 2 ^ 42 + ftag % 4096 * 2 ^ 30 + ack % 4096 * 2 ^ 18 + payload.length % 64 * 2 ^ 12)
    ++ payload ++ List.replicate (52 - payload.length) 0#8
  { bytes := body ++ leBytes 4 (crc32 body), marks := marks }

/-- The message header of a flit: its payload's first 20 bytes (R414). -/
def Flit.mseq (f : Flit) : Nat := field f.payload 0 8
def Flit.eack (f : Flit) : Nat := field f.payload 8 8
def Flit.frag (f : Flit) : Nat := field f.payload 16 2
def Flit.flags (f : Flit) : Nat := field f.payload 18 1

/-- Whether a flit's message header keeps to its layout as fragment i of n (R414): LEN from 20 to 52, FRAG, LAST, and zero where the layout is reserved. -/
def Flit.fragOk (f : Flit) (i n : Nat) : Bool :=
  decide (20 ≤ f.len) && decide (f.len ≤ 52) && f.frag == i && f.flags == (if i + 1 = n then 1 else 0) && field f.payload 19 1 == 0

/-- The first flit of a message, which names its pair and number. -/
def MsgIn.lead (m : MsgIn) : Flit := m.flits.headD { bytes := [] }

/-- The module that a message comes from. -/
def MsgIn.src (m : MsgIn) : Nat := m.lead.src

/-- The number of a message in its pair (R414). -/
def MsgIn.mseq (m : MsgIn) : Nat := m.lead.mseq

/-- The acknowledgement that a message carries: that of its last flit (R414). -/
def MsgIn.eack (m : MsgIn) : Nat := (m.flits.getLastD { bytes := [] }).eack

/-- The body of a message: the bodies of its fragments, joined (R414). -/
def MsgIn.body (m : MsgIn) : List Byte := m.flits.flatMap fun f => f.payload.drop 20

/-- Which bytes of a message's body were read as poisoned (R334, log entry 73). -/
def bodyMarks : Nat → List Flit → List Nat
  | _, [] => []
  | at_, f :: fs => (f.marks.map fun i => at_ + i) ++ bodyMarks (at_ + (f.len - 20)) fs

/-- Which bytes of a message's body were read as poisoned. -/
def MsgIn.marks (m : MsgIn) : List Nat := bodyMarks 0 m.flits

/-- Whether flits are the fragments of one message of a kind, whole and in order (R414). -/
def MsgIn.whole (m : MsgIn) (kind : Nat) : Bool :=
  !m.flits.isEmpty && (m.flits.zipIdx).all fun x =>
    x.1.fragOk x.2 m.flits.length && x.1.kind == kind && x.1.src == m.src && x.1.mseq == m.mseq && x.1.dest == m.lead.dest

/-- The fields of a datagram's header (R419). -/
def HostReq.magic (q : HostReq) : BitVec 32 := BitVec.ofNat 32 (field q.bytes 0 4)
def HostReq.version (q : HostReq) : BitVec 16 := BitVec.ofNat 16 (field q.bytes 4 2)
def HostReq.op (q : HostReq) : BitVec 16 := BitVec.ofNat 16 (field q.bytes 6 2)
def HostReq.reqid (q : HostReq) : Word := BitVec.ofNat 64 (field q.bytes 8 8)
def HostReq.len (q : HostReq) : Nat := field q.bytes 0x10 4
def HostReq.status (q : HostReq) : Nat := field q.bytes 0x14 2

/-- Whether a reserved byte of a datagram's header is not zero (R419). -/
def HostReq.reserved (q : HostReq) : Bool := field q.bytes 0x16 10 != 0

/-- The payload of a datagram (R419). -/
def HostReq.payload (q : HostReq) : List Byte := q.bytes.drop 32

end Sys2Proof

namespace Sys2Proof.Machine

/-- The bytes of a message in pieces of at most 32 (R414). -/
def chunks : Nat → List Byte → List (List Byte)
  | 0, _ => []
  | n + 1, bs => if bs.length ≤ 32 then [bs] else bs.take 32 :: chunks n (bs.drop 32)

/-- The message header of a fragment (R414). -/
def fragHeader (mseq eack frag : Nat) (last : Bool) : List Byte :=
  leBytes 8 mseq ++ leBytes 8 eack ++ leBytes 2 frag ++ [if last then 1#8 else 0#8, 0#8]

/-- The payloads of a message's flits (R414), each with the poisoned bytes among its own: MSEQ, EACK, FRAG, LAST, then BODY. -/
def fragments (mseq eack : Nat) (body : List Byte) (marks : List Nat) : List (List Byte × List Nat) :=
  let cs := chunks (body.length / 32 + 1) body
  (cs.zipIdx).map fun x =>
    (fragHeader mseq eack x.2 (x.2 + 1 == cs.length) ++ x.1,
      (marks.filter fun i => i / 32 == x.2 && decide (i % 32 < x.1.length)).map fun i => i % 32)

/-- UDP port of the host commands (R419). -/
def hostPort : Nat := 47040

/-- MAGIC of a command: bytes 0x4B, 0x47, 0x5A, 0x37 (R419). -/
def hostMagic : BitVec 32 := 0x375A474B#32

/-- One segment that the configuration record retires: tile, core, segment within the core (R423 RETIRE). -/
structure RetireEntry where
  tile    : Nat
  core    : Nat
  segment : Nat
deriving DecidableEq, Repr

/-- The configuration record, read (R423). -/
structure ConfigRecord where
  module : Nat
  domain : Nat
  lock   : Bool
  seq    : Word
  addrs  : List Nat
  routes : List (BitVec 10)
  retire : List RetireEntry
deriving DecidableEq, Repr

/-- Whether a configuration record keeps to its layout (R423). -/
def recordGood (bs : List Byte) : Bool :=
  let word := fun (n : Nat) => field bs (0x38 + 8 * n) 8
  decide (0x1038 ≤ bs.length) && bs.length == 0x1038 + 4 * field bs 0x0B 1
    && bs.take 4 == [0x4B#8, 0x43#8, 0x46#8, 0x47#8] && field bs 4 2 == 1 && decide (field bs 6 2 < 512)
    && decide (1 ≤ field bs 8 2) && decide (field bs 8 2 ≤ 512) && decide (field bs 6 2 < field bs 8 2) && decide (field bs 0x0A 1 ≤ 1)
    && field bs 0x0C 4 == 0 && ((List.range 512).all fun n => decide (word n < 1024))
    && (List.range (field bs 0x0B 1)).all fun n => decide (field bs (0x1038 + 4 * n) 4 < 2 ^ 20)

/-- A configuration record, read (R423). -/
def recordOf (bs : List Byte) : ConfigRecord :=
  { module := field bs 6 2
    domain := field bs 8 2
    lock := field bs 0x0A 1 == 1
    seq := BitVec.ofNat 64 (field bs 0x10 8)
    addrs := [field bs 0x18 16, field bs 0x28 16]
    routes := (List.range 512).map fun n => BitVec.ofNat 10 (field bs (0x38 + 8 * n) 8)
    retire := (List.range (field bs 0x0B 1)).map fun n =>
      let w := field bs (0x1038 + 4 * n) 4
      { tile := w / 2 ^ 12 % 256, core := w / 2 ^ 9 % 8, segment := w % 512 } }

end Sys2Proof.Machine
end

