-- ==== Sys2Proof/Machine/Entries.lean ====
section
/-! DEFINITION. Sys2Proof/Machine/Entries.lean: what the queues hold (R127, R322, R335): the operations of vector, Porter and Cellar entries, and an entry whose queue is full. -/

namespace Sys2Proof.Machine

/-- A 64-bit register with its poison mark: psn holds the origin while the register is poisoned (R361). -/
structure Reg where
  val : Word := 0#64
  psn : Option Word := none
deriving DecidableEq, Repr

/-- A register that holds a clean zero. -/
def Reg.zero : Reg := {}

/-- A clean register. -/
def Reg.clean (v : Word) : Reg := { val := v }

/-- What a Porter descriptor says (R323): sizes and strides of its dimensions, bases, pattern, first position, and the barrier (core within the tile, number) and completion it asks for. -/
structure Desc where
  size  : List Nat := []
  ss    : List Word := []
  ds    : List Word := []
  src   : Word := 0#64
  dst   : Word := 0#64
  pattern : Word := 0#64
  patlen : Nat := 0
  start : Nat := 0
  irq   : Bool := false
  bar   : Option (Nat × Nat) := none
deriving DecidableEq, Repr

/-- Integer operations on array elements (R179). -/
inductive VInt where
  | add | sub | rsub | and | or | xor | sll | srl | sra | min | max | minu | maxu
  | mul | mulh | mulhu | sadd | saddu | ssub | ssubu | macc | abs | neg
deriving DecidableEq, Repr

/-- Integer conditions (R74, R180). -/
inductive Cond where
  | eq | ne | lt | le | ge | ltu | leu | geu
deriving DecidableEq, Repr

/-- Floating operations on array elements (R181). -/
inductive VFp where
  | add | sub | mul | div | sqrt | min | max | macc | abs | neg
deriving DecidableEq, Repr

/-- Floating conditions (R97, R182). -/
inductive FCond where
  | eq | lt | le
deriving DecidableEq, Repr

/-- The three conversions (R183). -/
inductive Cvt where
  | fcvt | quant | dequant
deriving DecidableEq, Repr

/-- Mask operations (R185). -/
inductive MOp where
  | and | or | xor | andn | not | set | clr
deriving DecidableEq, Repr

/-- Operations of VRED and VSCAN (R158, R190). -/
inductive RedOp where
  | sum | min | max | minu | maxu | and | or | xor | fsum | fmin | fmax
deriving DecidableEq, Repr

/-- The second source of a V-form instruction: a vector register, or a general register's value read in the scalar phase (R168). -/
inductive VSrc where
  | vec (r : VReg)
  | sc (v : Reg)
deriving DecidableEq, Repr

/-- Atomic operations of VAMO (R280). -/
inductive VAmoOp where
  | add | min | max | fadd
deriving DecidableEq, Repr

/-- One element access of a vector memory instruction: element, virtual address, tile-physical address, and whether a 2 MiB page maps it (R195, R257). -/
structure EAddr where
  e  : Nat
  va : Word
  pa : Nat
  big : Bool := false
deriving DecidableEq, Repr

/-- The queued part of a vector instruction (R127): what it will do, with every scalar operand already read. -/
inductive VOp where
  | int (op : VInt) (vd vs1 : VReg) (b : VSrc) (mk : VMask)
  | icmp (op : Cond) (md : MReg) (vs1 : VReg) (b : VSrc) (mk : VMask)
  | fp (op : VFp) (vd vs1 : VReg) (b : VSrc) (mk : VMask)
  | fcmp (op : FCond) (md : MReg) (vs1 : VReg) (b : VSrc) (mk : VMask)
  | cvt (k : Cvt) (vd vs1 : VReg) (tag : BitVec 5) (mk : VMask)
  | mask (op : MOp) (md ms1 ms2 : MReg) (mk : VMask)
  | mv (vd vs1 : VReg) (mk : VMask)
  | merge (vd vs1 : VReg) (b : VSrc) (mr : MReg)
  | bcast (vd : VReg) (v : Reg) (mk : VMask)
  | mvsx (vd : VReg) (v : Reg)
  | vid (vd : VReg) (mk : VMask)
  | shuf (vd vs1 vi : VReg) (mk : VMask)
  | slideup (vd vs1 : VReg) (k : Reg) (mk : VMask)
  | slidedn (vd vs1 : VReg) (k : Reg) (mk : VMask)
  | red (op : RedOp) (vd vs1 : VReg) (mk : VMask)
  | scan (op : RedOp) (vd vs1 : VReg) (mk : VMask)
  | compress (vd vs1 : VReg) (mr : MReg)
  | expand (vd vs1 : VReg) (mr : MReg)
  | load (vd : VReg) (els : List EAddr)
  | store (vs : VReg) (els : List EAddr)
  | loadLinked (vd : VReg) (els : List EAddr)
  | storeCond (vs : VReg) (mr : MReg) (els : List EAddr) (last : Bool)
  | amo (op : VAmoOp) (vs : VReg) (els : List EAddr)
  | repack (svc : List Nat)
  | mtmv (vd : VReg) (t : BitVec 2) (row : Nat) (mk : VMask)
  | mvtm (t : BitVec 2) (vs : VReg) (row : Nat) (mk : VMask)
  | clquery (vd vi : VReg) (ctl ew len : Nat)
deriving DecidableEq, Repr

/-- A frame that a job carries: the number of a 64 KiB virtual page, its physical address, and whether a 2 MiB page maps it (R256, R308). -/
structure Frame where
  page : Nat
  pa   : Nat
  big  : Bool := false
deriving DecidableEq, Repr

/-- The frames that a job carries (R308). -/
abbrev Frames := List Frame

/-- The far half of a block transfer (R334): the other job on this module that has the same transfer number, or a transfer with another module under an offer number. -/
inductive Partner where
  | here (n : Nat)
  | module (m oid : Nat)
deriving DecidableEq, Repr

/-- What a Porter job does (R322, R326, R334). -/
inductive PKind where
  | copy | fill
  | send (p : Partner)
  | recv (p : Partner)
deriving DecidableEq, Repr

/-- A value in a kernel with its poison (R361). -/
structure KVal where
  v   : BitVec 32 := 0#32
  psn : Option Word := none
deriving DecidableEq, Repr

/-- An entry of a kernel's page list (R342, R347); big says that a 2 MiB page maps it. -/
structure KPage where
  va    : Word
  w     : Bool
  frame : Nat
  big   : Bool := false
  stale : Bool := false
deriving DecidableEq, Repr

/-- A transport-triggered kernel (R342, R344); wrote is what it has stored so far, whose bytes count together for poison (R360). -/
structure Kernel where
  block  : Word
  priv   : BitVec 2
  code   : Nat
  budget : Nat
  used   : Nat := 0
  k      : Vector KVal 16 := Vector.replicate 16 {}
  g      : BitVec 8 := 1#8
  mi     : Nat
  aluA   : KVal := {}
  aluR   : KVal := {}
  cmpA   : KVal := {}
  cmpG   : Nat := 1
  tabT   : KVal := {}
  tabR   : KVal := {}
  memR   : KVal := {}
  memSA  : KVal := {}
  pages  : List KPage
  stalled : Bool := false
  wrote  : List WByte := []
deriving DecidableEq, Repr

/-- A Cellar job (R335). -/
inductive CKind where
  | load (table ew len : Nat) (src : Word) (fr : Frames)
  | kernel (k : Kernel)
deriving DecidableEq, Repr

/-- What a full queue keeps an instruction from placing (R127): its scalar phase is over, and this is enqueued in the i-cycle in which an entry frees. vec: the pieces of a vector instruction (R257), the stream registers it uses, the trap of the element that failed (R196), and whether its first piece empties the link set (R275); port: a copy or fill and its rd (R326); block: the offer of a block transfer (R334); cell: a Cellar job and its rd (R335); again: a matrix instruction, whose checks of the slot table belong to the i-cycle in which it is enqueued (R305, log entry 71). -/
inductive Pended where
  | vec (ops : List VOp) (uses : List Bool) (trap : Option (BitVec 8 × Word × Nat)) (unlink : Bool := false)
  | port (kind : PKind) (d : Desc) (rd : XReg)
  | block (send : Bool) (ep : Nat) (d : Desc) (rd : XReg)
  | cell (kind : CKind) (rd : XReg)
  | again
deriving DecidableEq, Repr

end Sys2Proof.Machine
end

