-- ==== Sys2Proof/Machine/Types.lean ====
section
/-! DEFINITION. Sys2Proof/Machine/Types.lean: the records State is made of: contexts, cores, lane partitions and their queues. -/

namespace Sys2Proof.Machine

/-- Why a context stopped (R110). -/
inductive StopReason where
  | exited | halted | double | joined
deriving DecidableEq, Repr

/-- The state of a context slot (R110). -/
inductive SlotState where
  | free
  | running
  | stopped (why : StopReason)
deriving DecidableEq, Repr

/-- What a RUNNING context waits on (R109); no means that it issues, resume that its wait is over and its instruction performs in this i-cycle (R112, R129). -/
inductive Wait where
  | no
  | resume
  | memReply
  | divide
  | fence
  | vectorOrder
  | queueFree (p : Pended)
  | drain
  | sleep
  | cstop (slot : Nat)
  | creap (slot : Nat)
  | joinl
  | hwm
  | ctwr (bank : BitVec 1)
  | reader (bank : BitVec 1)
  | streamIndex (which : Bool)
  | tlbinv (v : Word)
  | channel
  | barrier
  | scatter
  | job
  | place (p : Pended)
  | release
  | stopping (why : StopReason)
  | vfault (cause : BitVec 8) (val : Word) (f : Nat)
deriving DecidableEq, Repr

/-- What an offer carries (R209, R334). -/
inductive OKind where
  | word | vector | block
deriving DecidableEq, Repr

/-- A pending send or receive on an endpoint (R209): the word a send carries or the register a receive writes, the guard index under SELECT, and the number a remote offer has (R415). -/
structure Offer where
  ep    : Nat
  send  : Bool
  kind  : OKind
  data  : Word := 0#64
  reg   : BitVec 5 := 0#5
  guard : Nat := 0
  oid   : Nat := 0
deriving DecidableEq, Repr

/-- Which channel instruction waits (R211, R212, R215, R334). -/
inductive ChOp where
  | send (rd : XReg)
  | recv (rd rt : XReg)
  | sendv (rd : XReg)
  | recvv (rt : XReg)
  | select (rd rt : XReg)
  | block (rd : XReg) (send : Bool) (d : Desc) (priv : BitVec 2)
deriving DecidableEq, Repr

/-- What keeps a waiting channel instruction's offers from meeting (R416): nothing; its own stop or interrupt, once other modules have given its offers back; the choice of a guard here, or the release of a knot of some size (R223), which wait for the same; or rows on their way to it. -/
inductive Hold where
  | no
  | leaving
  | choosing
  | released (reach : Nat)
  | landing
deriving DecidableEq, Repr

/-- A channel instruction that has offered (R217): its word, its operation, its offers, what holds them, and which offers, by number, stand at which other modules (R416). -/
structure Pending where
  op     : ChOp
  offers : List Offer
  word   : Insn
  hold   : Hold := .no
  away   : List (Nat × Nat) := []
deriving DecidableEq, Repr

/-- Whether an instruction's offers may meet (R416). -/
def Pending.held (p : Pending) : Bool := p.hold != .no

/-- The tag of a deadlock computation (R221): initiator, its CHBSEQ, TRY. -/
structure ProbeTag where
  ictx : Nat
  iseq : Nat
  try_ : Nat
deriving DecidableEq, Repr

/-- Where a query came from: the initiator itself, a context of this module under a query number, or another module (R221, R415). -/
inductive ProbeFrom where
  | here (ctx : Nat)
  | module (m : Nat) (qid : Nat)
deriving DecidableEq, Repr

/-- An engagement record (R221): the parent, the CHBSEQ at engagement, the queries not yet answered, whether an ACTIVE or a BUSY answer has come, and how many contexts the computation has reached below. -/
structure Engage where
  tag    : ProbeTag
  parent : ProbeFrom
  seq    : Nat
  left   : Nat
  active : Bool := false
  busy   : Bool := false
  reach  : Nat := 0
deriving DecidableEq, Repr

/-- The attach state of a core (R295). -/
inductive Attach where
  | detached | attached | detaching
deriving DecidableEq, Repr

/-- How a job ended (R328, R348): its identifier, status, the detail of PFSTAT and PFADDR or of CLFSTAT, and whether it was a kernel. -/
structure JobEnd where
  id     : Nat
  status : Nat
  detail : Word := 0#64
  addr   : Word := 0#64
  kernel : Bool := false
deriving DecidableEq, Repr

/-- One context slot (R16, R17 and the registers that later chapters give each context). The dep fields are the markers of FENCE.Q: the entries that later entries of each queue wait for, and the scope of the join (R94). -/
structure Ctx where
  slot      : SlotState := .free
  x         : Vector Reg 32 := Vector.replicate 32 Reg.zero
  shadow    : Vector Reg 8 := Vector.replicate 8 Reg.zero
  p         : Vector Bool 8 := Vector.replicate 8 false
  pc        : Word := 0#64
  pfx       : Option Insn := none
  ipend     : BitVec 3 := 0#3
  ien       : BitVec 5 := 0#5
  dbl       : Bool := false
  pfxBit    : Bool := false
  intrap    : Bool := false
  pie       : Bool := false
  ie        : Bool := false
  ppriv     : BitVec 2 := 0#2
  priv      : BitVec 2 := 0#2
  pfxsave   : BitVec 32 := 0#32
  trapcause : BitVec 8 := 0#8
  trappc    : Word := 0#64
  trapval   : Word := 0#64
  trapvec   : Word := 0#64
  trapscr   : Word := 0#64
  ccmp      : Word := 0xFFFFFFFFFFFFFFFF#64
  preemptVal : Word := 0#64
  laneVal   : Word := 0#64
  thermVal  : Word := 0#64
  saveFull  : Option Word := none
  exitv     : Reg := Reg.zero
  wait      : Wait := .no
  stopReq   : Bool := false
  ready     : Nat := 0
  xlLevel   : BitVec 4 := 0#4
  xlReason  : BitVec 4 := 0#4
  selpos    : BitVec 4 := 0xF#4
  chbseq    : Nat := 0
  mjoblast  : Word := 0#64
  pjoblast  : Word := 0#64
  cjoblast  : Word := 0#64
  pfstat    : Word := 0#64
  pfaddr    : Word := 0#64
  clfstat   : Word := 0#64
  uivec     : Word := 0#64
  uipc      : Word := 0#64
  uijob     : Word := 0#64
  uiActive  : Bool := false
  uiStatus  : BitVec 8 := 0#8
  clist     : List JobEnd := []
  places    : Nat := 0
  depVec : List (Nat × Nat) := []
  depMat : List (Nat × Nat) := []
  depPort : List (Nat × Nat) := []
  depCell : List (Nat × Nat) := []
  chan      : Option Pending := none
  blocked   : Bool := false
  engaged   : List Engage := []
  comp      : Option Engage := none
  uword     : Insn := 0#32
deriving DecidableEq, Repr

/-- A context at its start (R28): registers zero, predicates false, control registers at their reset values. -/
def Ctx.start (pc : Word) (priv : BitVec 2) : Ctx := { slot := .running, pc := pc, priv := priv }

/-- A FREE slot: it holds no state (R110). -/
def Ctx.free : Ctx := {}

/-- A write that a core holds at CORE and that has not performed at TILE (R262). lanes names, once for each element of a scatter, the physical lane that sent it (R289); stamp is the queue entry's (0 for a scalar store); by_ is the context whose write it is; with_ is what the same instruction wrote before, whose bytes count together for poison (R360). -/
structure PWrite where
  bytes : List WByte
  lanes : List Nat := []
  stamp : Nat := 0
  by_   : Nat := 0
  with_ : List WByte := []
deriving DecidableEq, Repr

/-- A translation held in a TLB (R255): the page's first address divided by 2^16, whether it is a 2 MiB page, and the entry. -/
structure TlbEntry where
  page  : Nat
  big   : Bool
  entry : Word
deriving DecidableEq, Repr

/-- An entry of a partition's vector queue with what the scalar phase read: VL, VTYPE, VSBASE, VSEED and the latched bank (R168). by_ is the context that placed it, stamp its number among all queue entries; after lists the entries that a FENCE.Q makes it wait for, and the scope of the join (R94); uses names the stream registers that it waits for and consumes, but leaves full under keep (R213, R196). iv is its strip interval (R266). Once a memory entry is in flight its op lists the elements that it has yet to perform, data what a store read of its register, by element, and wrote what it has written (R197, R360). -/
structure VEntry where
  op     : VOp
  vl     : Nat
  vtype  : BitVec 18
  vsbase : Word
  vseed  : Word
  bank   : BitVec 1
  stamp  : Nat
  by_    : Nat
  after  : List (Nat × Nat) := []
  uses   : List Bool := []
  keep   : Bool := false
  iv     : Nat := 0
  data   : AMap (Nat × Bool) := []
  wrote  : List WByte := []
deriving DecidableEq, Repr

/-- A stream register's state (R203): the fields of STRSTAT. -/
structure Stream where
  bound  : Bool := false
  full   : Bool := false
  closed : Bool := false
  short  : Bool := false
  dlk    : Bool := false
  ep     : BitVec 10 := 0#10
deriving DecidableEq, Repr

/-- A lane partition (R124) with its partition registers (R137). queue holds the entries not yet begun, fly the memory entries of which some elements have yet to perform (R265 row 10), iv the number of the strip interval (R266). -/
structure Part where
  base   : Nat
  pairs  : Nat
  owner  : Option Nat
  vtype  : BitVec 18 := 0#18
  vl     : Nat := 0
  vlmax  : Nat := 0
  vsbase : Word := 0#64
  vseed  : Word := 0#64
  vfidx  : Nat := 0
  vflags : BitVec 6 := 0#6
  densEn : Bool := false
  held   : Nat := 0
  thresh : BitVec 16 := 0#16
  hwmEn  : Bool := false
  hwmH   : BitVec 3 := 0#3
  bank   : BitVec 1 := 0#1
  vgrant : Nat := 0
  vporig : Word := 0#64
  str0   : Stream := {}
  str1   : Stream := {}
  clRange : Bool := false
  svc    : List Nat := []
  lanes  : Nat := 0
  queue  : List VEntry := []
  fly    : List VEntry := []
  iv     : Nat := 0
  links  : List (Nat × Bool) := []
deriving DecidableEq, Repr

/-- A lane's 16 rows of one register, and which of them are marked poisoned (R133, R362). -/
structure Rows where
  bits : BitVec 16
  psn  : BitVec 16 := 0#16
deriving DecidableEq, Repr

/-- A shared register (R115) with the writes not yet old enough to be seen by every issue (R117): issue i-cycle and value, newest first. -/
structure HVal where
  val    : Reg := Reg.zero
  recent : List (Nat × Reg) := []
deriving DecidableEq, Repr

/-- A named barrier (R282). -/
structure Barrier where
  init    : Bool := false
  scope   : BitVec 2 := 0#2
  err     : Bool := false
  target  : Nat := 0
  count   : Nat := 0
  pending : Nat := 0
  phase   : Nat := 0
deriving DecidableEq, Repr

/-- One core (05, 06, 11, 13, 19): its i-cycle counter and what its contexts share. -/
structure Core where
  cyc      : Nat := 0
  h        : Vector HVal 8 := Vector.replicate 8 {}
  forkmask : BitVec 16 := 0#16
  vmode    : BitVec 2 := 0#2
  vseed    : Word := 0#64
  arr      : AMap (AMap Rows) := []
  epoch    : Nat := 0
  ctA      : AMap (BitVec 19) := []
  ctB      : AMap (BitVec 19) := []
  ctsel    : BitVec 1 := 0#1
  parts    : List Part := []
  segErr   : AMap Nat := []
  retired  : List Nat := []
  parity   : List (Nat × Nat) := []
  logv     : Bool := false
  logreg   : BitVec 5 := 0#5
  loglane  : BitVec 16 := 0#16
  pair     : BitVec 3 := 0#3
  wayue    : Nat := 0
  wayce    : Nat := 0
  stretch  : Nat := 0
  droops   : Nat := 0
  tlb      : List TlbEntry := []
  l1i      : AMap Line := []
  buf      : List PWrite := []
  hold     : Bool := false
  barriers : AMap Barrier := []
  kroot    : BitVec 19 := 0#19
  mstate   : Attach := .detached
  mrows    : Nat := 0
  mjob     : Nat := 0
  pjob     : Nat := 0
  cjob     : Nat := 0
  pended   : List JobEnd := []
  cended   : List JobEnd := []
  hbmSel   : BitVec 3 := 0#3
deriving DecidableEq, Repr

/-- The power state of a tile (R399, R400). -/
inductive PowerState where
  | on | quiescing | quiet | gating | gated | waking
deriving DecidableEq, Repr

/-- A tile power block (R399). -/
structure Power where
  st       : PowerState := .on
  err      : Nat := 0
  retained : Bool := false
  lanecap  : BitVec 17 := 65536#17
  ramp     : BitVec 8 := 0xFF#8
  budget   : BitVec 8 := 0xFF#8
deriving DecidableEq, Repr

/-- The temperature state of a die (R393, R394). -/
inductive DieState where
  | normal | warn | slow | halt
deriving DecidableEq, Repr

/-- A die's sensor: THERM_DIE_n (R391). -/
structure Die where
  st   : DieState := .normal
  temp : BitVec 10 := 0#10
  peak : BitVec 10 := 0#10
deriving DecidableEq, Repr

/-- An HBM4 stack's sensor and refresh regime (R396). -/
structure HbmStack where
  temp   : BitVec 10 := 0#10
  regime : BitVec 2 := 0#2
deriving DecidableEq, Repr

end Sys2Proof.Machine
end

