-- ==== Sys2Proof/Machine/Units.lean ====
section
/-! DEFINITION. Sys2Proof/Machine/Units.lean: the records of a tile's engines (15, 16), of channels and the Innkeeper (08, 09, 19), of links, host ports and boot (24), and of a tile. -/

namespace Sys2Proof.Machine

/-- The claim state of an operand slot (R305): by a core of the tile. -/
inductive Claim where
  | free
  | claimed (core : Nat)
  | releasing (core : Nat)
deriving DecidableEq, Repr

/-- The contents state of an operand slot (R305); a format is its code of R314. -/
inductive Contents where
  | empty
  | denseA (fmt : BitVec 2)
  | sparseA (header : Word)
  | denseB (fmt : BitVec 2)
deriving DecidableEq, Repr

/-- An operand element: its code and whether it is poisoned. -/
abbrev OpEl := Nat × Bool

/-- An operand slot (R294): its contents as the queue will have given them (R305), the contents that its elements have now, elements by row, the index of each value of a sparse row, and E8M0 scales by row (of A) or by block (of B). -/
structure OpSlot where
  claim    : Claim := .free
  contents : Contents := .empty
  held     : Contents := .empty
  els      : List (List OpEl) := []
  idx      : List (List Nat) := []
  scales   : List (List OpEl) := []
deriving DecidableEq, Repr

/-- A matrix job (R299). -/
inductive MOpk where
  | attach (rows : Nat)
  | detach
  | release (slot : Nat)
  | load (slot : Nat) (isA : Bool) (fmt : BitVec 2) (sparse : Option (Word × List (List Nat))) (base stride : Word) (fr : Frames)
  | zero (t g : Nat)
  | mop (t a b rows cols klen : Nat) (z : Bool) (step : Nat)
  | tld (t g : Nat) (base stride : Word) (fr : Frames)
  | tst (t g : Nat) (base stride : Word) (half : Bool) (fr : Frames)
  | prune (dst src : Nat) (header : Word)
deriving DecidableEq, Repr

/-- An entry of the matrix job queue (R299): core key, identifier, the context that placed it, and the entries that FENCE.Q makes it wait for. lat is the latency of a MOP (R313, R317); got holds the lines that a load has read ahead of its end, put the lines that a store has written (R260). -/
structure MJob where
  core  : Nat
  id    : Nat
  ctx   : Nat
  op    : MOpk
  stamp : Nat
  lat   : Nat := 0
  after : List (Nat × Nat) := []
  got   : AMap Line := []
  put   : List Nat := []
deriving DecidableEq, Repr

/-- The issue governor (R320): issues in this window and the last, held cycles, and the limits in force. -/
structure Governor where
  this   : Nat := 0
  last   : Nat := 0
  stalls : Nat := 0
  ramp   : BitVec 8 := 0xFF#8
  budget : BitVec 8 := 0xFF#8
deriving DecidableEq, Repr

/-- An entry of the Porter queue (R322): pos is the first position not yet performed; got holds payload bytes that have arrived from another module and wait to be written, wrote what the job has written so far, whose bytes count together for poison (R360). -/
structure PJob where
  core  : Nat
  id    : Nat
  ctx   : Nat
  priv  : BitVec 2
  kind  : PKind
  desc  : Desc
  pos   : Nat
  stamp : Nat
  got   : List (Byte × Bool) := []
  wrote : List WByte := []
  after : List (Nat × Nat) := []
deriving DecidableEq, Repr

/-- An entry of the Cellar queue (R335); got holds the lines that a load has read ahead of its end (R260). -/
structure CJob where
  core  : Nat
  id    : Nat
  ctx   : Nat
  kind  : CKind
  stamp : Nat
  after : List (Nat × Nat) := []
  got   : AMap Line := []
deriving DecidableEq, Repr

/-- A LOADED table (R335). -/
structure CTable where
  ew  : Nat
  len : Nat
deriving DecidableEq, Repr

/-- Where a tile stands in its process (R235): its launch tag, PLACEIDX and LAUNCHVA. -/
structure Place where
  ltag  : Word
  cores : Nat
  tiles : Nat
  index : Nat
  va    : Word
deriving DecidableEq, Repr

/-- The engines of a tile (15, 16): operand slots, accumulator rows (listed under ((core % 8) * 4 + t) * 128 + row; an unlisted row is +0), the matrix queue and governor, the Porter queue and the places reserved in it for each core, the Cellar tables and queue. -/
structure Engines where
  slots : AMap OpSlot := []
  acc   : AMap (List (BitVec 32 × Bool)) := []
  mq    : List MJob := []
  gov   : Governor := {}
  pq    : List PJob := []
  pres  : AMap Nat := []
  tabs  : AMap CTable := []
  cq    : List CJob := []
deriving DecidableEq, Repr

/-- The state in which a core's agent holds a line (R247). -/
inductive Moesi where
  | m | o | e | s
deriving DecidableEq, Repr

/-- A line held by a core's agent (R245, R247): its state, whether its L1D has a copy, and the way of its way cache that has one. -/
structure Held where
  st  : Moesi
  l1  : Bool := false
  way : Option Nat := none
deriving DecidableEq, Repr

/-- A line whose newest data HBM4 lacks (R246): what HBM4 holds of it, and the contexts whose stores left it so. -/
structure Dirty where
  hbm : Line
  by_ : List Nat := []
deriving DecidableEq, Repr

/-- One tile (11): its memory as TILE scope sees it, the lines of which HBM4 holds older data, the directory (the cores that hold each line, R247), undiscovered HBM4 errors, its page-table root, walker cache, layer gates, error counts, engines, and the process placed on it. -/
structure Tile where
  mem    : Memory := Memory.empty
  old    : AMap Dirty := []
  dir    : AMap (AMap Held) := []
  latent : List Nat := []
  root   : BitVec 19 := 0#19
  walker : List (Nat × Word) := []
  top    : Bool := false
  mat    : Bool := false
  cell   : Bool := false
  hbmue  : Nat := 0
  hbmce  : Nat := 0
  eng    : Engines := {}
  place  : Option Place := none
deriving DecidableEq, Repr

/-- Who holds an endpoint (R202). -/
inductive EpState where
  | unbound
  | bound (ctx : Nat)
  | stream (ctx : Nat) (which : Bool)
  | closed (holder : Option Nat)
deriving DecidableEq, Repr

/-- A connected endpoint (R202, R229): its state, the far end (the tag of its launch and its number), the policy, the shared register that a sink writes (core of the tile, tile index, register), and whether another home has yet to answer a JOIN for it (R418). -/
structure Endpoint where
  st     : EpState := .unbound
  ptag   : Word
  pep    : Nat
  resume : Bool := false
  sink   : Option (Nat × Nat × Nat) := none
  joining : Bool := false
deriving DecidableEq, Repr

/-- A segment entry (R228). -/
structure Segment where
  va   : Word
  size : Nat
  src  : Nat
  flen : Nat
  perm : BitVec 4
deriving DecidableEq, Repr

/-- A channel entry (R229). -/
structure Channel where
  ep   : Nat
  pep  : Nat
  resume : Bool
  self : Bool
  sink : Option (Nat × Nat × Nat)
  ptag : Word
deriving DecidableEq, Repr

/-- A launch record, read (R226, R227). -/
structure Launch where
  prio   : Nat
  mode   : BitVec 2
  ltag   : Word
  entry  : Word
  ccb    : Word
  layers : BitVec 3
  spriv  : Bool
  levels : List (Nat × Nat × Nat)
  preds  : List Word
  segs   : List Segment
  chans  : List Channel
deriving DecidableEq, Repr

/-- The state of a queue entry (R231). -/
inductive EState where
  | queued | dispatching | running | done | cancelled
deriving DecidableEq, Repr

/-- The outcome of a queue entry (R231). -/
inductive Outcome where
  | none | exited | double | killed | cancelledQueued | cancelledRunning | predFailed
deriving DecidableEq, Repr

/-- A knot record (R240). -/
structure Knot where
  lseq   : Nat
  ctxid  : Word
  seq    : Nat
  word   : Insn
  reached : Nat
  resume : Bool
deriving DecidableEq, Repr

/-- What a switch put aside (R376): contexts, cores, by tile engines, gates and place, and by tile the lines of the LOADED tables' rows. -/
structure Saved where
  ctxs  : AMap Ctx := []
  cores : AMap Core := []
  tiles : AMap (Engines × BitVec 3 × Place × BitVec 19) := []
  rows  : AMap (AMap Line) := []
deriving DecidableEq, Repr

/-- The steps of a launch on several modules (R418): 0 admitting, 1 admitted, 2 reserving, 3 reserved or placing, 4 running, 5 switching, 6 parked, 7 reserving for a restore, 8 restoring, 9 ending. left lists the modules that have yet to answer, in order; bad and need keep the worst judgement so far, and at a member bad says that PLACE or RESTORE has come; reply names the host request that waits. -/
structure Members where
  home   : Nat
  step   : Nat := 0
  left   : List Nat := []
  bad    : Nat := 0
  need   : Nat := 0
  reply  : Option (Nat × Word) := none
deriving DecidableEq, Repr

/-- A queue entry (R231) with its record, image and process: lseq 0 marks a shadow (R418). hot says that a parked far end was asked for (R219, R237); kill that a cancel waits for the placement (R238); switching that its contexts are being stopped for a switch (R374), whose judgement status and need then hold; early that a slot 0 stopped before every module had placed its part. -/
structure Entry where
  lseq   : Nat
  rec_   : Launch
  bytes  : List Byte
  imgOff : Nat
  imgLen : Nat
  region : Nat
  st     : EState := .queued
  outcome : Outcome := .none
  resident : Bool := false
  exit   : BitVec 32 := 0#32
  knots  : Nat := 0
  cause  : BitVec 8 := 0#8
  tiles  : List Nat := []
  frames : AMap (List Nat) := []
  eps    : AMap Endpoint := []
  log    : List Knot := []
  saved  : Option Saved := none
  hot    : Bool := false
  kill   : Bool := false
  ended  : Nat := 0
  multi  : Option Members := none
  switching : Bool := false
  status : Nat := 0
  need   : Nat := 0
  early  : Option (Outcome × BitVec 32 × BitVec 8) := none
deriving DecidableEq, Repr

/-- A query or an answer on its way between channel units of this module (R221): the tag, whom it reaches, from whom, and for an answer its result and how many contexts it stands for. -/
inductive Probe where
  | query (tag : ProbeTag) (dst : Nat) (frm : ProbeFrom)
  | answer (tag : ProbeTag) (dst : Nat) (res : Nat) (reach : Nat)
deriving DecidableEq, Repr

/-- The state of a Vamet link (R411). -/
inductive LState where
  | down | training | up
deriving DecidableEq, Repr

/-- A flit that waits for a link to have fewer than 2,048 unacknowledged ones (R410): source, destination, kind, payload and its poisoned bytes. -/
structure Unsent where
  src : Nat
  dst : Nat
  kind : Nat
  payload : List Byte
  marks : List Nat := []
deriving DecidableEq, Repr

/-- A link end (R409, R410): the next FTAG to send and to expect, the flits kept until acknowledged and those that wait for room among them, NAKs in a row that have come and that have been sent, and whether a NAK has been sent that no flit has met yet. -/
structure Link where
  st       : LState := .down
  replays  : Nat := 0
  retrains : Nat := 0
  tx       : Nat := 0
  rx       : Nat := 0
  kept     : List Flit := []
  unsent   : List Unsent := []
  naks     : Nat := 0
  refused  : Nat := 0
  waiting  : Bool := false
deriving DecidableEq, Repr

/-- A message to or from another module: its kind, its body, and which bytes of the body were read as poisoned (R334, R415). -/
structure Msg where
  kind  : Nat
  body  : List Byte
  marks : List Nat := []
deriving DecidableEq, Repr

/-- The end-to-end state towards one other module (R413, R414): number of the last message sent, messages kept, number of the last one delivered, messages ahead of it, and whether an EACK is owed. -/
structure Peer where
  sent  : Nat := 0
  kept  : List (Nat × Msg) := []
  got   : Nat := 0
  early : List (Nat × Msg) := []
  owed  : Bool := false
deriving DecidableEq, Repr

/-- An offer that another module's channel unit has made to an endpoint here (R416). -/
structure Remote where
  src   : Nat
  ltag  : Word
  ep    : Nat
  kind  : OKind
  oid   : Nat
  data  : Word := 0#64
  lanes : Nat := 0
  total : Nat := 0
  start : Nat := 0
deriving DecidableEq, Repr

/-- A vector transfer between modules that has met and whose rows are still coming (R415, R416): the context and register where they land, or its stream register, the status of both sides, how many lanes, and the bytes so far. -/
structure Inbound where
  src   : Nat
  oid   : Nat
  ctx   : Nat
  reg    : VReg
  stream : Option Bool := none
  status : Nat
  lanes  : Nat
  bytes : List Byte
deriving DecidableEq, Repr

/-- A held region of staging memory (R421): place, size, key, whether the host has released it, and whether a host staged it at all (a member holds an image in one that no host can name, R418). -/
structure Region where
  off  : Nat
  size : Nat
  rkey : BitVec 32
  released : Bool := false
  host : Bool := true
deriving DecidableEq, Repr

/-- A reply to a host (R419). -/
structure Reply where
  reqid  : Word
  op     : BitVec 16
  status : Nat
  body   : List Byte
deriving DecidableEq, Repr

/-- A host source (R420): one more than the highest request run, and the last 64 replies. -/
structure HostSrc where
  next    : Nat := 0
  replies : List Reply := []
deriving DecidableEq, Repr

/-- An action of the ballast loop (R397). -/
inductive BallastAct where
  | dispatch (lseq : Nat)
  | restore (lseq : Nat)
  | preempt (lseq : Nat)
deriving DecidableEq, Repr

/-- The ballast loop (R397): the action that runs, and whether one has completed since the last update. -/
structure Ballast where
  act    : Option BallastAct := none
  recent : Bool := false
deriving DecidableEq, Repr

/-- What a port answers to an RDMA packet (R421): an acknowledgement, a refusal, or a Congestion Notification Packet. -/
inductive RdmaAck where
  | ack | invalidRequest | remoteAccess | congestion
deriving DecidableEq, Repr

/-- An RDMA WRITE of several packets on a queue pair (R421): its key and where its next packet lands. -/
structure RdmaRun where
  rkey : BitVec 32
  addr : Nat
deriving DecidableEq, Repr

/-- Boot, identity and security (R411, R422 to R425): the ports' addresses, the digest of the firmware, the identity seed and public modulus, and in signing the attestation reports that are being signed, each with the request it answers. -/
structure Security where
  up      : Bool := false
  halted  : Bool := false
  module  : Nat := 0
  domain  : Nat := 1
  lock    : Bool := false
  locked  : Bool := false
  ident   : Bool := false
  alarms  : Nat := 0
  seq     : Word := 0#64
  addrs   : List Nat := []
  fw      : List Byte := []
  seed    : List Byte := []
  modulus : List Byte := []
  signing : List (Nat × Word × List Byte) := []
deriving DecidableEq, Repr

end Sys2Proof.Machine
end

