-- ==== Sys2Proof/Machine/State.lean ====
section
/-! DEFINITION. Sys2Proof/Machine/State.lean: the whole machine as plain data, the reasons a step can stop, and the state after reset. -/

namespace Sys2Proof.Machine

/-- What the schedule says moves next. The spec leaves the order of agents, arrival times and errors of nature open (R12, R90, R246, R365); a schedule is the MODEL's own way to say which of them happens (log entry 2). -/
inductive Act where
  | issue (core : Nat)
  | event (i : Instr)
  | idle (core n : Nat)
  | delay (ctx n : Nat)
  | hold (core : Nat) (on : Bool)
  | perform (core n : Nat)
  | writeBack (tile line : Nat)
  | evictTlb (core n : Nat)
  | evictWalker (tile n : Nat)
  | evictL1i (core line : Nat)
  | evict (core line : Nat)
  | demote (core line : Nat)
  | launch (core base : Nat)
  | element (core base i j : Nat)
  | matrixLine (tile n : Nat)
  | cellarLine (tile n : Nat)
  | stretch (stack n : Nat)
  | idleFlit (link : Nat) (f : Flit)
  | hbmError (tile line : Nat)
  | hbmCorrected (tile : Nat)
  | wayCorrected (core : Nat)
  | wayError (core addr : Nat)
  | operandError (tile slot row n : Nat) (scale : Bool)
  | accError (tile key n : Nat)
  | parityError (core reg lane : Nat)
deriving DecidableEq, Repr

/-- The machine: one module (R1). -/
structure State where
  cur   : Nat := 0
  iw    : Insn := 0#32
  sched : List Act := []
  fresh : Nat := 0
  ctxs  : AMap Ctx := []
  cores : AMap Core := []
  tiles : AMap Tile := []
  kmem  : Memory := Memory.empty
  routes : AMap (BitVec 10) := []
  power : AMap Power := []
  dies  : AMap Die := []
  hbm   : AMap HbmStack := []
  droop : List Nat := []
  pkgPower : BitVec 16 := 0#16
  floor : BitVec 16 := 0#16
  ballast : Ballast := {}
  kstopped : BitVec 4 := 0#4
  nextLseq : Nat := 1
  entries : List Entry := []
  probes : List Probe := []
  links : AMap Link := []
  peers : AMap Peer := []
  transit : List Flit := []
  remotes : List Remote := []
  inbound : List Inbound := []
  regions : List Region := []
  hosts : AMap HostSrc := []
  sent  : List (Nat × List Byte) := []
  qperr : List Nat := []
  qpruns : AMap RdmaRun := []
  acks  : List (Nat × RdmaAck) := []
  sec   : Security := {}
deriving DecidableEq, Repr

/-- The reasons a run stops with a fault. The spec gives every fault as a trap, a status or a mark (R24, R359), so no meaning raises one. -/
inductive Fault where
  /-- Raised by no one: safe. -/
  | none
deriving DecidableEq, Repr

/-- The reasons the model has no meaning for an instruction. -/
inductive Refusal where
  /-- Raised by a refused arm of exec for a row that has no meaning yet: safe, since a run stops there. -/
  | notModelled (mnemonic : String)
deriving DecidableEq, Repr

/-- The outcome of a meaning. -/
abbrev Out := Host.Outcome State Fault Refusal

/-- The machine right after reset (R422): keeper core 0 runs the boot ROM at M, every other context is stopped, and every field holds its reset value. The pc of the ROM is not stated (log entry 4). -/
def State.reset : State := { ctxs := [(32768, Ctx.start 0#64 3#2)] }

end Sys2Proof.Machine
end

