-- ==== Sys2Proof/Machine/Access.lean ====
section
/-! DEFINITION. Sys2Proof/Machine/Access.lean: the keys of contexts, cores and tiles, and the one way to read and write each of them and the registers they hold. -/

namespace Sys2Proof.Machine

/-- The core of a context key (CTXID bits [15:4], R17). -/
def coreOf (c : Nat) : Nat := c / 16

/-- The tile of a core key. -/
def tileOfCore (k : Nat) : Nat := k / 8

/-- The tile of a context key (CTXID bits [14:7]). -/
def tileOf (c : Nat) : Nat := c / 128

/-- The slot of a context key (CTXID bits [3:0]). -/
def slotOf (c : Nat) : Nat := c % 16

/-- The first core key of the keeper cores (CTXID bit 15). -/
def keeperCore0 : Nat := 2048

/-- Whether a core is a keeper core (R21). -/
def isKeeperCore (k : Nat) : Bool := keeperCore0 ≤ k

/-- Whether a context runs on a keeper core. -/
def isKeeper (c : Nat) : Bool := isKeeperCore (coreOf c)

def State.ctx (s : State) (c : Nat) : Ctx := s.ctxs.get c Ctx.free

def State.core (s : State) (k : Nat) : Core := s.cores.get k {}

def State.tile (s : State) (t : Nat) : Tile := s.tiles.get t {}

def State.setCtx (s : State) (c : Nat) (x : Ctx) : State := { s with ctxs := s.ctxs.set c x }

def State.setCore (s : State) (k : Nat) (x : Core) : State := { s with cores := s.cores.set k x }

def State.setTile (s : State) (t : Nat) (x : Tile) : State := { s with tiles := s.tiles.set t x }

/-- Change one context. -/
def State.updCtx (s : State) (c : Nat) (f : Ctx → Ctx) : State := s.setCtx c (f (s.ctx c))

/-- Change one core. -/
def State.updCore (s : State) (k : Nat) (f : Core → Core) : State := s.setCore k (f (s.core k))

/-- Change one tile. -/
def State.updTile (s : State) (t : Nat) (f : Tile → Tile) : State := s.setTile t (f (s.tile t))

/-- The context that issues. -/
def State.me (s : State) : Ctx := s.ctx s.cur

/-- Change the context that issues. -/
def State.updMe (s : State) (f : Ctx → Ctx) : State := s.updCtx s.cur f

/-- The core of the context that issues. -/
def State.myCore (s : State) : Core := s.core (coreOf s.cur)

/-- Change the core of the context that issues. -/
def State.updMyCore (s : State) (f : Core → Core) : State := s.updCore (coreOf s.cur) f

/-- The tile of the context that issues. -/
def State.myTile (s : State) : Tile := s.tile (tileOf s.cur)

/-- The i-cycle of the issue in progress: CCLK of its core (R29). -/
def State.now (s : State) : Nat := s.myCore.cyc

/-- Register xn of a context: x0 reads as zero (R16). -/
def Ctx.getX (c : Ctx) (r : XReg) : Reg := if r = 0#5 then Reg.zero else c.x[r.toNat]'(r.isLt)

/-- Write register xn of a context: a write to x0 is discarded (R16). -/
def Ctx.setX (c : Ctx) (r : XReg) (v : Reg) : Ctx :=
  if r = 0#5 then c else { c with x := c.x.set r.toNat v r.isLt }

/-- Predicate pn of a context: p0 reads as true (R16). -/
def Ctx.getP (c : Ctx) (q : PReg) : Bool := if q = 0#3 then true else c.p[q.toNat]'(q.isLt)

/-- Write predicate pn of a context: a write to p0 is discarded (R16). -/
def Ctx.setP (c : Ctx) (q : PReg) (v : Bool) : Ctx :=
  if q = 0#3 then c else { c with p := c.p.set q.toNat v q.isLt }

/-- Register xn of the context that issues. -/
def State.x (s : State) (r : XReg) : Reg := s.me.getX r

/-- Predicate pn of the context that issues. -/
def State.p (s : State) (q : PReg) : Bool := s.me.getP q

/-- Write register xn of the context that issues. -/
def State.setX (s : State) (r : XReg) (v : Reg) : State := s.updMe fun c => c.setX r v

/-- Write predicate pn of the context that issues. -/
def State.setP (s : State) (q : PReg) (v : Bool) : State := s.updMe fun c => c.setP q v

/-- The copy register that the pending prefix lends, if it does (R49). -/
def copyReg (c : Ctx) : Option XReg :=
  match c.pfx with
  | some w => if w.getLsbD 21 then some (w.extractLsb' 16 5) else none
  | none => none

/-- Write an instruction's result: rd, and at the same moment the copy register of its prefix (R51). -/
def State.writeRd (s : State) (rd : XReg) (v : Reg) : State :=
  s.updMe fun c =>
    match copyReg c with
    | some r => (c.setX rd v).setX r v
    | none => c.setX rd v

/-- ValueSeen of R117: the latest write at least six i-cycles old, else the value before them all. -/
def HVal.seen (h : HVal) (t : Nat) : Reg :=
  match h.recent.find? fun w => w.1 + 6 ≤ t with
  | some w => w.2
  | none => h.val

/-- A MOVH that issues in i-cycle t (R117): what is old by then folds into the value, and the new write leads the rest. -/
def HVal.write (h : HVal) (t : Nat) (v : Reg) : HVal :=
  { val := h.seen t, recent := (t, v) :: h.recent.filter fun w => !decide (w.1 + 6 ≤ t) }

/-- A shared register of a core. -/
def Core.hreg (k : Core) (r : HReg) : HVal := k.h[r.toNat]'(r.isLt)

/-- Replace a shared register of a core. -/
def Core.setHreg (k : Core) (r : HReg) (v : HVal) : Core := { k with h := k.h.set r.toNat v r.isLt }

/-- The partition that the context in a slot owns, if any (R124). -/
def Core.partOf (k : Core) (slot : Nat) : Option Part := k.parts.find? fun p => p.owner == some slot

/-- The entries of a partition that have not completed, oldest first: those in flight, then those not yet begun (R128). -/
def Part.pending (p : Part) : List VEntry := p.fly ++ p.queue

/-- Change the partition with a base. -/
def Core.updPart (k : Core) (base : Nat) (f : Part → Part) : Core :=
  { k with parts := k.parts.map fun p => if p.base = base then f p else p }

/-- The partition of the context that issues. -/
def State.myPart (s : State) : Option Part := s.myCore.partOf (slotOf s.cur)

/-- Change the partition of the context that issues. -/
def State.updMyPart (s : State) (f : Part → Part) : State :=
  match s.myPart with
  | some p => s.updMyCore fun k => k.updPart p.base f
  | none => s

/-- Move past an instruction: the pc advances by 4, the pending prefix is used up, and the context next issues after the cost (R14). -/
def Ctx.advance (c : Ctx) (next : Nat) : Ctx := { c with pc := c.pc + 4#64, pfx := none, wait := .no, ready := next }

/-- Go to an address: a taken branch or jump (R76 to R79). -/
def Ctx.jump (c : Ctx) (t : Word) (next : Nat) : Ctx := { c with pc := t, pfx := none, wait := .no, ready := next }

/-- Take the next number that tells one undefined moment, one queue entry, one probe from another. -/
def State.tick (s : State) : State := { s with fresh := s.fresh + 1 }

/-- Bits of a 64-bit word as a number. -/
def bitsNat (v : Word) (lo n : Nat) : Nat := (v.toNat / 2 ^ lo) % 2 ^ n

/-- A Bool as a number. -/
def b2n (b : Bool) : Nat := if b then 1 else 0

/-- A word with one bit set when b holds. -/
def bitAt (b : Bool) (i : Nat) : Word := if b then 1#64 <<< i else 0#64

end Sys2Proof.Machine
end

