-- ==== Sys2Proof/Machine/Float.lean ====
section
/-! DEFINITION. Sys2Proof/Machine/Float.lean: floating formats (R144, R145), exact values and correct rounding (R97, R146, R147), stochastic rounding (R149, R150). -/

namespace Sys2Proof.Machine

/-- Which codes of a format are not finite (R144): infinities and NaNs under an all-ones exponent, the one NaN magnitude of E4M3, or none. -/
inductive Special where
  | ieee | e4m3 | none
deriving DecidableEq, Repr

/-- A floating format: exponent and fraction widths, bias, special codes, the magnitude codes of the largest finite value and of the canonical NaN, and whether a finite overflow always gives the largest finite value (R144, R146). -/
structure Fmt where
  ebits : Nat
  fbits : Nat
  bias  : Int
  spec  : Special
  maxc  : Nat
  nanc  : Nat
  sat   : Bool
deriving DecidableEq, Repr

def fmtF32 : Fmt := ⟨8, 23, 127, .ieee, 0x7F7FFFFF, 0x7FC00000, false⟩
def fmtBF16 : Fmt := ⟨8, 7, 127, .ieee, 0x7F7F, 0x7FC0, false⟩
def fmtFP16 : Fmt := ⟨5, 10, 15, .ieee, 0x7BFF, 0x7E00, false⟩
def fmtE4M3 : Fmt := ⟨4, 3, 7, .e4m3, 0x7E, 0x7F, true⟩
def fmtE5M2 : Fmt := ⟨5, 2, 15, .ieee, 0x7B, 0x7E, true⟩
def fmtE2M1 : Fmt := ⟨2, 1, 1, .none, 0x7, 0x0, true⟩
def fmtIF19 : Fmt := ⟨8, 10, 127, .ieee, 0x3FBFF, 0x3FE00, false⟩

/-- Bits of a magnitude code. -/
def Fmt.mbits (f : Fmt) : Nat := f.ebits + f.fbits

/-- Bits of a code. -/
def Fmt.width (f : Fmt) : Nat := f.mbits + 1

/-- Exact values: NaN, an infinity, or (-1)^s * m * 2^e. -/
inductive FV where
  | nan
  | inf (s : Bool)
  | fin (s : Bool) (m : Nat) (e : Int)
deriving DecidableEq, Repr

/-- Rounding modes (R139 RM; R96 rm has the first four). -/
inductive RMode where
  | rne | rtz | rup | rdn | sr
deriving DecidableEq, Repr

/-- The mode of a 3-bit RM field; the invalid codes are trapped before they are used (R141). -/
def rmodeOf : Nat → RMode
  | 0 => .rne
  | 1 => .rtz
  | 2 => .rup
  | 3 => .rdn
  | _ => .sr

/-- The flags of R148 as VFLAGS numbers them. -/
abbrev Flags6 := BitVec 6
def flagNV : Flags6 := 1#6
def flagDZ : Flags6 := 2#6
def flagOF : Flags6 := 4#6
def flagUF : Flags6 := 8#6
def flagNX : Flags6 := 16#6
def flagSAT : Flags6 := 32#6

/-- A flag when a condition holds. -/
def flagIf (b : Bool) (f : Flags6) : Flags6 := if b then f else 0#6

/-- The sign of a code. -/
def Fmt.sign (f : Fmt) (c : Nat) : Bool := c / 2 ^ f.mbits % 2 == 1

/-- The value of a code (R144). -/
def Fmt.decode (f : Fmt) (c : Nat) : FV :=
  let s := f.sign c
  let mag := c % 2 ^ f.mbits
  let ex := mag / 2 ^ f.fbits
  let fr := mag % 2 ^ f.fbits
  let special : Option FV := match f.spec with
    | .ieee => if ex = 2 ^ f.ebits - 1 then some (if fr = 0 then .inf s else .nan) else Option.none
    | .e4m3 => if mag = 0x7F then some .nan else Option.none
    | .none => Option.none
  match special with
  | some v => v
  | Option.none =>
    if ex = 0 then .fin s fr (1 - f.bias - f.fbits)
    else .fin s (2 ^ f.fbits + fr) ((ex : Int) - f.bias - f.fbits)

/-- A magnitude code with a sign. -/
def Fmt.withSign (f : Fmt) (s : Bool) (mag : Nat) : Nat := if s then mag + 2 ^ f.mbits else mag

/-- Whether a value is rounded away from zero to the next multiple of 2^q: r of 2^sh is what lies beyond the kept part n, sticky says that more lies below (R97); under SR the random word decides (R149). -/
def roundsUp (mode : RMode) (s : Bool) (n r sh : Nat) (sticky : Bool) (rnd : Nat) : Bool :=
  match mode with
  | .rne => 2 * r > 2 ^ sh || (2 * r == 2 ^ sh && (sticky || n % 2 == 1))
  | .rtz => false
  | .rup => (r != 0 || sticky) && !s
  | .rdn => (r != 0 || sticky) && s
  | .sr => (r != 0 || sticky) && rnd < r * 2 ^ 32 / 2 ^ sh

/-- Round m * 2^e (and a little more when sticky) to a multiple of 2^q: the multiplier and whether it is inexact. -/
def roundGrid (mode : RMode) (s : Bool) (m : Nat) (e : Int) (sticky : Bool) (q : Int) (rnd : Nat) : Nat × Bool :=
  if q ≤ e then (m * 2 ^ (e - q).toNat, sticky)
  else
    let sh := (q - e).toNat
    let n := m / 2 ^ sh
    let r := m % 2 ^ sh
    (if roundsUp mode s n r sh sticky rnd then n + 1 else n, r != 0 || sticky)

/-- What a finite overflow gives (R97, R146, R149). -/
def Fmt.overflow (f : Fmt) (mode : RMode) (s : Bool) : Nat :=
  let toInf := match mode with
    | .rne => true
    | .rtz => false
    | .rup => !s
    | .rdn => s
    | .sr => false
  f.withSign s (if f.sat || !toInf then f.maxc else (2 ^ f.ebits - 1) * 2 ^ f.fbits)

/-- Compare m1 * 2^e1 with m2 * 2^e2. -/
def cmpMag (m1 : Nat) (e1 : Int) (m2 : Nat) (e2 : Int) : Ordering :=
  if e2 ≤ e1 then compare (m1 * 2 ^ (e1 - e2).toNat) m2 else compare m1 (m2 * 2 ^ (e2 - e1).toNat)

/-- Round a finite non-zero exact value into a format: the code and the flags (R97, R146 to R149). -/
def Fmt.roundFin (f : Fmt) (mode : RMode) (s : Bool) (m : Nat) (e : Int) (sticky : Bool) (rnd : Nat) : Nat × Flags6 :=
  let top : Int := (m.log2 : Int) + e
  let emin : Int := 1 - f.bias
  let q : Int := max (top - f.fbits) (emin - f.fbits)
  let (n, inx) := roundGrid mode s m e sticky q rnd
  let (nu, _) := roundGrid mode s m e sticky (top - f.fbits) rnd
  let tiny : Bool := (if nu ≥ 2 ^ (f.fbits + 1) then top + 1 else top) < emin
  let carry := n ≥ 2 ^ (f.fbits + 1)
  let n' := if carry then n / 2 else n
  let q' := if carry then q + 1 else q
  let mag := if n' < 2 ^ f.fbits then n' else (q' + f.fbits + f.bias).toNat * 2 ^ f.fbits + (n' - 2 ^ f.fbits)
  let maxv := f.decode f.maxc
  let overExact := match maxv with
    | .fin _ mm me => (match cmpMag m e mm me with
      | .gt => true
      | .eq => sticky
      | .lt => false)
    | _ => false
  let ovf := match mode with
    | .sr => overExact
    | _ => f.maxc < mag
  if ovf then (f.overflow mode s, flagOF ||| flagNX)
  else (f.withSign s mag, flagIf inx flagNX ||| flagIf (tiny && inx) flagUF)

/-- Convert an exact value into a format: special values as R146 gives them. -/
def Fmt.round (f : Fmt) (mode : RMode) (v : FV) (sticky : Bool) (rnd : Nat) : Nat × Flags6 :=
  match v with
  | .nan => (match f.spec with
    | .none => (0, flagNV)
    | _ => (f.nanc, 0#6))
  | .inf s => (match f.spec with
    | .ieee => (f.withSign s ((2 ^ f.ebits - 1) * 2 ^ f.fbits), 0#6)
    | _ => (f.withSign s f.maxc, flagOF))
  | .fin s m e => if m = 0 then (f.withSign s 0, 0#6) else f.roundFin mode s m e sticky rnd

/-- Round an exact value to an integer under a mode and clamp it to a range: the integer and the flags (R97, R146). -/
def roundInt (mode : RMode) (lo hi : Int) (v : FV) (rnd : Nat) : Int × Flags6 :=
  match v with
  | .nan => (0, flagNV)
  | .inf s => (if s then lo else hi, flagSAT)
  | .fin s m e =>
    let (n, inx) := roundGrid mode s m e false 0 rnd
    let i : Int := if s then -(n : Int) else n
    let c := if i < lo then lo else if hi < i then hi else i
    (c, flagIf inx flagNX ||| flagIf (c != i) flagSAT)

/-- An exact result with what lies below it, and the flags raised in forming it. -/
structure Exact where
  v      : FV
  sticky : Bool := false
  flags  : Flags6 := 0#6
deriving DecidableEq, Repr

/-- The signed integer m * 2^(e - lo) of a finite value on a common exponent. -/
def onExp (s : Bool) (m : Nat) (e lo : Int) : Int :=
  let k : Int := (m : Int) * 2 ^ (e - lo).toNat
  if s then -k else k

/-- The exact sum of two values; mode decides the sign of an exact zero (R97). -/
def FV.add (mode : RMode) : FV → FV → Exact
  | .nan, _ => ⟨.nan, false, 0#6⟩
  | _, .nan => ⟨.nan, false, 0#6⟩
  | .inf s, .inf t => if s = t then ⟨.inf s, false, 0#6⟩ else ⟨.nan, false, flagNV⟩
  | .inf s, .fin _ _ _ => ⟨.inf s, false, 0#6⟩
  | .fin _ _ _, .inf t => ⟨.inf t, false, 0#6⟩
  | .fin s m e, .fin t n g =>
    let lo := min e g
    let sum := onExp s m e lo + onExp t n g lo
    if sum = 0 then
      let neg := if m = 0 && n = 0 && s = t then s else decide (mode = .rdn)
      ⟨.fin neg 0 0, false, 0#6⟩
    else ⟨.fin (decide (sum < 0)) sum.natAbs lo, false, 0#6⟩

/-- A value with its sign inverted. -/
def FV.neg : FV → FV
  | .nan => .nan
  | .inf s => .inf (!s)
  | .fin s m e => .fin (!s) m e

/-- The exact product (R97). -/
def FV.mul : FV → FV → Exact
  | .nan, _ => ⟨.nan, false, 0#6⟩
  | _, .nan => ⟨.nan, false, 0#6⟩
  | .inf s, .inf t => ⟨.inf (s != t), false, 0#6⟩
  | .inf s, .fin t n _ => if n = 0 then ⟨.nan, false, flagNV⟩ else ⟨.inf (s != t), false, 0#6⟩
  | .fin s m _, .inf t => if m = 0 then ⟨.nan, false, flagNV⟩ else ⟨.inf (s != t), false, 0#6⟩
  | .fin s m e, .fin t n g => ⟨.fin (s != t) (m * n) (e + g), false, 0#6⟩

/-- The quotient, to at least 100 significant bits with what remains as sticky (R97). -/
def FV.div : FV → FV → Exact
  | .nan, _ => ⟨.nan, false, 0#6⟩
  | _, .nan => ⟨.nan, false, 0#6⟩
  | .inf _, .inf _ => ⟨.nan, false, flagNV⟩
  | .inf s, .fin t _ _ => ⟨.inf (s != t), false, 0#6⟩
  | .fin s _ _, .inf t => ⟨.fin (s != t) 0 0, false, 0#6⟩
  | .fin s m e, .fin t n g =>
    if n = 0 then (if m = 0 then ⟨.nan, false, flagNV⟩ else ⟨.inf (s != t), false, flagDZ⟩)
    else if m = 0 then ⟨.fin (s != t) 0 0, false, 0#6⟩
    else
      let k := n.log2 + 100
      ⟨.fin (s != t) (m * 2 ^ k / n) (e - g - k), m * 2 ^ k % n != 0, 0#6⟩

/-- The integer square root by bits from 2^b downwards. -/
def isqrtFrom (n : Nat) : Nat → Nat → Nat
  | 0, r => r
  | b + 1, r => if (r + 2 ^ b) * (r + 2 ^ b) ≤ n then isqrtFrom n b (r + 2 ^ b) else isqrtFrom n b r

/-- The largest r with r * r at most n. -/
def isqrt (n : Nat) : Nat := isqrtFrom n (n.log2 / 2 + 1) 0

/-- The square root, to at least 80 significant bits with what remains as sticky (R97). -/
def FV.sqrt : FV → Exact
  | .nan => ⟨.nan, false, 0#6⟩
  | .inf s => if s then ⟨.nan, false, flagNV⟩ else ⟨.inf false, false, 0#6⟩
  | .fin s m e =>
    if m = 0 then ⟨.fin s 0 0, false, 0#6⟩
    else if s then ⟨.nan, false, flagNV⟩
    else
      let odd := decide (e % 2 = 1)
      let m' := (if odd then 2 * m else m) * 2 ^ 160
      let e' : Int := (if odd then e - 1 else e) - 160
      let r := isqrt m'
      ⟨.fin false r (e' / 2), r * r != m', 0#6⟩

/-- The exact value of d + a * b, to be rounded once (R97). -/
def FV.fma (mode : RMode) (d a b : FV) : Exact :=
  let p := FV.mul a b
  let r := FV.add mode d p.v
  { r with flags := r.flags ||| p.flags }

/-- Whether a value is a NaN. -/
def FV.isNan : FV → Bool
  | .nan => true
  | _ => false

/-- The order of two values that are not NaN, with +0 = -0. -/
def FV.cmp : FV → FV → Ordering
  | .inf s, .inf t => if s = t then .eq else if s then .lt else .gt
  | .inf s, _ => if s then .lt else .gt
  | _, .inf t => if t then .gt else .lt
  | .fin s m e, .fin t n g =>
    let lo := min e g
    compare (onExp s m e lo) (onExp t n g lo)
  | _, _ => .eq

/-- Conditions on two values: false whenever either is NaN (R97, R182). -/
def fcondHolds (eq lt : Bool) (a b : FV) : Bool :=
  !a.isNan && !b.isNan && (match a.cmp b with
    | .lt => lt
    | .eq => eq
    | .gt => false)

/-- FMIN and FMAX on codes (R97): -0 below +0; of one NaN operand the other; of two the canonical NaN. -/
def Fmt.minmax (f : Fmt) (wantMax : Bool) (a b : Nat) : Nat :=
  let va := f.decode a
  let vb := f.decode b
  if va.isNan then (if vb.isNan then f.nanc else b)
  else if vb.isNan then a
  else
    let aLess := match va.cmp vb with
      | .lt => true
      | .gt => false
      | .eq => f.sign a && !f.sign b
    if aLess != wantMax then a else b

/-- An exact result rounded into a format, with every flag. -/
def Exact.round (x : Exact) (f : Fmt) (mode : RMode) (rnd : Nat) : Nat × Flags6 :=
  let (c, fl) := f.round mode x.v x.sticky rnd
  (c, fl ||| x.flags)

/-- One round of SRBits (R150). -/
def srStep (x hi : Nat) : Nat :=
  let y := (x * 0x85EBCA6B) % 2 ^ 32
  ((y ^^^ (y >>> 13)) + hi) % 2 ^ 32

/-- SRBits(seed, n) (R150). -/
def srBits (seed n : Word) : Nat :=
  let lo := seed.toNat % 2 ^ 32
  let hi := seed.toNat / 2 ^ 32
  srStep (srStep (srStep ((n.toNat % 2 ^ 32) ^^^ lo) hi) hi) hi

end Sys2Proof.Machine
end

