-- ==== Sys2Proof/Machine/Flags.lean ====
section
/-! DEFINITION. Sys2Proof/Machine/Flags.lean: VTYPE's fields (R139, R140), the values of element formats (R143, R145), and integer arithmetic with its saturation flag (R148, R179). -/

namespace Sys2Proof.Machine

/-- VTYPE.SEW as a code (R139). -/
def vtSew (v : BitVec 18) : Nat := v.toNat % 8

/-- Element width in bits of a SEW code. -/
def sewBits (code : Nat) : Nat := 2 ^ code

/-- VTYPE.FMT (R139). -/
def vtFmt (v : BitVec 18) : Nat := v.toNat / 8 % 32

/-- VTYPE.BLK (R139). -/
def vtBlk (v : BitVec 18) : Nat := v.toNat / 256 % 4

/-- VTYPE.SREG (R139). -/
def vtSreg (v : BitVec 18) : Nat := v.toNat / 1024 % 32

/-- VTYPE.RM (R139). -/
def vtRm (v : BitVec 18) : Nat := v.toNat / 32768

/-- Elements of one scale block (R139). -/
def blkSize (v : BitVec 18) : Nat := if vtBlk v = 1 then 16 else 32

/-- Element slots per lane (R134). -/
def slotsOf (w : Nat) : Nat := if w ≤ 16 then 16 / w else 1

/-- What a format tag means (R140). -/
inductive EltFmt where
  | uint | sint
  | flt (f : Fmt)
  | ct8
  | bad
deriving DecidableEq, Repr

/-- The format of a tag (R140). -/
def tagFmt (t : Nat) : EltFmt :=
  match t with
  | 0 => .uint
  | 1 => .sint
  | 2 => .flt fmtBF16
  | 3 => .flt fmtFP16
  | 4 => .flt fmtF32
  | 5 => .flt fmtE4M3
  | 6 => .flt fmtE5M2
  | 7 => .flt fmtE2M1
  | 8 => .ct8
  | _ => .bad

/-- The width of a format: a floating format's own, 8 for CT8, SEW for the integers (R140, R183). -/
def EltFmt.width (sew : Nat) : EltFmt → Nat
  | .flt f => f.width
  | .ct8 => 8
  | _ => sew

/-- Whether a tag is one of the arithmetic floating formats BF16, FP16, FP32 (R140). -/
def isArithFlt (t : Nat) : Bool := t == 2 || t == 3 || t == 4

/-- Whether a tag is UINT or SINT. -/
def isIntFmt (t : Nat) : Bool := t == 0 || t == 1

/-- The two's complement value of an n-bit pattern (R143). -/
def sval (n v : Nat) : Int := if n = 0 then 0 else if v < 2 ^ (n - 1) then (v : Int) else (v : Int) - (2 ^ n : Int)

/-- An integer as an n-bit pattern (R179: modulo 2^n). -/
def wrapN (n : Nat) (i : Int) : Nat := (i % (2 ^ n : Int)).toNat

/-- The SINT range of n bits (R143). -/
def sintLo (n : Nat) : Int := -(2 ^ (n - 1) : Int)
def sintHi (n : Nat) : Int := (2 ^ (n - 1) : Int) - 1
/-- The UINT range of n bits (R143). -/
def uintHi (n : Nat) : Int := (2 ^ n : Int) - 1

/-- Clamp to a range: the value, and SAT when it changed (R143, R148). -/
def clampFlag (lo hi i : Int) : Int × Flags6 :=
  let c := if i < lo then lo else if hi < i then hi else i
  (c, flagIf (c != i) flagSAT)

/-- The integer operations of R179 on n-bit patterns: a, b the sources and d the old destination. -/
def VInt.apply (op : VInt) (n a b d : Nat) : Nat × Flags6 :=
  let sa := sval n a
  let sb := sval n b
  let sh := if n = 1 then 0 else b % n
  match op with
  | .add => (wrapN n ((a : Int) + b), 0#6)
  | .sub => (wrapN n ((a : Int) - b), 0#6)
  | .rsub => (wrapN n ((b : Int) - a), 0#6)
  | .and => (a &&& b, 0#6)
  | .or => (a ||| b, 0#6)
  | .xor => (a ^^^ b, 0#6)
  | .sll => (a * 2 ^ sh % 2 ^ n, 0#6)
  | .srl => (a / 2 ^ sh, 0#6)
  | .sra => (wrapN n (sa / (2 ^ sh : Int)), 0#6)
  | .min => (if sb < sa then b else a, 0#6)
  | .max => (if sa < sb then b else a, 0#6)
  | .minu => (if b < a then b else a, 0#6)
  | .maxu => (if a < b then b else a, 0#6)
  | .mul => (a * b % 2 ^ n, 0#6)
  | .mulh => (wrapN n (sa * sb / (2 ^ n : Int)), 0#6)
  | .mulhu => (a * b / 2 ^ n, 0#6)
  | .sadd => let c := clampFlag (sintLo n) (sintHi n) (sa + sb); (wrapN n c.1, c.2)
  | .saddu => let c := clampFlag 0 (uintHi n) ((a : Int) + b); (wrapN n c.1, c.2)
  | .ssub => let c := clampFlag (sintLo n) (sintHi n) (sa - sb); (wrapN n c.1, c.2)
  | .ssubu => let c := clampFlag 0 (uintHi n) ((a : Int) - b); (wrapN n c.1, c.2)
  | .macc => ((d + a * b) % 2 ^ n, 0#6)
  | .abs => (wrapN n (if sa < 0 then -sa else sa), 0#6)
  | .neg => (wrapN n (-(a : Int)), 0#6)

/-- Whether an operation reads its second source. -/
def VInt.binary : VInt → Bool
  | .abs => false
  | .neg => false
  | _ => true

/-- A condition between n-bit patterns (R180). -/
def Cond.holdsN (f : Cond) (n a b : Nat) : Bool :=
  match f with
  | .eq => a == b
  | .ne => a != b
  | .lt => decide (sval n a < sval n b)
  | .le => decide (sval n a ≤ sval n b)
  | .ge => decide (sval n b ≤ sval n a)
  | .ltu => decide (a < b)
  | .leu => decide (a ≤ b)
  | .geu => decide (b ≤ a)

/-- The floating operations of R181 on codes of a format. -/
def VFp.apply (op : VFp) (f : Fmt) (mode : RMode) (rnd a b d : Nat) : Nat × Flags6 :=
  let va := f.decode a
  let vb := f.decode b
  match op with
  | .add => (FV.add mode va vb).round f mode rnd
  | .sub => (FV.add mode va vb.neg).round f mode rnd
  | .mul => (FV.mul va vb).round f mode rnd
  | .div => (FV.div va vb).round f mode rnd
  | .sqrt => (FV.sqrt va).round f mode rnd
  | .min => (f.minmax false a b, 0#6)
  | .max => (f.minmax true a b, 0#6)
  | .macc => (FV.fma mode (f.decode d) va vb).round f mode rnd
  | .abs => (a % 2 ^ f.mbits, 0#6)
  | .neg => (f.withSign (!f.sign a) (a % 2 ^ f.mbits), 0#6)

/-- Whether an operation reads its second source. -/
def VFp.binary : VFp → Bool
  | .sqrt => false
  | .abs => false
  | .neg => false
  | _ => true

/-- The floating compares (R182): the bit, and NV for a NaN operand of the two ordered compares. -/
def FCond.apply (c : FCond) (f : Fmt) (a b : Nat) : Bool × Flags6 :=
  let va := f.decode a
  let vb := f.decode b
  let nan := va.isNan || vb.isNan
  match c with
  | .eq => (fcondHolds true false va vb, 0#6)
  | .lt => (fcondHolds false true va vb, flagIf nan flagNV)
  | .le => (fcondHolds true true va vb, flagIf nan flagNV)

/-- Entry c of a code-table bank (R151); at placement every entry is +0. -/
def ctEntry (bank : AMap (BitVec 19)) (c : Nat) : Nat := (bank.get c 0#19).toNat

/-- The value a CT8 code decodes to: code 0 is NaN (R145, R153). -/
def ctDecode (bank : AMap (BitVec 19)) (c : Nat) : FV := if c = 0 then .nan else fmtIF19.decode (ctEntry bank c)

/-- Whether a bank is monotone (R152): no NaN from 0x01 up, and values strictly rising. -/
def ctMonotone (bank : AMap (BitVec 19)) : Bool :=
  (List.range 255).all fun i => !(ctDecode bank (i + 1)).isNan &&
    (i == 0 || (ctDecode bank i).cmp (ctDecode bank (i + 1)) == .lt)

/-- The difference of two finite values as numerators on their common exponent. -/
def fvDist (a b : FV) (lo : Int) : Nat :=
  match a, b with
  | .fin s m e, .fin t n g => (onExp s m e lo - onExp t n g lo).natAbs
  | _, _ => 0

/-- The exponent of a value; 0 of an infinity or NaN. -/
def FV.exp : FV → Int
  | .fin _ _ e => e
  | _ => 0

/-- Whether a value is finite. -/
def FV.finite : FV → Bool
  | .fin _ _ _ => true
  | _ => false

/-- Choose between the bracketing entries T[c] and T[c+1] of a finite value strictly between them (R154). -/
def ctChoose (bank : AMap (BitVec 19)) (mode : RMode) (v : FV) (c rnd : Nat) : Nat :=
  let a := ctDecode bank c
  let b := ctDecode bank (c + 1)
  if !a.finite then c + 1
  else if !b.finite then c
  else
    let lo := min v.exp (min a.exp b.exp)
    let da := fvDist v a lo
    let db := fvDist v b lo
    match mode with
    | .sr =>
      let magA := fvDist a (.fin false 0 lo) lo
      let magB := fvDist b (.fin false 0 lo) lo
      let aIsLo := magA ≤ magB
      let dlo := if aIsLo then da else db
      let up := rnd < dlo * 2 ^ 32 / (da + db)
      if aIsLo then (if up then c + 1 else c) else (if up then c else c + 1)
    | _ => if da < db then c else if db < da then c + 1 else if c % 2 = 0 then c else c + 1

/-- EncodeCT8 (R154, R146): the code and the flags. An infinite value that clamps to a finite end code differs from the code's value, so R154 read alone would set NX; R146 lists OF for it and not NX, and that table is followed (DESIGN CHOICE, log entry 81). -/
def ctEncode (bank : AMap (BitVec 19)) (mode : RMode) (v : FV) (rnd : Nat) : Nat × Flags6 :=
  if v.isNan then (0, 0#6)
  else
    let below := (List.range 255).filter fun i => ((ctDecode bank (i + 1)).cmp v) != .gt
    match below.getLast? with
    | none => (1, flagOF ||| flagIf v.finite flagNX)
    | some i =>
      let c := i + 1
      if (ctDecode bank c).cmp v == .eq then (c, 0#6)
      else if c = 255 then (255, flagOF ||| flagIf v.finite flagNX)
      else (ctChoose bank mode v c rnd, flagNX)

/-- Convert an exact value into an element format of width w (R146): the pattern and the flags. -/
def EltFmt.convert (t : EltFmt) (w : Nat) (bank : AMap (BitVec 19)) (mode : RMode) (v : FV) (rnd : Nat) : Nat × Flags6 :=
  match t with
  | .uint => let r := roundInt mode 0 (uintHi w) v rnd; (wrapN w r.1, r.2)
  | .sint => let r := roundInt mode (sintLo w) (sintHi w) v rnd; (wrapN w r.1, r.2)
  | .flt f => f.round mode v false rnd
  | .ct8 => ctEncode bank mode v rnd
  | .bad => (0, 0#6)

/-- The value of an element of a format of width w (R143, R144, R153). -/
def EltFmt.value (t : EltFmt) (w : Nat) (bank : AMap (BitVec 19)) (v : Nat) : FV :=
  match t with
  | .uint => .fin false v 0
  | .sint => let i := sval w v; .fin (decide (i < 0)) i.natAbs 0
  | .flt f => f.decode v
  | .ct8 => ctDecode bank v
  | .bad => .nan

end Sys2Proof.Machine
end

