-- ==== Sys2Proof/Machine/Caches.lean ====
section
/-! DEFINITION. Sys2Proof/Machine/Caches.lean: the caches of a tile and its directory (R245 to R249): who holds a line, in which state and where, what an access moves, and what a write back leaves. Which line gives way in a full set is open (R245): here the lowest-numbered one, unless the schedule evicts another first (log entry 57). -/

namespace Sys2Proof.Machine

/-- Counts of errors saturate at 0xFFFF (R367). -/
def satInc (n : Nat) : Nat := if n < 0xFFFF then n + 1 else n

/-- The lanes of a mode (R131). -/
def modeLanes (m : BitVec 2) : Nat := if m = 0#2 then 0 else 8192 * 2 ^ m.toNat

/-- Way pairs of a mode (R124). -/
def modePairs (m : BitVec 2) : Nat := modeLanes m / 8192

/-- The ways that a mode leaves to the way cache (R131). -/
def cacheWays (m : BitVec 2) : List Nat := (List.range 16).drop (2 * modePairs m)

/-- How an access reaches a line (R246, R249): a core's scalar side through its L1D, its vector side through its way cache (with the ways left to it), or an agent that caches nothing through the home. -/
inductive Via where
  | scalar (k : Nat) (ways : List Nat)
  | vector (k : Nat) (ways : List Nat)
  | home
deriving DecidableEq, Repr

/-- Whether a state holds data that HBM4 lacks (R247). -/
def Moesi.dirty : Moesi → Bool
  | .m => true
  | .o => true
  | _ => false

/-- The state after the line was written back: the copy stays valid (R246). -/
def Moesi.cleaned : Moesi → Moesi
  | .m => .e
  | .o => .s
  | x => x

/-- The state of an agent's copy after another agent has read the line (R247). -/
def Moesi.shared : Moesi → Moesi
  | .m => .o
  | .e => .s
  | x => x

/-- The cores that hold a line (R247). -/
def Tile.holders (t : Tile) (l : Nat) : AMap Held := t.dir.get l []

/-- Replace the cores that hold a line; a line that no one holds has no directory entry. -/
def Tile.setHolders (t : Tile) (l : Nat) (a : AMap Held) : Tile :=
  { t with dir := if a.isEmpty then t.dir.erase l else t.dir.set l a }

/-- A core's copy of a line. -/
def Tile.held (t : Tile) (k l : Nat) : Option Held := (t.holders l).find k

/-- A core holds a line so. -/
def Tile.hold (t : Tile) (k l : Nat) (h : Held) : Tile := t.setHolders l ((t.holders l).set k h)

/-- A core gives its copy of a line up; newer data than HBM4's then lies at the home. -/
def Tile.unhold (t : Tile) (k l : Nat) : Tile := t.setHolders l ((t.holders l).erase k)

/-- A read that reaches an HBM4 line with an uncorrectable error finds it: all eight words are poisoned and HBMUE counts it (R360, R365). A line of which a cache or the home has newer data is not read from HBM4. -/
def Tile.discover (t : Tile) (line : Nat) : Tile :=
  if t.latent.contains line && (t.old.find line).isNone then
    { t with
      mem := (List.range 8).foldl (fun m i => m.setMark (64 * line + 8 * i) true) t.mem
      latent := natsErase t.latent line
      hbmue := satInc t.hbmue }
  else t

/-- A read that HBM4 itself serves, whatever the caches hold, finds an error in the line (R259, R360): HBM4's words are poisoned, and with them the tile's where it has no newer data. -/
def Tile.discoverHbm (t : Tile) (line : Nat) : Tile :=
  match t.old.find line with
  | some d =>
    if t.latent.contains line then
      { t with
        old := t.old.set line { d with hbm := { d.hbm with marks := 0xFF#8 } }
        latent := natsErase t.latent line
        hbmue := satInc t.hbmue }
    else t
  | none => t.discover line

/-- A line is written back to HBM4 and its copies stay valid (R246); an undiscovered error in the line is then gone (R360). -/
def Tile.writeBack (t : Tile) (line : Nat) : Tile :=
  match t.old.find line with
  | some _ =>
    ({ t with old := t.old.erase line, latent := natsErase t.latent line }).setHolders line
      (AMap.mapVal (fun _ h => { h with st := h.st.cleaned }) (t.holders line))
  | none => t

/-- A core's agent evicts a line: its owner writes it back (R247). -/
def Tile.evict (t : Tile) (k l : Nat) : Tile :=
  match t.held k l with
  | none => t
  | some h => (if h.st.dirty then t.writeBack l else t).unhold k l

/-- The way copy of a line leaves a core; without an L1D copy the line is evicted. -/
def Tile.leaveWay (t : Tile) (k l : Nat) : Tile :=
  match t.held k l with
  | none => t
  | some h => if h.l1 then t.hold k l { h with way := none } else t.evict k l

/-- The lines other than l of which a core's way cache has a copy in the set of l (R245). -/
def Tile.waySet (t : Tile) (k l : Nat) : List (Nat × Nat) :=
  t.dir.filterMap fun e =>
    if e.1 % 4096 = l % 4096 ∧ e.1 ≠ l then ((e.2.find k).bind Held.way).map fun w => (e.1, w) else none

/-- The lines other than l of which a core's L1D has a copy in the set of l (R245). -/
def Tile.l1Set (t : Tile) (k l : Nat) : List Nat :=
  (t.dir.filter fun e => e.1 % 256 == l % 256 && e.1 != l && ((e.2.find k).map Held.l1).getD false).map fun e => e.1

/-- A line of a core goes to its way cache and leaves its L1D (R249): to a way of its set that is free, else in place of the line in the lowest way. With no way cache it goes to the home. -/
def Tile.toWay (t : Tile) (ways : List Nat) (k l : Nat) : Tile :=
  match t.held k l with
  | none => t
  | some h =>
    match h.way, ways with
    | _, [] => t.unhold k l
    | some _, _ => t.hold k l { h with l1 := false }
    | none, w0 :: _ =>
      match ways.find? fun w => !((t.waySet k l).any fun x => x.2 == w) with
      | some w => t.hold k l { h with l1 := false, way := some w }
      | none =>
        let t := match (t.waySet k l).find? fun x => x.2 == w0 with
          | some x => t.leaveWay k x.1
          | none => t
        t.hold k l { h with l1 := false, way := some w0 }

/-- A line leaves a core's L1D: newer data than HBM4's moves to the way cache. -/
def Tile.leaveL1 (t : Tile) (ways : List Nat) (k l : Nat) : Tile :=
  match t.held k l with
  | none => t
  | some h =>
    if !h.l1 then t
    else if h.way.isSome then t.hold k l { h with l1 := false }
    else if h.st.dirty then t.toWay ways k l
    else t.unhold k l

/-- A line of a core has a copy in its L1D; in a full set the lowest-numbered line gives way (R245). -/
def Tile.toL1 (t : Tile) (ways : List Nat) (k l : Nat) : Tile :=
  let t := if 4 ≤ (t.l1Set k l).length then t.leaveL1 ways k ((t.l1Set k l).headD l) else t
  match t.held k l with
  | none => t
  | some h => if h.l1 then t else t.hold k l { h with l1 := true }

/-- A core that held no copy of a line has read it: it shares the line, or has it alone (R247). -/
def Tile.share (t : Tile) (k l : Nat) : Tile :=
  let others := AMap.mapVal (fun _ h => { h with st := h.st.shared }) (t.holders l)
  t.setHolders l (AMap.set others k { st := if others.isEmpty then .e else .s })

/-- A core is to write a line: every other copy is invalidated (R247). -/
def Tile.own (t : Tile) (k l : Nat) : Tile :=
  t.setHolders l [(k, match t.held k l with
    | some h => { h with st := .m }
    | none => { st := .m })]

/-- The part of an access to a line that reads it: from the core's own copy, else from the agent in M or O or from HBM4 (R247). -/
def Tile.fill (t : Tile) (k l : Nat) : Tile := if (t.held k l).isSome then t else (t.discover l).share k l

/-- A read reaches a line (R245 to R249). -/
def Tile.readVia (v : Via) (t : Tile) (l : Nat) : Tile :=
  match v with
  | .scalar k ws => (t.fill k l).toL1 ws k l
  | .vector k [] => (t.unhold k l).discover l
  | .vector k ws => (t.fill k l).toWay ws k l
  | .home => t.discover l

/-- A write takes a line (R247, R249): the core's agent holds it in M, or it is written at the home and held by no one. -/
def Tile.takeVia (v : Via) (t : Tile) (l : Nat) : Tile :=
  match v with
  | .scalar k ws => (t.own k l).toL1 ws k l
  | .vector _ [] => t.setHolders l []
  | .vector k ws => (t.own k l).toWay ws k l
  | .home => t.setHolders l []

/-- Whether a write finds a line in the cache of its own core. -/
def Tile.hasLine (v : Via) (t : Tile) (l : Nat) : Bool :=
  match v with
  | .scalar k _ => (t.held k l).isSome
  | .vector k _ => (t.held k l).isSome
  | .home => false

/-- The lines that a list of byte addresses touches. -/
def linesOf (as : List Nat) : List Nat := (as.map fun a => a / 64).dedup

/-- Whether a write covers every byte of a line. -/
def coversLine (ws : List WByte) (line : Nat) : Bool :=
  (List.range 64).all fun i => ws.any fun w => w.1 == 64 * line + i

/-- A write of less than a line that its core does not hold reads the line first, and finds an error in it (R360). -/
def Tile.mergeErrors (v : Via) (t : Tile) (ws : List WByte) : Tile :=
  (linesOf (ws.map fun w => w.1)).foldl (fun t l => if coversLine ws l || t.hasLine v l then t else t.discover l) t

/-- HBM4's contents of the lines that a write is about to make newer are kept apart, with the contexts whose stores do so (R246). -/
def Tile.keepOld (t : Tile) (by_ : List Nat) (ws : List WByte) : Tile :=
  (linesOf (ws.map fun w => w.1)).foldl
    (fun t l => match t.old.find l with
      | some d => { t with old := t.old.set l { d with by_ := (d.by_ ++ by_).dedup } }
      | none => { t with old := t.old.set l { hbm := t.mem.line l, by_ := by_ } }) t

/-- A write performs at TILE in the caches or at the home (R246); with_ is what the same instruction wrote before (R360). -/
def Tile.writeCached (v : Via) (by_ : List Nat) (with_ : List WByte) (t : Tile) (ws : List WByte) : Tile :=
  let t := (t.mergeErrors v ws).keepOld by_ ws
  let t := (linesOf (ws.map fun w => w.1)).foldl (Tile.takeVia v) t
  { t with mem := t.mem.writeWith with_ ws }

/-- An engine or the SYSTEM path writes: cached copies are written back and dropped first, and the write is at TILE and SYSTEM at one point (R259, R262); the write back of a line, or a write of all of it, ends an error in it (R360). -/
def Tile.writeThrough (with_ : List WByte) (t : Tile) (ws : List WByte) : Tile :=
  let t := (linesOf (ws.map fun w => w.1)).foldl (fun t l =>
    let t := if (t.old.find l).isSome || coversLine ws l then { t with latent := natsErase t.latent l } else t.discover l
    { t.setHolders l [] with old := t.old.erase l }) t
  { t with mem := t.mem.writeWith with_ ws }

/-- The lines are read: by whom, and errors in them that HBM4 answers with are found. -/
def Tile.touch (v : Via) (t : Tile) (as : List Nat) : Tile := (linesOf as).foldl (Tile.readVia v) t

/-- Every line is written back, and the caches are left empty (R400). -/
def Tile.flush (t : Tile) : Tile := { t with latent := t.latent.filter fun l => (t.old.find l).isNone, old := [], dir := [] }

/-- FENCE SYSTEM writes back each line that a context's stores left newer than HBM4 (R246). -/
def Tile.writeBackOf (t : Tile) (c : Nat) : Tile :=
  ((t.old.filter fun e => e.2.by_.contains c).map fun e => e.1).foldl Tile.writeBack t

/-- Ways leave the way cache of a core for its arrays (R248): every line in them is written back when HBM4 lacks its data, and leaves. -/
def Tile.takeWays (t : Tile) (k : Nat) (left : List Nat) : Tile :=
  t.dir.foldl (fun t e => match (e.2.find k).bind Held.way with
    | some w => if left.contains w then t else (t.writeBack e.1).leaveWay k e.1
    | none => t) t

/-- How many lines of HBM4 are newer in the ways that leave the way cache of a core: what VMODE writes back (R248). -/
def Tile.dirtyWays (t : Tile) (k : Nat) (left : List Nat) : Nat :=
  (t.dir.filter fun e => (match (e.2.find k).bind Held.way with
    | some w => !left.contains w
    | none => false) && ((e.2.find k).map fun h => h.st.dirty).getD false).length

/-- Memory as the SYSTEM window reads it: lines newer in the tile show their HBM4 contents (R259). -/
def Tile.hbm (t : Tile) : Memory := t.old.foldl (fun m kv => m.putLine kv.1 kv.2.hbm) t.mem

/-- A copy of a line put into an L1I of 4 ways and 128 sets (R245): in a full set the lowest-numbered line gives way. -/
def l1iPut (m : AMap Line) (l : Nat) (x : Line) : AMap Line :=
  let set := m.filter fun e => e.1 % 128 == l % 128 && e.1 != l
  AMap.set (if 4 ≤ set.length then AMap.erase m ((set.headD (l, x)).1) else m) l x

end Sys2Proof.Machine
end

