-- ==== Sys2Proof/Machine/MemOps.lean ====
section
/-! DEFINITION. Sys2Proof/Machine/MemOps.lean: memory as the agents of a tile see it (R246, R259, R262) and the writes that cores hold short of it (R264). -/

namespace Sys2Proof.Machine

/-- A line's link is broken in a partition (R275). -/
def Part.breakLinks (p : Part) (ls : List Nat) : Part :=
  { p with links := p.links.map fun x => if ls.contains x.1 then (x.1, false) else x }

/-- Break the links to some lines in every partition of a core, but for one base that is exempt. -/
def Core.breakLinks (k : Core) (ls : List Nat) (exempt : Option Nat) : Core :=
  { k with parts := k.parts.map fun p => if exempt = some p.base then p else p.breakLinks ls }

/-- Whose links a write leaves alone: no one's, a whole core's (its own write reached CORE there before), or one partition's (a VSTC's own). -/
inductive LinkExempt where
  | nobody
  | core (k : Nat)
  | part (k base : Nat)
deriving DecidableEq, Repr

/-- A write to some lines performs at TILE, so it reaches the CORE scope of the cores of the tile and breaks the links there (R262, R275). -/
def State.breakTileLinks (s : State) (t : Nat) (ls : List Nat) (ex : LinkExempt) : State :=
  (List.range 8).foldl
    (fun s i =>
      let k := 8 * t + i
      match s.cores.find k with
      | none => s
      | some c =>
        if ex = .core k then s
        else s.setCore k (c.breakLinks ls (match ex with
          | .part k' b => if k' = k then some b else none
          | _ => none))) s

/-- The ways that a core's way cache has (R131). -/
def State.ways (s : State) (k : Nat) : List Nat := cacheWays (s.core k).vmode

/-- A write performs at TILE: from a core's caches or at the home (R246). -/
def State.writeTile (s : State) (t : Nat) (v : Via) (by_ : List Nat) (with_ ws : List WByte) (ex : LinkExempt := .nobody) : State :=
  (s.updTile t fun x => x.writeCached v by_ with_ ws).breakTileLinks t (linesOf (ws.map fun w => w.1)) ex

/-- A write of an engine, the Innkeeper or the SYSTEM window performs at every scope. -/
def State.writeEngine (s : State) (t : Nat) (ws : List WByte) (with_ : List WByte := []) : State :=
  (s.updTile t fun x => x.writeThrough with_ ws).breakTileLinks t (linesOf (ws.map fun w => w.1)) .nobody

/-- How a held write reaches its line: a scatter through the way cache, a scalar store through L1D (R249). -/
def State.viaOf (s : State) (k : Nat) (w : PWrite) : Via := if w.lanes.isEmpty then .scalar k (s.ways k) else .vector k (s.ways k)

/-- A held write performs at TILE. -/
def State.performWrite (s : State) (k : Nat) (w : PWrite) (ex : LinkExempt) : State :=
  s.writeTile (tileOfCore k) (s.viaOf k w) [w.by_] w.with_ w.bytes ex

/-- A write of a core performs at CORE: it joins the writes that the core holds short of TILE, or reaches TILE at once when the core holds none and is not told to hold (R262, R265 row 2; which of the two happens is open). -/
def State.coreStore (s : State) (k : Nat) (w : PWrite) : State :=
  let c := s.core k
  if c.hold || !c.buf.isEmpty then
    (s.setCore k { c with buf := c.buf ++ [w] }).updCore k fun c =>
      c.breakLinks (linesOf (w.bytes.map fun b => b.1)) none
  else s.performWrite k w .nobody

/-- Every write that a core holds performs at TILE, in order. -/
def State.drainCore (s : State) (k : Nat) : State :=
  let ws := (s.core k).buf
  if ws.isEmpty then s
  else
    ws.foldl (fun s w => s.performWrite k w (.core k)) (s.updCore k fun c => { c with buf := [] })

/-- The held writes that must perform before some bytes are used at TILE, and those that may stay: a write that shares a byte with the bytes, or an earlier one that shares a byte with such a write (R264). -/
def splitHeld : List PWrite → List Nat → List PWrite × List PWrite × List Nat
  | [], as => ([], [], as)
  | w :: ws, as =>
    match splitHeld ws as with
    | (go, stay, as) =>
      if w.bytes.any fun b => as.contains b.1 then (w :: go, stay, w.bytes.map (fun b => b.1) ++ as) else (go, w :: stay, as)

/-- The writes of a core to some bytes perform at TILE, in order, and with them what must go before them (R264). -/
def State.drainOwn (s : State) (k : Nat) (as : List Nat) : State :=
  match splitHeld (s.core k).buf as with
  | ([], _, _) => s
  | (go, stay, _) => go.foldl (fun s w => s.performWrite k w (.core k)) (s.updCore k fun c => { c with buf := stay })

/-- Every write to some bytes that a core of a tile holds performs at TILE: what an atomic on the bytes does first (R264). -/
def State.drainBytes (s : State) (t : Nat) (as : List Nat) : State :=
  (List.range 8).foldl
    (fun s i => match s.cores.find (8 * t + i) with
      | none => s
      | some c => if c.buf.isEmpty then s else s.drainOwn (8 * t + i) as) s

/-- Every write held by any core of a tile performs at TILE. -/
def State.drainTile (s : State) (t : Nat) : State :=
  (List.range 8).foldl
    (fun s i => match s.cores.find (8 * t + i) with
      | none => s
      | some c => if c.buf.isEmpty then s else s.drainCore (8 * t + i)) s

/-- One held write of a core performs at TILE, when no earlier held write shares a byte with it (R264). -/
def State.performHeld (s : State) (k n : Nat) : State :=
  let c := s.core k
  match c.buf[n]? with
  | none => s
  | some w =>
    if (c.buf.take n).any fun v => v.bytes.any fun a => w.bytes.any fun b => a.1 == b.1 then s
    else (s.setCore k { c with buf := c.buf.eraseIdx n }).performWrite k w (.core k)

/-- Memory as the contexts of a core read it: the TILE image under the writes that the core holds (R263, R264). -/
def State.coreMem (s : State) (k : Nat) : Memory :=
  (s.core k).buf.foldl (fun m w => m.writeWith w.with_ w.bytes) (s.tile (tileOfCore k)).mem

/-- The bytes from an address upwards. -/
def spanOf (pa n : Nat) : List Nat := (List.range n).map fun i => pa + i

/-- An access of a core's scalar side reaches the lines of some bytes (R245, R247). -/
def State.touchScalar (s : State) (k : Nat) (as : List Nat) : State :=
  s.updTile (tileOfCore k) fun t => t.touch (.scalar k (s.ways k)) as

/-- An access of a core's vector side reaches the lines of some bytes (R249). -/
def State.touchVector (s : State) (k : Nat) (as : List Nat) : State :=
  s.updTile (tileOfCore k) fun t => t.touch (.vector k (s.ways k)) as

/-- An agent that caches nothing reads some bytes through the home (R247). -/
def State.touchHome (s : State) (t : Nat) (as : List Nat) : State := s.updTile t fun x => x.touch .home as

/-- A canonical address (R22): bits [63:48] all equal bit 47. -/
def canonical (a : Word) : Bool := (a.extractLsb' 0 48).signExtend 64 == a

end Sys2Proof.Machine
end

