-- ==== Sys2Proof/Machine/Arrays.lean ====
section
/-! DEFINITION. Sys2Proof/Machine/Arrays.lean: the rows of a core's arrays and the elements and mask bits that lie in them (R131 to R135), with their poison marks (R362). -/

namespace Sys2Proof.Machine

/-- The rows of a register (field value reg) in a physical lane; undefined until written after a change of mode (R136): a free value. -/
def Core.rows (k : Core) (reg lane : Nat) : Rows :=
  (k.arr.get reg []).get lane { bits := Config.undefRows k.epoch reg lane }

/-- Replace the rows of a register in a physical lane. -/
def Core.setRows (k : Core) (reg lane : Nat) (r : Rows) : Core :=
  { k with arr := k.arr.set reg ((k.arr.get reg []).set lane r) }

/-- The physical lane of a partition's lane: its lanes in service in ascending physical order (R134). The spec gives an index element beyond L x S(iw) no lane: it stands past the last physical lane, where nothing is ever written and a read gives a free value (DESIGN CHOICE, log entry 82). -/
def Part.phys (p : Part) (l : Nat) : Nat := p.svc.getD (l / 128) (512 + l / 128) * 128 + l % 128

/-- Bits lo .. lo+w-1 of 16 rows. -/
def rowBits (r : BitVec 16) (lo w : Nat) : Nat := r.toNat / 2 ^ lo % 2 ^ w

/-- 16 rows with bits lo .. lo+w-1 replaced. -/
def putBits (r : BitVec 16) (lo w v : Nat) : BitVec 16 :=
  let m := BitVec.ofNat 16 ((2 ^ w - 1) * 2 ^ lo)
  (r &&& ~~~m) ||| (BitVec.ofNat 16 (v * 2 ^ lo) &&& m)

/-- Element e of a register read at width w: its bits and whether it is poisoned (R134). -/
def Core.elem (k : Core) (p : Part) (reg w e : Nat) : Nat × Bool :=
  let S := slotsOf w
  let lane := p.phys (e / S)
  if w ≤ 16 then
    let r := k.rows reg lane
    (rowBits r.bits (w * (e % S)) w, rowBits r.psn (w * (e % S)) w != 0)
  else
    let a := k.rows reg lane
    let b := k.rows (reg + 1) lane
    (a.bits.toNat + 65536 * b.bits.toNat, a.psn != 0#16 || b.psn != 0#16)

/-- Write element e of a register at width w (R134). -/
def Core.setElem (k : Core) (p : Part) (reg w e v : Nat) (psn : Bool) : Core :=
  let S := slotsOf w
  let lane := p.phys (e / S)
  let all := 2 ^ w - 1
  if w ≤ 16 then
    let r := k.rows reg lane
    k.setRows reg lane
      { bits := putBits r.bits (w * (e % S)) w v
        psn := putBits r.psn (w * (e % S)) w (if psn then all else 0) }
  else
    let m : BitVec 16 := if psn then 0xFFFF#16 else 0#16
    (k.setRows reg lane { bits := BitVec.ofNat 16 v, psn := m }).setRows (reg + 1) lane
      { bits := BitVec.ofNat 16 (v / 65536), psn := m }

/-- Bit e of mask register m under an element width (R134): whether it is set, and whether it is poisoned. -/
def Core.maskBit (k : Core) (p : Part) (m sew e : Nat) : Bool × Bool :=
  let S := slotsOf sew
  let r := k.rows (24 + m) (p.phys (e / S))
  (r.bits.getLsbD (e % S), r.psn.getLsbD (e % S))

/-- Write bit e of mask register m under an element width. -/
def Core.setMaskBit (k : Core) (p : Part) (m sew e : Nat) (b psn : Bool) : Core :=
  let S := slotsOf sew
  let lane := p.phys (e / S)
  let r := k.rows (24 + m) lane
  k.setRows (24 + m) lane
    { bits := putBits r.bits (e % S) 1 (b2n b), psn := putBits r.psn (e % S) 1 (b2n psn) }

/-- The segments of a run of way pairs that lane retirement has left in service, in ascending physical order (R132, R134). -/
def Core.service (k : Core) (base pairs : Nat) : List Nat :=
  ((List.range (64 * pairs)).map fun i => 64 * base + i).filter fun s => !k.retired.contains s

/-- The code-table bank a number names (R151). -/
def Core.bank (k : Core) (b : BitVec 1) : AMap (BitVec 19) := if b = 0#1 then k.ctA else k.ctB

/-- The origin that stands for poison whose origin is no longer known (R361). -/
def vecCleared : Word := 0x8004000000000000#64

/-- The origin of array parity: physical lane and register field value (R361). -/
def parityOrigin (reg lane : Nat) : Word := BitVec.ofNat 64 (0x8001000000000000 + 65536 * reg + lane)

/-- The origin that scalar results and traps give for poison from the array: VPORIG, or the cleared origin (R361, R363). -/
def Part.origin (p : Part) : Word := if p.vporig = 0#64 then vecCleared else p.vporig

end Sys2Proof.Machine
end

