-- ==== Sys2Proof/Machine/Crypto.lean ====
section
/-! DEFINITION. Sys2Proof/Machine/Crypto.lean: SHA-512 (FIPS 180-4) and RSASSA-PSS over it (RFC 8017), which boot and attestation use (R422, R424). -/

namespace Sys2Proof.Machine

/-- The initial hash value of SHA-512. -/
def shaStart : List Nat :=
  [
   0x6a09e667f3bcc908, 0xbb67ae8584caa73b, 0x3c6ef372fe94f82b, 0xa54ff53a5f1d36f1,
   0x510e527fade682d1, 0x9b05688c2b3e6c1f, 0x1f83d9abfb41bd6b, 0x5be0cd19137e2179
  ]

/-- Round constants of SHA-512, 0 to 19. -/
def shaK0 : List Nat :=
  [
   0x428a2f98d728ae22, 0x7137449123ef65cd, 0xb5c0fbcfec4d3b2f, 0xe9b5dba58189dbbc,
   0x3956c25bf348b538, 0x59f111f1b605d019, 0x923f82a4af194f9b, 0xab1c5ed5da6d8118,
   0xd807aa98a3030242, 0x12835b0145706fbe, 0x243185be4ee4b28c, 0x550c7dc3d5ffb4e2,
   0x72be5d74f27b896f, 0x80deb1fe3b1696b1, 0x9bdc06a725c71235, 0xc19bf174cf692694,
   0xe49b69c19ef14ad2, 0xefbe4786384f25e3, 0x0fc19dc68b8cd5b5, 0x240ca1cc77ac9c65
  ]

/-- Round constants of SHA-512, 20 to 39. -/
def shaK1 : List Nat :=
  [
   0x2de92c6f592b0275, 0x4a7484aa6ea6e483, 0x5cb0a9dcbd41fbd4, 0x76f988da831153b5,
   0x983e5152ee66dfab, 0xa831c66d2db43210, 0xb00327c898fb213f, 0xbf597fc7beef0ee4,
   0xc6e00bf33da88fc2, 0xd5a79147930aa725, 0x06ca6351e003826f, 0x142929670a0e6e70,
   0x27b70a8546d22ffc, 0x2e1b21385c26c926, 0x4d2c6dfc5ac42aed, 0x53380d139d95b3df,
   0x650a73548baf63de, 0x766a0abb3c77b2a8, 0x81c2c92e47edaee6, 0x92722c851482353b
  ]

/-- Round constants of SHA-512, 40 to 59. -/
def shaK2 : List Nat :=
  [
   0xa2bfe8a14cf10364, 0xa81a664bbc423001, 0xc24b8b70d0f89791, 0xc76c51a30654be30,
   0xd192e819d6ef5218, 0xd69906245565a910, 0xf40e35855771202a, 0x106aa07032bbd1b8,
   0x19a4c116b8d2d0c8, 0x1e376c085141ab53, 0x2748774cdf8eeb99, 0x34b0bcb5e19b48a8,
   0x391c0cb3c5c95a63, 0x4ed8aa4ae3418acb, 0x5b9cca4f7763e373, 0x682e6ff3d6b2b8a3,
   0x748f82ee5defb2fc, 0x78a5636f43172f60, 0x84c87814a1f0ab72, 0x8cc702081a6439ec
  ]

/-- Round constants of SHA-512, 60 to 79. -/
def shaK3 : List Nat :=
  [
   0x90befffa23631e28, 0xa4506cebde82bde9, 0xbef9a3f7b2c67915, 0xc67178f2e372532b,
   0xca273eceea26619c, 0xd186b8c721c0c207, 0xeada7dd6cde0eb1e, 0xf57d4f7fee6ed178,
   0x06f067aa72176fba, 0x0a637dc5a2c898a6, 0x113f9804bef90dae, 0x1b710b35131c471b,
   0x28db77f523047d84, 0x32caab7b40c72493, 0x3c9ebe0a15c9bebc, 0x431d67c49c100d4c,
   0x4cc5d4becb3e42b6, 0x597f299cfc657e2a, 0x5fcb6fab3ad6faec, 0x6c44198c4a475817
  ]

/-- Round constants of SHA-512. -/
def shaK : List Nat := shaK0 ++ shaK1 ++ shaK2 ++ shaK3

/-- The words of SHA-512 wrap at 64 bits. -/
def shaWrap (x : Nat) : Nat := x % 2 ^ 64

/-- Rotate a 64-bit word right. -/
def shaRotr (x n : Nat) : Nat := (x >>> n) ||| shaWrap (x <<< (64 - n))

def shaS0 (x : Nat) : Nat := shaRotr x 28 ^^^ shaRotr x 34 ^^^ shaRotr x 39
def shaS1 (x : Nat) : Nat := shaRotr x 14 ^^^ shaRotr x 18 ^^^ shaRotr x 41
def shaG0 (x : Nat) : Nat := shaRotr x 1 ^^^ shaRotr x 8 ^^^ (x >>> 7)
def shaG1 (x : Nat) : Nat := shaRotr x 19 ^^^ shaRotr x 61 ^^^ (x >>> 6)

/-- The eight working words of SHA-512. -/
structure ShaState where
  a : Nat
  b : Nat
  c : Nat
  d : Nat
  e : Nat
  f : Nat
  g : Nat
  h : Nat

/-- One round with constant k and message word w. -/
def ShaState.round (s : ShaState) (k w : Nat) : ShaState :=
  let ch := (s.e &&& s.f) ^^^ ((2 ^ 64 - 1 - s.e) &&& s.g)
  let maj := (s.a &&& s.b) ^^^ (s.a &&& s.c) ^^^ (s.b &&& s.c)
  let t := s.h + shaS1 s.e + ch + k + w
  { a := shaWrap (t + shaS0 s.a + maj), b := s.a, c := s.b, d := s.c, e := shaWrap (s.d + t), f := s.e, g := s.f, h := s.g }

/-- The message schedule: the next word from the last 16, oldest first. -/
def shaNext (w : List Nat) : Nat := shaWrap (shaG1 (w.getD 14 0) + w.getD 9 0 + shaG0 (w.getD 1 0) + w.getD 0 0)

/-- The rounds of one block: constants still to come, and the 16 words that lie ahead. -/
def shaRounds : List Nat → List Nat → ShaState → ShaState
  | [], _, s => s
  | k :: ks, w, s => shaRounds ks (w.drop 1 ++ [shaNext w]) (s.round k (w.headD 0))

/-- A number of bytes with the most significant first (I2OSP). -/
def beBytes (n v : Nat) : List Byte := (List.range n).map fun i => BitVec.ofNat 8 (v >>> (8 * (n - 1 - i)))

/-- The number that bytes hold with the most significant first (OS2IP). -/
def beNat (bs : List Byte) : Nat := bs.foldl (fun n b => 256 * n + b.toNat) 0

/-- The 16 words of a block. -/
def shaWords (block : List Byte) : List Nat := (List.range 16).map fun i => beNat ((block.drop (8 * i)).take 8)

/-- One block of SHA-512. -/
def shaBlock (h : List Nat) (block : List Byte) : List Nat :=
  let g := fun i => h.getD i 0
  let s := shaRounds shaK (shaWords block) { a := g 0, b := g 1, c := g 2, d := g 3, e := g 4, f := g 5, g := g 6, h := g 7 }
  [shaWrap (g 0 + s.a), shaWrap (g 1 + s.b), shaWrap (g 2 + s.c), shaWrap (g 3 + s.d), shaWrap (g 4 + s.e), shaWrap (g 5 + s.f),
    shaWrap (g 6 + s.g), shaWrap (g 7 + s.h)]

/-- A message with its padding. -/
def shaPad (m : List Byte) : List Byte :=
  m ++ 0x80#8 :: (List.replicate ((239 - m.length % 128) % 128) 0#8 ++ beBytes 16 (8 * m.length))

/-- The blocks of a padded message, n of them, worked off in order. -/
def shaBlocks : Nat → List Byte → List Nat → List Nat
  | 0, _, h => h
  | n + 1, m, h => shaBlocks n (m.drop 128) (shaBlock h (m.take 128))

/-- SHA-512 of a message: 64 bytes. -/
def sha512 (m : List Byte) : List Byte :=
  let p := shaPad m
  (shaBlocks (p.length / 128) p shaStart).flatMap fun w => beBytes 8 w

/-- MGF1 over SHA-512: n bytes from a seed. -/
def mgf1 (seed : List Byte) (n : Nat) : List Byte :=
  ((List.range ((n + 63) / 64)).flatMap fun i => sha512 (seed ++ beBytes 4 i)).take n

/-- b to the power e modulo n, by the bits of e below k. -/
def powMod (n b : Nat) : Nat → Nat → Nat
  | 0, _ => 1 % n
  | k + 1, e => let r := powMod n b k (e / 2); if e % 2 = 1 then r * r % n * b % n else r * r % n

/-- Bytes of an RSA-4096 number. -/
def rsaBytes : Nat := 512

/-- Bitwise exclusive or of two byte strings. -/
def xorBytes (a b : List Byte) : List Byte := List.zipWith (fun x y => x ^^^ y) a b

/-- Clear the top bit of the first byte: an encoded message has 4,095 bits. -/
def clearTop : List Byte → List Byte
  | [] => []
  | b :: bs => (b &&& 0x7F#8) :: bs

/-- H of EMSA-PSS: the digest of eight zeros, the message's digest and the salt. -/
def pssHash (m salt : List Byte) : List Byte := sha512 (List.replicate 8 0#8 ++ sha512 m ++ salt)

/-- DB of EMSA-PSS with a 64-byte salt. -/
def pssDb (salt : List Byte) : List Byte := List.replicate 382 0#8 ++ 0x01#8 :: salt

/-- EMSA-PSS encoding of a message with a salt of 64 bytes, SHA-512 and MGF1 over it (R422). -/
def pssEncode (m salt : List Byte) : List Byte :=
  let h := pssHash m salt
  clearTop (xorBytes (pssDb salt) (mgf1 h 447)) ++ h ++ [0xBC#8]

/-- RSASSA-PSS signature with a key's modulus and private exponent (R424). -/
def pssSign (n d : Nat) (m salt : List Byte) : List Byte := beBytes rsaBytes (powMod n (beNat (pssEncode m salt)) 4096 d)

/-- The exponent of the keys (R424). -/
def rsaExponent : Nat := 65537

/-- RSASSA-PSS verification under a modulus (R422): the salt that the signature carries must encode to what it opens to. -/
def pssVerify (n : Nat) (m sig : List Byte) : Bool :=
  let s := beNat sig
  let em := beBytes rsaBytes (powMod n s 17 rsaExponent)
  let h := (em.drop 447).take 64
  let salt := (clearTop (xorBytes (em.take 447) (mgf1 h 447))).drop 383
  sig.length == rsaBytes && decide (s < n) && em == pssEncode m salt

end Sys2Proof.Machine
end

