-- ==== Sys2Proof/Machine/Chan.lean ====
section
/-! DEFINITION. Sys2Proof/Machine/Chan.lean: the Innkeeper's entries by tag, endpoints, messages to other modules, the end of a channel wait, and closing (R202, R207, R217, R218, R413 to R416). -/

namespace Sys2Proof.Machine

/-- The entry with a launch tag: the latest one, not ended first (R231). -/
def State.entry (s : State) (ltag : Word) : Option Entry := s.entries.find? fun e => e.rec_.ltag == ltag

/-- Change the entry with a launch tag. -/
def State.updEntry (s : State) (ltag : Word) (f : Entry → Entry) : State :=
  { s with entries := s.entries.map fun e => if e.rec_.ltag == ltag then f e else e }

/-- The process of a context, by its launch tag: that placed on its tile (R201). -/
def State.procOf (s : State) (c : Nat) : Option Word := (s.tile (tileOf c)).place.map fun p => p.ltag

/-- An endpoint of a launch, if it is connected (R202). -/
def State.ep (s : State) (ltag : Word) (e : Nat) : Option Endpoint := (s.entry ltag).bind fun x => x.eps.find e

/-- Change an endpoint of a launch. -/
def State.updEp (s : State) (ltag : Word) (e : Nat) (f : Endpoint → Endpoint) : State :=
  s.updEntry ltag fun x => match x.eps.find e with
    | some p => { x with eps := x.eps.set e (f p) }
    | none => x

/-- The context that holds an endpoint (R202). -/
def EpState.holder : EpState → Option Nat
  | .unbound => none
  | .bound c => some c
  | .stream c _ => some c
  | .closed h => h

/-- The module that holds a launch's queue entry: that of LTAG[63:55] in a domain of more than one module (R417). -/
def State.homeOf (s : State) (ltag : Word) : Nat := if s.sec.domain ≤ 1 then s.sec.module else bitsNat ltag 55 9

/-- Whether a launch's endpoints live on another module. -/
def State.remote (s : State) (ltag : Word) : Bool := s.homeOf ltag != s.sec.module

/-- COUNT of a level, 1 when the record has none (R227). -/
def Launch.count (l : Launch) (domain : Nat) : Nat :=
  match l.levels.find? fun x => x.1 == domain with
  | some x => x.2.2
  | none => 1

/-- Modules that a launch runs on (R417). -/
def Launch.modules (l : Launch) : Nat := l.count 1

/-- The member modules of a launch: those after its home (R417). -/
def State.memberList (s : State) (l : Launch) : List Nat :=
  (List.range (l.modules - 1)).map fun i => (s.homeOf l.ltag + 1 + i) % s.sec.domain

/-- The other modules on which an endpoint of a launch may be held: those that the launch runs on, when its record is here; else its home, the only one that its tag names (R417, log entry 33). -/
def State.otherModules (s : State) (ltag : Word) : List Nat :=
  match s.entry ltag with
  | some e => (s.homeOf ltag :: s.memberList e.rec_).filter fun m => m != s.sec.module
  | none => if s.remote ltag then [s.homeOf ltag] else []

/-- The link by which flits for a module leave now (R412): PRIMARY, else BACKUP, when usable and UP; none under LOCKED, when links carry only IDLE (R425). -/
def State.path (s : State) (m : Nat) : Option Nat :=
  let r := (s.routes.get m 0#10).toNat
  let up := fun l => (s.links.get l {}).st == LState.up
  if s.sec.locked then none
  else if r / 256 % 2 = 1 && up (r % 16) then some (r % 16)
  else if r / 512 % 2 = 1 && up (r / 16 % 16) then some (r / 16 % 16)
  else none

/-- Put a flit on a link: it takes the next FTAG and is kept until acknowledged (R409, R410). -/
def Link.send (l : Link) (u : Unsent) : Link :=
  { l with
    tx := (l.tx + 1) % 4096
    kept := l.kept ++ [mkFlit u.src u.dst u.kind l.tx ((l.rx + 4095) % 4096) u.payload u.marks] }

/-- Flits that a link end keeps unacknowledged at most (R410). -/
def linkWindow : Nat := 2048

/-- Give a link a flit to send: at once, or when fewer than 2,048 are unacknowledged (R410). -/
def Link.put (l : Link) (src dst kind : Nat) (payload : List Byte) (marks : List Nat := []) : Link :=
  let u : Unsent := { src := src, dst := dst, kind := kind, payload := payload, marks := marks }
  if l.kept.length < linkWindow && l.unsent.isEmpty then l.send u else { l with unsent := l.unsent ++ [u] }

/-- Flits that waited for room are sent, n of them at most (R410). -/
def Link.pump : Nat → Link → Link
  | 0, l => l
  | n + 1, l => match l.unsent with
    | u :: us => if l.kept.length < linkWindow then Link.pump n ({ l with unsent := us }.send u) else l
    | [] => l

/-- ACKTAG names the last flit that the other end has received in order: it and those before it need not be kept (R409, R410). -/
def Link.acked (l : Link) (tag : Nat) : Link :=
  if l.kept.any fun f => f.ftag == tag then
    ({ l with kept := (l.kept.dropWhile fun f => f.ftag != tag).drop 1 } : Link).pump l.unsent.length
  else l

/-- Send the flits of one message along a path, when there is one (R412, R414). -/
def State.transmit (s : State) (m mseq : Nat) (x : Msg) : State :=
  match s.path m with
  | none => s
  | some l =>
    { s with links := s.links.set l ((fragments mseq ((s.peers.get m {}).got) x.body x.marks).foldl
        (fun k f => k.put s.sec.module m x.kind f.1 f.2) (s.links.get l {})) }

/-- Send a message to another module: it takes the next number of the pair and is kept until acknowledged (R413, R414). A message whose number would pass 2^64 - 1 is refused (R5): it is not sent, and no status tells of it, since the spec gives none (DESIGN CHOICE, log entry 75). -/
def State.sendMarked (s : State) (m : Nat) (x : Msg) : State :=
  let p := s.peers.get m {}
  let n := p.sent + 1
  if 2 ^ 64 ≤ n then s
  else { s with peers := s.peers.set m { p with sent := n, kept := p.kept ++ [(n, x)], owed := false } }.transmit m n x

/-- Send a message of a kind that carries no payload of a block; one whose number would pass 2^64 - 1 is not sent (log entry 75). -/
def State.sendMsg (s : State) (m kind : Nat) (body : List Byte) : State := s.sendMarked m { kind := kind, body := body }

/-- Every kept message of a pair is sent again, with its own number (R413, R414). -/
def State.resend (s : State) (m : Nat) : State := (s.peers.get m {}).kept.foldl (fun s x => s.transmit m x.1 x.2) s

/-- A flit for another module leaves by the link that the routing table gives, waits for a path, or is dropped when neither link is usable (R412). -/
def State.forward (s : State) (f : Flit) : State :=
  if (s.routes.get f.dest 0#10).toNat / 256 = 0 then s
  else match s.path f.dest with
    | some l => { s with links := s.links.set l ((s.links.get l {}).put f.src f.dest f.kind f.payload f.marks) }
    | none => { s with transit := s.transit ++ [f] }

/-- After a change of links or routes: kept messages of each pair whose path changed are resent, and flits that waited are tried again (R412, R413). -/
def State.rerouted (s was : State) : State :=
  let s := (s.peers.filter fun kv => was.path kv.1 != s.path kv.1).foldl (fun s kv => s.resend kv.1) s
  s.transit.foldl (fun s f => s.forward f) { s with transit := [] }

/-- The body of a CLOSE (R415). -/
def closeBody (ltag : Word) (e : Nat) : List Byte := leBytes 8 ltag.toNat ++ leBytes 2 e ++ leBytes 6 0

/-- What a rendezvous or a close hands to a waiting operation (R211, R212, R215): its status, the guard that was chosen, and the word that a receive takes. -/
structure Finish where
  status : Nat
  guard  : Nat := 0
  word   : Option (XReg × Word) := none

/-- The register writes of a channel operation that completes (R211, R212, R215, R334). -/
def Ctx.finishRegs (c : Ctx) (op : ChOp) (f : Finish) : Ctx :=
  let st := Reg.clean (BitVec.ofNat 64 f.status)
  match op with
  | .send rd => c.setX rd st
  | .recv rd rt =>
    match f.word with
    | some w => (c.setX rt st).setX rd (Reg.clean w.2)
    | none => c.setX rt st
  | .sendv rd => c.setX rd st
  | .recvv rt => c.setX rt st
  | .select rd rt =>
    let c := { c with selpos := BitVec.ofNat 4 f.guard }.setX rt st
    let c := match f.word with
      | some w => c.setX w.1 (Reg.clean w.2)
      | none => c
    c.setX rd (Reg.clean (BitVec.ofNat 64 f.guard))
  | .block rd _ _ _ => c.setX rd st

/-- The body of an OFFER (R415). -/
def offerBody (ltag : Word) (ep okind : Nat) (withdraw : Bool) (oid : Nat) (rest : List Byte) : List Byte :=
  leBytes 8 ltag.toNat ++ leBytes 2 ep ++ leBytes 1 (okind + (if withdraw then 128 else 0)) ++ leBytes 1 0 ++ leBytes 4 oid ++ rest

/-- OKIND of an offer (R415). -/
def OKind.num : OKind → Nat
  | .word => 0
  | .vector => 1
  | .block => 2

/-- Ask other modules to give back the send offers that stand there (R416). -/
def State.askWithdraw (s : State) (ltag : Word) (p : Pending) : State :=
  p.away.foldl (fun s a => match p.offers.find? fun o => o.oid == a.1 with
    | none => s
    | some o => match s.ep ltag o.ep with
      | none => s
      | some e => s.sendMsg a.2 2 (offerBody e.ptag e.pep o.kind.num true o.oid [])) s

/-- What a waiting instruction has standing at other modules is asked back; nothing waits for the answers. -/
def State.recall (s : State) (c : Nat) (p : Pending) : State :=
  match s.procOf c with
  | some ltag => s.askWithdraw ltag p
  | none => s

/-- What a waiting instruction has standing at other modules is asked back, and the instruction is held until they have answered (R416). -/
def State.holdFor (s : State) (c : Nat) (p : Pending) (h : Hold) : State :=
  (s.recall c p).updCtx c fun x => { x with chan := some { p with hold := h }, blocked := false }

/-- Whether a context's channel instruction cannot be left at once: it is held, or offers of it stand at other modules (R416). -/
def State.awayOffers (s : State) (c : Nat) : Bool :=
  match (s.ctx c).chan with
  | some p => p.held || !p.away.isEmpty
  | none => false

/-- Offers that stand at another module are asked back before an interrupt or a stop, once (R416). -/
def State.leaveOffers (s : State) (c : Nat) : State :=
  match (s.ctx c).chan with
  | some p => if p.held || p.away.isEmpty then s else s.holdFor c p .leaving
  | none => s

/-- A channel operation of a context completes: registers, then past the instruction (R209, R217); its other offers are withdrawn (R216). -/
def State.finishChan (s : State) (c : Nat) (op : ChOp) (f : Finish) : State :=
  let now := (s.core (coreOf c)).cyc
  let s := match (s.ctx c).chan with
    | some p => s.recall c p
    | none => s
  s.updCtx c fun x => { (x.finishRegs op f).advance (now + 16) with chan := none, blocked := false }

/-- Free one place that a core reserved in its tile's Porter queue (R334). -/
def State.freePlace (s : State) (core : Nat) : State :=
  s.updTile (tileOfCore core) fun t => { t with eng := { t.eng with pres := t.eng.pres.set core (t.eng.pres.get core 0 - 1) } }

/-- A block offer that ends with no job gives back its queue entry and its completion place (R331, R334). -/
def State.dropBlock (s : State) (c : Nat) (op : ChOp) : State :=
  match op with
  | .block _ _ d _ =>
    let s := s.freePlace (coreOf c)
    if d.irq then s.updCtx c fun x => { x with places := x.places - 1 } else s
  | _ => s

/-- An operation ends with CLOSED, status 1 (R218). -/
def State.finishClosed (s : State) (c : Nat) (op : ChOp) (guard : Nat) : State :=
  (s.dropBlock c op).finishChan c op { status := 1, guard := guard }

/-- The contexts whose waiting offers stand on an endpoint of a launch, with the first such offer. -/
def State.offersOn (s : State) (ltag : Word) (e : Nat) : List (Nat × Pending × Offer) :=
  s.ctxs.filterMap fun kv =>
    match kv.2.chan with
    | some p =>
      if s.procOf kv.1 == some ltag then
        match p.offers.find? fun o => o.ep == e with
        | some o => some (kv.1, p, o)
        | none => none
      else none
    | none => none

/-- Change the partition of a slot. -/
def Core.updPartOf (k : Core) (slot : Nat) (f : Part → Part) : Core :=
  match k.partOf slot with
  | some p => k.updPart p.base f
  | none => k

/-- Change the partition that a context owns. -/
def State.updPartOf (s : State) (c : Nat) (f : Part → Part) : State :=
  let k := s.core (coreOf c)
  match k.partOf (slotOf c) with
  | some p => s.setCore (coreOf c) (k.updPart p.base f)
  | none => s

/-- Change the partition that a context of a launch owns: on its core, or in what a switch put aside (R219, R376). -/
def State.updHolder (s : State) (ltag : Word) (c : Nat) (f : Part → Part) : State :=
  match (s.entry ltag).bind Entry.saved with
  | some v => match v.cores.find (coreOf c) with
    | some k => s.updEntry ltag fun e => { e with saved := some { v with cores := v.cores.set (coreOf c) (k.updPartOf (slotOf c) f) } }
    | none => s
  | none => s.updPartOf c f

/-- The stream register of a partition. -/
def Part.stream (p : Part) (which : Bool) : Stream := if which then p.str1 else p.str0

/-- Change a stream register of a partition. -/
def Part.updStream (p : Part) (which : Bool) (f : Stream → Stream) : Part :=
  if which then { p with str1 := f p.str1 } else { p with str0 := f p.str0 }

/-- The first guard above the last one chosen, else the lowest (R215). -/
def rotate (last : Nat) (gs : List Nat) : Option Nat :=
  match gs.filter (fun g => last < g) with
  | g :: _ => some g
  | [] => gs.head?

/-- A waiting instruction meets the close of an endpoint that it offers on (R215, R218): the guard that rotation chooses among those on it completes with CLOSED, once no offer of another guard stands at another module (R216, R416). Rows on their way still land. -/
def State.closedAt (s : State) (c e : Nat) : State :=
  match (s.ctx c).chan with
  | none => s
  | some p =>
    let mine := p.offers.filter fun o => o.ep == e
    let p := { p with away := p.away.filter fun a => !(mine.any fun o => o.oid == a.1) }
    match rotate (s.ctx c).selpos.toNat (mine.map fun o => o.guard) with
    | none => s
    | some g =>
      if p.hold = .landing then s
      else
        let s := s.updCtx c fun x => { x with chan := some p }
        if p.away.isEmpty then s.finishClosed c p.op g
        else if p.held then s.updCtx c fun x => { x with chan := some { p with hold := .choosing } }
        else s.holdFor c p .choosing

/-- An endpoint becomes CLOSED because its far end closed (R218): its holder stays, its waiting offers complete with CLOSED, and a stream learns of it. -/
def State.becomeClosed (s : State) (ltag : Word) (e : Nat) : State :=
  match s.ep ltag e with
  | none => s
  | some p =>
    match p.st with
    | .closed _ => s
    | st =>
      let s := s.updEp ltag e fun p => { p with st := .closed st.holder }
      let s := { s with remotes := s.remotes.filter fun r => !(r.ltag == ltag && r.ep == e) }
      let s := match st with
        | .stream c w => s.updHolder ltag c fun q => q.updStream w fun t => { t with closed := true }
        | _ => s
      (s.offersOn ltag e).foldl (fun s x => s.closedAt x.1 e) s

/-- An endpoint leaves the stream register of its holder, if it supplies one (R207, R208): BOUND falls, and the other fields keep their values. -/
def State.dropStream (s : State) (ltag : Word) (st : EpState) (e : Nat) : State :=
  let out := fun (t : Stream) => if t.bound && t.ep.toNat == e then { t with bound := false } else t
  match st.holder with
  | some c => s.updHolder ltag c fun q => (q.updStream false out).updStream true out
  | none => s

/-- The other modules of a launch learn that one of its endpoints is CLOSED (R218, R415). -/
def State.closeAway (s : State) (ltag : Word) (e : Nat) : State :=
  (s.otherModules ltag).foldl (fun s m => s.sendMsg m 4 (closeBody ltag e)) s

/-- CHCLOSE of an endpoint by its holder, a reap or the end of its process (R207, R208, R218): it is CLOSED and held by no one, and its far end becomes CLOSED at the same event. -/
def State.closeEp (s : State) (ltag : Word) (e : Nat) : State :=
  match s.ep ltag e with
  | none => s
  | some p =>
    let s := s.dropStream ltag p.st e
    let s := s.updEp ltag e fun p => { p with st := .closed none }
    match p.st with
    | .closed _ => s
    | _ =>
      let s := { s with remotes := s.remotes.filter fun r => !(r.ltag == ltag && r.ep == e) }
      ((s.closeAway ltag e).becomeClosed p.ptag p.pep).closeAway p.ptag p.pep

/-- CHUNBIND of an endpoint by its holder (R207): UNBOUND, but a CLOSED one stays CLOSED and is held by no one. -/
def State.unbindEp (s : State) (ltag : Word) (e : Nat) : State :=
  match s.ep ltag e with
  | none => s
  | some p =>
    (s.dropStream ltag p.st e).updEp ltag e fun p => { p with st := match p.st with
      | .closed _ => .closed none
      | _ => .unbound }

/-- The endpoints of a process that a context holds. -/
def State.heldBy (s : State) (c : Nat) : List (Word × Nat) :=
  match s.procOf c with
  | none => []
  | some ltag => match s.entry ltag with
    | none => []
    | some x => (x.eps.filter fun kv => kv.2.st.holder == some c).map fun kv => (ltag, kv.1)

/-- The operation that a context waits in is abandoned: its offers are withdrawn with no effect (R111, R217). -/
def State.withdraw (s : State) (c : Nat) : State :=
  match (s.ctx c).chan with
  | none => s
  | some p => ((s.recall c p).dropBlock c p.op).updCtx c fun x => { x with chan := none, blocked := false, wait := .no }

end Sys2Proof.Machine
end

