-- ==== Sys2Proof/Machine/Jobs.lean ====
section
/-! DEFINITION. Sys2Proof/Machine/Jobs.lean: barriers as engines and contexts reach them (R283, R287), and the end of Porter and Cellar jobs (R327 to R331, R348). -/

namespace Sys2Proof.Machine

/-- The completion rule of a barrier, applied after each event (R283). -/
def Barrier.settle (b : Barrier) : Barrier :=
  if b.init && !b.err && b.target ≤ b.count && b.pending == 0 then { b with phase := b.phase + 1, count := 0 } else b

/-- A decrement (R287): one larger than PENDING sets ERR; one that reaches an uninitialised barrier is discarded (R327). -/
def Barrier.dec (b : Barrier) (n : Nat) : Barrier :=
  if !b.init then b
  else if b.pending < n then { b with pending := 0, err := true }
  else { b with pending := b.pending - n }.settle

/-- A barrier of a core. -/
def Core.barrier (k : Core) (n : Nat) : Barrier := k.barriers.get n {}

/-- Change a barrier of a core. -/
def State.updBarrier (s : State) (k n : Nat) (f : Barrier → Barrier) : State :=
  s.updCore k fun c => { c with barriers := c.barriers.set n (f (c.barrier n)) }

/-- The outcomes that an engine keeps when another job of a core has ended: those of the core's 256 most recent jobs, last being the identifier of the latest (R328). -/
def keepEnds (last : Nat) (l : List JobEnd) (e : JobEnd) : List JobEnd := (e :: l).filter fun x => decide (last < x.id + 256)

/-- PFSTAT of an ended job (R329). -/
def pfstat (status pos xl cause : Nat) : Word := BitVec.ofNat 64 (status + 256 * cause + 65536 * xl + 2 ^ 24 * pos)

/-- The outcome of a Porter job (R328, R329). -/
def PJob.outcome (j : PJob) (status pos xl cause : Nat) (addr : Word) : JobEnd :=
  { id := j.id, status := status, detail := if status = 0 then 0#64 else pfstat status pos xl cause, addr := addr }

/-- The queue without a job. -/
def Engines.dropPJob (g : Engines) (j : PJob) : Engines := { g with pq := g.pq.filter fun q => !(q.core == j.core && q.id == j.id) }

/-- A Porter job ends (R327, R328, R330): it leaves the queue, its outcome is kept, and under IRQ it enters the completion list of its context. -/
def State.endPJob (s : State) (j : PJob) (status pos xl cause : Nat) (addr : Word) : State :=
  let e := j.outcome status pos xl cause addr
  let s := s.updTile (tileOfCore j.core) fun x => { x with eng := x.eng.dropPJob j }
  let s := s.updCore j.core fun c => { c with pended := keepEnds c.pjob c.pended e }
  if j.desc.irq then s.updCtx j.ctx fun c => { c with clist := c.clist ++ [e] } else s

/-- A Porter job of a core that has not ended. -/
def State.pjob (s : State) (core id : Nat) : Option PJob :=
  (s.tile (tileOfCore core)).eng.pq.find? fun j => j.core == core && j.id == id

/-- Whether a job is the other half of a block transfer on this module (R334). -/
def PJob.pairs (j q : PJob) : Bool :=
  match j.kind, q.kind with
  | .send (.here m), .recv (.here n) => m == n
  | .recv (.here m), .send (.here n) => m == n
  | _, _ => false

/-- The other half of a block transfer on this module, while its process is placed (R334). -/
def State.partnerOf (s : State) (j : PJob) : Option PJob := s.tiles.findSome? fun kv => kv.2.eng.pq.find? j.pairs

/-- The other half of a block transfer in what a switch put aside: its launch and itself (R349, R376). -/
def State.savedPartner (s : State) (j : PJob) : Option (Word × PJob) :=
  s.entries.findSome? fun e => e.saved.bind fun v =>
    (v.tiles.findSome? fun kv => kv.2.1.pq.find? j.pairs).map fun q => (e.rec_.ltag, q)

/-- A Porter job that a switch put aside ends there (R334, R379). -/
def Saved.endPJob (v : Saved) (q : PJob) (e : JobEnd) : Saved :=
  { v with
    tiles := AMap.mapVal (fun _ x => (x.1.dropPJob q, x.2)) v.tiles
    cores := AMap.mapVal (fun k c => if k = q.core then { c with pended := keepEnds c.pjob c.pended e } else c) v.cores
    ctxs := AMap.mapVal (fun k c => if k = q.ctx ∧ q.desc.irq then { c with clist := c.clist ++ [e] } else c) v.ctxs }

/-- The other half of a block transfer on this module ends with a status at a position, wherever it is (R334). -/
def State.endPartner (s : State) (j : PJob) (status pos : Nat) : State :=
  match s.partnerOf j with
  | some q => s.endPJob q status pos 0 0 0#64
  | none => match s.savedPartner j with
    | some (ltag, q) => s.updEntry ltag fun e => { e with saved := e.saved.map fun v => v.endPJob q (q.outcome status pos 0 0 0#64) }
    | none => s

/-- Cancel a Porter job, and with it the other half of a block transfer at the same position (R328, R334). -/
def State.cancelPJob (s : State) (j : PJob) : State := (s.endPartner j 2 j.pos).endPJob j 2 j.pos 0 0 0#64

/-- CLFSTAT of a kernel (R329, R346). -/
def clfstat (status reason mi : Nat) (value : BitVec 32) : Word :=
  BitVec.ofNat 64 (status + 256 * reason + 65536 * (mi % 65536) + 2 ^ 32 * value.toNat)

/-- A Cellar job ends (R346, R348). -/
def State.endCJob (s : State) (j : CJob) (status : Nat) (detail : Word) : State :=
  let t := tileOfCore j.core
  let e : JobEnd := { id := j.id, status := status, detail := detail, kernel := match j.kind with
    | .kernel _ => true
    | _ => false }
  let s := s.updTile t fun x => { x with eng := { x.eng with cq := x.eng.cq.filter fun q => !(q.core == j.core && q.id == j.id) } }
  s.updCore j.core fun c => { c with cended := keepEnds c.cjob c.cended e }

/-- Every job of a tile is cancelled without resumption (R237, R321, R349). -/
def State.cancelTileJobs (s : State) (t : Nat) : State :=
  let s := (s.tile t).eng.pq.foldl (fun s j => s.cancelPJob j) s
  s.updTile t fun x => { x with eng := { x.eng with mq := [], pq := [], pres := [], cq := [] } }

/-- Every core of a tile is detached and its slots are free (R304, R321). -/
def State.detachTile (s : State) (t : Nat) : State :=
  let s := s.updTile t fun x => { x with eng := { x.eng with slots := [], acc := [] } }
  (List.range 8).foldl (fun s i => s.updCore (8 * t + i) fun c => { c with mstate := .detached, mrows := 0 }) s

end Sys2Proof.Machine
end

