-- ==== Sys2Proof/Machine/Process.lean ====
section
/-! DEFINITION. Sys2Proof/Machine/Process.lean: what follows when a context stops, up to the end of its process (R110, R111, R232, R237, R238, R239, R418). -/

namespace Sys2Proof.Machine

/-- The body of a KEEPER message (R415, R418). -/
def keeperBody (opc : Nat) (ltag : Word) (ops : List Byte) : List Byte :=
  leBytes 2 opc ++ leBytes 6 0 ++ leBytes 8 ltag.toNat ++ ops

/-- Send a KEEPER message (R418). -/
def State.keeperMsg (s : State) (m opc : Nat) (ltag : Word) (ops : List Byte) : State :=
  s.sendMsg m 9 (keeperBody opc ltag ops)

/-- The contexts of a tile. -/
def tileCtxs (t : Nat) : List Nat := (List.range 128).map fun i => 128 * t + i

/-- The slots of a tile that hold a context. -/
def State.tileCtxs (s : State) (t : Nat) : List Nat := (s.ctxs.filter fun kv => tileOf kv.1 == t && !isKeeper kv.1).map fun kv => kv.1

/-- The number of a stop reason as CREAP gives it (R122). -/
def StopReason.num : StopReason → Nat
  | .exited => 1
  | .halted => 2
  | .double => 3
  | .joined => 4

/-- Whether the context in a slot still has vector work to finish before it can be STOPPED (R111). -/
def State.queueBusy (s : State) (c : Nat) : Bool :=
  match (s.core (coreOf c)).partOf (slotOf c) with
  | some p => !p.pending.isEmpty
  | none => false

/-- What entering STOPPED does to a context itself (R111, R275): it leaves the rotation, its offers are withdrawn and its partition's links are emptied. -/
def State.haltCtx (s : State) (c : Nat) (why : StopReason) : State :=
  ((s.withdraw c).updPartOf c fun p => { p with links := [] }).updCtx c fun x =>
    { x with slot := .stopped why, stopReq := false, wait := .no }

/-- Stop a context of a process that ends (R237, R238): at once, when its vector queue has finished (R111), or when other modules have given its offers back (R416); under LOCKED, when links carry nothing, it does not wait for those (R425). -/
def State.stopForEnd (s : State) (c : Nat) : State :=
  match (s.ctx c).slot with
  | .running =>
    if s.awayOffers c && !s.sec.locked then (s.leaveOffers c).updCtx c fun x => { x with stopReq := true }
    else if s.queueBusy c then (s.withdraw c).updCtx c fun x => { x with wait := .stopping .halted }
    else s.haltCtx c .halted
  | _ => s

/-- Whether every context of the tiles has stopped with its vector queue finished. -/
def State.allStopped (s : State) (ts : List Nat) : Bool :=
  ts.all fun t => (s.tileCtxs t).all fun c => (s.ctx c).slot != .running

/-- A tile is released (R237): its contexts, partitions and place are gone. -/
def State.releaseTile (s : State) (t : Nat) : State :=
  let s := { s with ctxs := (s.tileCtxs t).foldl (fun m c => m.erase c) s.ctxs }
  let s := (List.range 8).foldl (fun s i => s.updCore (8 * t + i) fun c => { c with parts := [], barriers := [] }) s
  s.updTile t fun x => { x with place := none }

/-- Close every endpoint of a launch (R208, R237). -/
def State.closeAll (s : State) (ltag : Word) : State :=
  match s.entry ltag with
  | none => s
  | some e => e.eps.foldl (fun s kv => s.closeEp ltag kv.1) s

/-- The far ends of the channel entries of a launch that ends without ever being placed are closed (R237). -/
def State.closeFars (s : State) (l : Launch) : State :=
  l.chans.foldl (fun s c =>
    if c.self then s
    else if s.remote c.ptag then s.sendMsg (s.homeOf c.ptag) 4 (closeBody c.ptag c.pep)
    else match s.ep c.ptag c.pep with
      | some p => if p.ptag == l.ltag && p.pep == c.ep then s.becomeClosed c.ptag c.pep else s
      | none => s) s

/-- An entry that ended (R231). -/
def Entry.isEnded (e : Entry) : Bool := e.st == .done || e.st == .cancelled

/-- Only the 4,096 most recently ended entries are retained (R231). -/
def State.retain (s : State) : State :=
  let ended := s.entries.filter Entry.isEnded
  if ended.length ≤ 4096 then s
  else
    let oldest := ended.foldl (fun n e => Nat.min n e.ended) s.fresh
    { s with entries := s.entries.filter fun e => !(e.isEnded && e.ended == oldest) }

/-- An entry takes its final state and outcome (R232). -/
def State.finishEntry (s : State) (ltag : Word) (st : EState) (o : Outcome) : State :=
  let n := s.fresh
  (s.tick.updEntry ltag fun e => { e with st := st, outcome := o, ended := n, resident := false, kill := false }).retain

/-- The home sends END to every member, and waits for ENDED from each (R418). -/
def State.endMembers (s : State) (ltag : Word) (kind : Nat) : State :=
  match s.entry ltag with
  | none => s
  | some e =>
    let s := s.updEntry ltag fun x => { x with multi := x.multi.map fun m => { m with step := 9, left := s.memberList e.rec_ } }
    (s.memberList e.rec_).foldl (fun s m => s.keeperMsg m 0x09 ltag (leBytes 1 kind ++ leBytes 7 0)) s

/-- Queued entries with a predecessor that ended otherwise than EXITED become CANCELLED with PRED_FAILED, and theirs in turn (R232); n bounds the chain. -/
def State.failDependants : Nat → State → State
  | 0, s => s
  | n + 1, s =>
    let bad := fun (l : Word) => s.entries.any fun e => e.rec_.ltag == l && e.isEnded && e.outcome != .exited
    match s.entries.find? fun e => e.st == .queued && e.lseq != 0 && e.rec_.preds.any bad with
    | none => s
    | some e => State.failDependants n (((s.endMembers e.rec_.ltag 3).finishEntry e.rec_.ltag .cancelled .predFailed).closeFars e.rec_)

/-- Dependants of what has ended so far (R232). -/
def State.settleDeps (s : State) : State := s.failDependants (s.entries.length + 1)

/-- A killed process whose part here is gone becomes CANCELLED, once every member has ENDED (R238, R418 item 9). -/
def State.killed (s : State) (ltag : Word) : State :=
  match s.entry ltag with
  | none => s
  | some e =>
    if e.kill && e.tiles.isEmpty && (e.multi.all fun m => m.step == 9 && m.left.isEmpty) then
      (s.finishEntry ltag .cancelled .cancelledRunning).settleDeps
    else s

/-- Steps 2 to 4 of R237 once every context has stopped: jobs cancelled, endpoints closed, tiles released. An entry that a cancel kills is then CANCELLED (R238). A member reports ENDED (R418). -/
def State.teardown (s : State) (ltag : Word) : State :=
  match s.entry ltag with
  | none => s
  | some e =>
    if (e.isEnded || e.kill) && !e.tiles.isEmpty && e.st != .dispatching && s.allStopped e.tiles then
      let s := e.tiles.foldl (fun s t => (s.cancelTileJobs t).detachTile t) s
      let s := s.closeAll ltag
      let s := e.tiles.foldl (fun s t => s.releaseTile t) s
      let s := s.updEntry ltag fun x => { x with tiles := [], frames := [], saved := none, resident := false }
      if e.lseq = 0 then
        { s.keeperMsg (s.homeOf ltag) 0x0A ltag [] with entries := s.entries.filter fun x => x.rec_.ltag != ltag }
      else if e.kill then s.killed ltag
      else s.settleDeps
    else s

/-- The process of a launch ends: its contexts are stopped, and the rest follows when they have (R237, R238). -/
def State.endContexts (s : State) (ltag : Word) : State :=
  match s.entry ltag with
  | none => s
  | some e => ((e.tiles.flatMap s.tileCtxs).foldl (fun s c => s.stopForEnd c) s).teardown ltag

/-- A process ends at the first stop of a slot 0 (R232, R237); a stop that comes while another module still places its part is kept until the entry is RUNNING. -/
def State.endProcess (s : State) (ltag : Word) (o : Outcome) (exit : BitVec 32) (cause : BitVec 8) : State :=
  match s.entry ltag with
  | none => s
  | some e =>
    if e.st == .running then
      let s := (s.finishEntry ltag .done o).updEntry ltag fun e => { e with exit := exit, cause := cause, switching := false }
      (s.endMembers ltag 1).endContexts ltag
    else if e.st == .dispatching && e.early.isNone then s.updEntry ltag fun e => { e with early := some (o, exit, cause) }
    else s

/-- EXIT of a stopped context: its exit value for EXITED (R122, R231). -/
def Ctx.exitWord (c : Ctx) (why : StopReason) : BitVec 32 :=
  match why with
  | .exited => c.exitv.val.extractLsb' 0 32
  | _ => 0#32

/-- CAUSE of a stopped context: TRAPCAUSE.CODE for DOUBLE (R122, R231). -/
def Ctx.stopCause (c : Ctx) (why : StopReason) : BitVec 8 :=
  match why with
  | .double => c.trapcause
  | _ => 0#8

/-- A context has entered STOPPED: slot 0 of a tile core ends its process (R110, R237), or reports to the home (R418); a keeper context stopped under R25 sets its bit in KSTAT (R239). A context stopped for the end of its process may be the last one. -/
def State.slotStopped (s : State) (c : Nat) (why : StopReason) : State :=
  if isKeeper c then
    match why with
    | .double => { s with kstopped := s.kstopped ||| (1#4 <<< ((coreOf c - keeperCore0) % 4)) }
    | _ => s
  else
    match s.procOf c with
    | none => s
    | some ltag =>
      let x := s.ctx c
      if slotOf c = 0 then
        match s.entry ltag with
        | none => s
        | some e =>
          if e.lseq = 0 && !e.isEnded && !e.kill then
            s.keeperMsg (s.homeOf ltag) 0x08 ltag
              (leBytes 1 why.num ++ leBytes 1 (x.stopCause why).toNat ++ leBytes 2 0 ++ leBytes 4 (x.exitWord why).toNat)
          else if e.isEnded || e.kill then s.teardown ltag
          else s.endProcess ltag (match why with
            | .double => .double
            | _ => .exited) (x.exitWord why) (x.stopCause why)
      else s.teardown ltag

/-- Whether an entry holds its tiles of this module without being placed on them: it is DISPATCHING onto them, or they are reserved for its restore (R233, R400, R405, R418). -/
def State.reserves (s : State) (e : Entry) : Bool :=
  e.st == .dispatching || (match e.multi with
    | some m => m.step == 8 || (m.step == 7 && m.home == s.sec.module && !m.left.contains s.sec.module)
    | none => false)

/-- Whether a process is placed on a tile, or a tile is reserved for one (R400, R405). -/
def State.tileBusy (s : State) (t : Nat) : Bool :=
  (s.tile t).place.isSome || s.entries.any fun e => e.tiles.contains t && s.reserves e

end Sys2Proof.Machine
end

