-- ==== Sys2Proof/Machine/Ops.lean ====
section
/-! DEFINITION. Sys2Proof/Machine/Ops.lean: taking a trap or an interrupt and returning (R24 to R26), completing an instruction (R67), waiting (R109), and the vector queue as the scalar phase sees it (R127, R129). -/

namespace Sys2Proof.Machine

/-- The trap and interrupt causes (R23). -/
inductive Cause where
  | illegalInsn | privInsn | misaligned | pageFaultLoad | pageFaultStore | pageFaultFetch | accessFault
  | ecall | ebreak | vconfig | gatedLayer | matrixDetached | sparseHeader | slotState | poison | channel
  | deadlock | cellar | stream | saveFull
  | userCompletion | localCompare | preempt | laneMapChanged | thermal
deriving DecidableEq, Repr

/-- The code of a cause (R23). -/
def Cause.code : Cause → BitVec 8
  | .illegalInsn => 0x01#8
  | .privInsn => 0x02#8
  | .misaligned => 0x03#8
  | .pageFaultLoad => 0x04#8
  | .pageFaultStore => 0x05#8
  | .pageFaultFetch => 0x06#8
  | .accessFault => 0x07#8
  | .ecall => 0x08#8
  | .ebreak => 0x09#8
  | .vconfig => 0x0B#8
  | .gatedLayer => 0x0C#8
  | .matrixDetached => 0x0D#8
  | .sparseHeader => 0x0E#8
  | .slotState => 0x0F#8
  | .poison => 0x10#8
  | .channel => 0x11#8
  | .deadlock => 0x12#8
  | .cellar => 0x13#8
  | .stream => 0x14#8
  | .saveFull => 0x15#8
  | .userCompletion => 0x80#8
  | .localCompare => 0x81#8
  | .preempt => 0x82#8
  | .laneMapChanged => 0x83#8
  | .thermal => 0x84#8

/-- The registers that every entry saves (R24, R25): the cause, its value, the address of the trapping or not yet issued instruction, and the pending prefix. -/
def Ctx.saveTrap (c : Ctx) (code : BitVec 8) (v : Word) : Ctx :=
  { c with trapcause := code, trapval := v, trappc := c.pc, pfxBit := c.pfx.isSome, pfxsave := c.pfx.getD c.pfxsave, wait := .no }

/-- Trap entry (R24): save, raise the privilege to S on a tile core and M on a keeper core, disable interrupts, and go to the handler. -/
def Ctx.enterTrap (c : Ctx) (keeper : Bool) (code : BitVec 8) (v : Word) : Ctx :=
  { c.saveTrap code v with
    ppriv := c.priv
    pie := c.ie
    ie := false
    intrap := true
    priv := if keeper then 3#2 else 1#2
    pfx := none
    pc := c.trapvec }

/-- A context stops for a reason (R110, R111): once its vector queue has finished, it leaves the rotation. -/
def State.stopCtx (s : State) (c : Nat) (why : StopReason) : State :=
  if s.queueBusy c then (s.withdraw c).updCtx c fun x => { x with wait := .stopping why }
  else (s.haltCtx c why).slotStopped c why

/-- A double trap (R25): the trap registers are written, DBL is set and the context stops. -/
def State.doubleTrap (s : State) (c : Nat) (code : BitVec 8) (v : Word) : State :=
  (s.updCtx c fun x => { x.saveTrap code v with dbl := true }).stopCtx c .double

/-- TakeTrap (R24) in a context: a synchronous cause while INTRAP = 1 is a double trap. The handler's first instruction issues in the context's next slot. -/
def State.takeTrapAt (s : State) (c : Nat) (cause : Cause) (v : Word) : State :=
  if (s.ctx c).intrap && cause.code.toNat < 0x80 then s.doubleTrap c cause.code v
  else s.updCtx c fun x => { x.enterTrap (isKeeper c) cause.code v with ready := (s.core (coreOf c)).cyc + 1 }

/-- TakeTrap in the context that issues. -/
def State.takeTrap (s : State) (cause : Cause) (v : Word) : State := s.takeTrapAt s.cur cause v

/-- A synchronous trap of the instruction that issues, or an interrupt taken at its boundary. -/
def raise (cause : Cause) (v : Word) (s : State) : Out := .next (s.takeTrap cause v)

/-- The effect of TRET on trap state (R26). -/
def Ctx.trapReturn (c : Ctx) : Ctx :=
  { c with
    priv := c.ppriv
    ie := c.pie
    intrap := false
    pc := c.trappc
    pfx := if c.pfxBit then some c.pfxsave else none
    pfxBit := false }

/-- The word that issues, zero-extended: TRAPVAL of ILLEGAL_INSN and PRIV_INSN (R23). -/
def State.word (s : State) : Word := s.iw.zeroExtend 64

/-- ILLEGAL_INSN for the word that issues. -/
def illegal (s : State) : Out := raise .illegalInsn s.word s

/-- PRIV_INSN for the word that issues. -/
def privViolation (s : State) : Out := raise .privInsn s.word s

/-- POISON with the origin of a register that the instruction may not use poisoned; none when it is clean (R363). -/
def poisonOf (r : Reg) : Option Word := r.psn

/-- The first poisoned register's origin, in the order listed (R361). -/
def firstPoison : List Reg → Option Word
  | [] => none
  | r :: rs => match r.psn with
    | some o => some o
    | none => firstPoison rs

/-- Run a meaning when none of some registers is poisoned, else raise POISON (R363). -/
def needClean (rs : List Reg) (s : State) (k : Unit → Out) : Out :=
  match firstPoison rs with
  | some o => raise .poison o s
  | none => k ()

/-- The address whose instruction has no next address (R67). -/
def lastPc : Word := 0x00007FFFFFFFFFFC#64

/-- The first address above it: TRAPVAL of R67. -/
def pastPc : Word := 0x0000800000000000#64

/-- Whether an instruction of the context that issues cannot fall through (R67). -/
def State.atLastPc (s : State) : Bool := s.me.pc == lastPc

/-- Complete an instruction that falls through: s is the state it issued in and s' the state with its effect. R67 is checked last and leaves no effect. -/
def completeIn (cost : Nat) (s s' : State) : Out :=
  if s.atLastPc then raise .accessFault pastPc s
  else .next (s'.updMe fun c => c.advance (s.now + cost))

/-- Complete at the least cost, 16 i-cycles (R14). -/
def complete (s s' : State) : Out := completeIn 16 s s'

/-- Complete an instruction that leaves its slots as bubbles for some reason until a step ends the wait (R85, R64); its effect stands already. -/
def completeWaiting (w : Wait) (cost : Nat) (s s' : State) : Out :=
  if s.atLastPc then raise .accessFault pastPc s
  else .next (s'.updMe fun c => { c.advance (s.now + cost) with wait := w })

/-- Wait (R109) with no effect so far: the instruction stays at pc and runs again when the wait ends. -/
def waitOn (w : Wait) (s : State) : Out := .next (s.updMe fun c => { c with wait := w, uword := s.iw })

/-- End a wait of the context that issues: it issues at pc in its next slot. -/
def endWait (s : State) : Out := .next (s.updMe fun c => { c with wait := .no })

/-- The wait of the context that issues is over, and the instruction that waited performs in this i-cycle (R112, R127, R129). -/
def resume (s : State) : Out := .next (s.updMe fun c => { c with wait := .resume })

/-- The pending bits of a context (R17, R370): bit 0 a completion to deliver, bit 1 CCLK at or past CCMP, bits 2 to 4 set and cleared by their sources. -/
def State.ipend (s : State) (c : Nat) : BitVec 5 :=
  let x := s.ctx c
  x.ipend ++ (if x.ccmp.toNat ≤ (s.core (coreOf c)).cyc % 2 ^ 64 then 1#1 else 0#1) ++ (if x.clist.isEmpty then 0#1 else 1#1)

/-- Interrupts both pending and enabled (R24). -/
def State.enabledPending (s : State) (c : Nat) : BitVec 5 := s.ipend c &&& (s.ctx c).ien

/-- The vector entries of the partition that a context owns that have not completed; none with no partition. -/
def State.queueOf (s : State) (c : Nat) : List VEntry :=
  match (s.core (coreOf c)).partOf (slotOf c) with
  | some p => p.pending
  | none => []

/-- Whether the vector queue of the context that issues has drained (R129). -/
def State.drained (s : State) : Bool := (s.queueOf s.cur).isEmpty

/-- Run a draining instruction's effect once the vector queue has drained; until then it waits (R129). -/
def drainThen (s : State) (k : Unit → Out) : Out := if s.drained then k () else waitOn .drain s

/-- The element accesses of a queue entry (R195). -/
def VOp.accesses : VOp → List EAddr
  | .load _ els => els
  | .store _ els => els
  | .loadLinked _ els => els
  | .storeCond _ _ els _ => els
  | .amo _ _ els => els
  | _ => []

/-- Whether a queue entry accesses memory. -/
def VOp.isMem : VOp → Bool
  | .load _ _ => true
  | .store _ _ => true
  | .loadLinked _ _ => true
  | .storeCond _ _ _ _ => true
  | .amo _ _ _ => true
  | _ => false

/-- Whether queued vector accesses of the context that issues touch a 64-byte line of the byte range (R198). -/
def State.vectorConflict (s : State) (pa n : Nat) : Bool :=
  (s.queueOf s.cur).any fun q => q.op.accesses.any fun a => (List.range n).any fun i => a.pa / 64 == (pa + i) / 64

/-- Whether every queued vector access of a context has performed at CORE. -/
def State.vectorAccessesDone (s : State) (c : Nat) : Bool := !(s.queueOf c).any fun q => q.op.isMem

end Sys2Proof.Machine
end

