-- ==== Sys2Proof/Machine/Operands.lean ====
section
/-! DEFINITION. Sys2Proof/Machine/Operands.lean: the operand forms of the scalar instructions: immediates, targets and effective addresses (R22, R71, R76 to R79, R84), and the conditions (R74). -/

namespace Sys2Proof.Machine

/-- SignExtend of a 16-bit immediate (R71). -/
def simm (i : BitVec 16) : Word := i.signExtend 64

/-- ZeroExtend of a 16-bit immediate (R71). -/
def zimm (i : BitVec 16) : Word := i.zeroExtend 64

/-- The target of a B-form branch: pc plus four times the signed word offset (R76). -/
def branchTarget (pc : Word) (off : BitVec 16) : Word := pc + (off.signExtend 64 <<< 2)

/-- The target of a J-form jump (R78). -/
def jumpTarget (pc : Word) (off : BitVec 26) : Word := pc + (off.signExtend 64 <<< 2)

/-- The effective address of a load or store (R84). -/
def effAddr (base : Word) (off : BitVec 12) : Word := base + off.signExtend 64

/-- A condition between two words (R74). -/
def Cond.holds : Cond → Word → Word → Bool
  | .eq, a, b => a == b
  | .ne, a, b => a != b
  | .lt, a, b => a.slt b
  | .le, a, b => a.sle b
  | .ge, a, b => b.sle a
  | .ltu, a, b => a.ult b
  | .leu, a, b => a.ule b
  | .geu, a, b => b.ule a

/-- The result of a computation on registers: the value, poisoned by the first poisoned register read (R65, R361). -/
def result (v : Word) (srcs : List Reg) : Reg := { val := v, psn := firstPoison srcs }

end Sys2Proof.Machine
end

