-- ==== Sys2Proof/Machine/Alu.lean ====
section
/-! DEFINITION. Sys2Proof/Machine/Alu.lean: register-register and immediate integer instructions, majors 0x01 to 0x09 (R68 to R73). -/

namespace Sys2Proof.Machine

/-- A binary operation: X[rd] := f(X[rs1], X[rs2]) (R69). -/
def aluRR (f : Word → Word → Word) (rd rs1 rs2 : XReg) (s : State) : Out :=
  let a := s.x rs1
  let b := s.x rs2
  complete s (s.writeRd rd (result (f a.val b.val) [a, b]))

/-- A unary operation or an operation with an immediate: X[rd] := f(X[rs1]) (R69, R71, R72). -/
def aluR (f : Word → Word) (rd rs1 : XReg) (s : State) : Out :=
  let a := s.x rs1
  complete s (s.writeRd rd (result (f a.val) [a]))

/-- A divide or remainder: as a binary operation, and the context waits out its fixed cost (R64, R70). -/
def divRR (f : Word → Word → Word) (rd rs1 rs2 : XReg) (s : State) : Out :=
  let a := s.x rs1
  let b := s.x rs2
  completeWaiting .divide 64 s (s.writeRd rd (result (f a.val b.val) [a, b]))

/-- The shift amount: b[5:0] (R69). -/
def shamtOf (b : Word) : Nat := (b.extractLsb' 0 6).toNat

def opSll (a b : Word) : Word := a <<< shamtOf b
def opSrl (a b : Word) : Word := a >>> shamtOf b
def opSra (a b : Word) : Word := a.sshiftRight (shamtOf b)
def opRol (a b : Word) : Word := a.rotateLeft (shamtOf b)
def opRor (a b : Word) : Word := a.rotateRight (shamtOf b)
def opSlt (a b : Word) : Word := if a.slt b then 1#64 else 0#64
def opSltu (a b : Word) : Word := if a.ult b then 1#64 else 0#64
def opMin (a b : Word) : Word := if b.slt a then b else a
def opMax (a b : Word) : Word := if a.slt b then b else a
def opMinu (a b : Word) : Word := if b.ult a then b else a
def opMaxu (a b : Word) : Word := if a.ult b then b else a

/-- Zero bits above the highest set bit; 64 for 0 (R69). -/
def opClz (a : Word) : Word := if a = 0#64 then 64#64 else BitVec.ofNat 64 (63 - a.toNat.log2)

/-- Zero bits below the lowest set bit; 64 for 0 (R69). -/
def opCtz (a : Word) : Word := if a = 0#64 then 64#64 else BitVec.ofNat 64 ((a &&& (0#64 - a)).toNat.log2)

/-- How many of the low n bits are set. -/
def countBits (a : Word) : Nat → Nat
  | 0 => 0
  | n + 1 => countBits a n + b2n (a.getLsbD n)

/-- Set bits (R69). -/
def opPopc (a : Word) : Word := BitVec.ofNat 64 (countBits a 64)

def opSextB (a : Word) : Word := (a.extractLsb' 0 8).signExtend 64
def opSextH (a : Word) : Word := (a.extractLsb' 0 16).signExtend 64
def opSextW (a : Word) : Word := (a.extractLsb' 0 32).signExtend 64
def opZextW (a : Word) : Word := (a.extractLsb' 0 32).zeroExtend 64

/-- Bits [127:64] of a product (R69): floor towards minus infinity of the exact product over 2^64. -/
def highHalf (p : Int) : Word := BitVec.ofInt 64 (p / (2 ^ 64 : Int))

def opMulhSs (a b : Word) : Word := highHalf (a.toInt * b.toInt)
def opMulhUu (a b : Word) : Word := highHalf ((a.toNat : Int) * (b.toNat : Int))
def opMulhUs (a b : Word) : Word := highHalf ((a.toNat : Int) * b.toInt)

/-- Signed quotient, towards zero; 0 for a zero divisor; -2^63 / -1 wraps (R70). -/
def opDivs (a b : Word) : Word := if b = 0#64 then 0#64 else BitVec.ofInt 64 (a.toInt.tdiv b.toInt)

/-- Unsigned quotient; 0 for a zero divisor (R70). -/
def opDivu (a b : Word) : Word := if b = 0#64 then 0#64 else BitVec.ofNat 64 (a.toNat / b.toNat)

/-- Signed remainder, with the dividend's sign; the dividend for a zero divisor (R70). -/
def opRems (a b : Word) : Word := if b = 0#64 then a else BitVec.ofInt 64 (a.toInt.tmod b.toInt)

/-- Unsigned remainder; the dividend for a zero divisor (R70). -/
def opRemu (a b : Word) : Word := if b = 0#64 then a else BitVec.ofNat 64 (a.toNat % b.toNat)

/-- LIH: replace one halfword (R73). -/
def opLih (a : Word) (h : BitVec 2) (i : BitVec 16) : Word :=
  let sh := 16 * h.toNat
  (a &&& ~~~(0xFFFF#64 <<< sh)) ||| (zimm i <<< sh)

def execAdd (rd rs1 rs2 : XReg) (s : State) : Out := aluRR (fun a b => a + b) rd rs1 rs2 s
def execSub (rd rs1 rs2 : XReg) (s : State) : Out := aluRR (fun a b => a - b) rd rs1 rs2 s
def execAnd (rd rs1 rs2 : XReg) (s : State) : Out := aluRR (fun a b => a &&& b) rd rs1 rs2 s
def execOr (rd rs1 rs2 : XReg) (s : State) : Out := aluRR (fun a b => a ||| b) rd rs1 rs2 s
def execXor (rd rs1 rs2 : XReg) (s : State) : Out := aluRR (fun a b => a ^^^ b) rd rs1 rs2 s
def execAndn (rd rs1 rs2 : XReg) (s : State) : Out := aluRR (fun a b => a &&& ~~~b) rd rs1 rs2 s
def execOrn (rd rs1 rs2 : XReg) (s : State) : Out := aluRR (fun a b => a ||| ~~~b) rd rs1 rs2 s
def execSll (rd rs1 rs2 : XReg) (s : State) : Out := aluRR opSll rd rs1 rs2 s
def execSrl (rd rs1 rs2 : XReg) (s : State) : Out := aluRR opSrl rd rs1 rs2 s
def execSra (rd rs1 rs2 : XReg) (s : State) : Out := aluRR opSra rd rs1 rs2 s
def execRol (rd rs1 rs2 : XReg) (s : State) : Out := aluRR opRol rd rs1 rs2 s
def execRor (rd rs1 rs2 : XReg) (s : State) : Out := aluRR opRor rd rs1 rs2 s
def execSlt (rd rs1 rs2 : XReg) (s : State) : Out := aluRR opSlt rd rs1 rs2 s
def execSltu (rd rs1 rs2 : XReg) (s : State) : Out := aluRR opSltu rd rs1 rs2 s
def execMin (rd rs1 rs2 : XReg) (s : State) : Out := aluRR opMin rd rs1 rs2 s
def execMax (rd rs1 rs2 : XReg) (s : State) : Out := aluRR opMax rd rs1 rs2 s
def execMinu (rd rs1 rs2 : XReg) (s : State) : Out := aluRR opMinu rd rs1 rs2 s
def execMaxu (rd rs1 rs2 : XReg) (s : State) : Out := aluRR opMaxu rd rs1 rs2 s
def execClz (rd rs1 : XReg) (s : State) : Out := aluR opClz rd rs1 s
def execCtz (rd rs1 : XReg) (s : State) : Out := aluR opCtz rd rs1 s
def execPopc (rd rs1 : XReg) (s : State) : Out := aluR opPopc rd rs1 s
def execSextB (rd rs1 : XReg) (s : State) : Out := aluR opSextB rd rs1 s
def execSextH (rd rs1 : XReg) (s : State) : Out := aluR opSextH rd rs1 s
def execSextW (rd rs1 : XReg) (s : State) : Out := aluR opSextW rd rs1 s
def execZextW (rd rs1 : XReg) (s : State) : Out := aluR opZextW rd rs1 s
def execMul (rd rs1 rs2 : XReg) (s : State) : Out := aluRR (fun a b => a * b) rd rs1 rs2 s
def execMulhSs (rd rs1 rs2 : XReg) (s : State) : Out := aluRR opMulhSs rd rs1 rs2 s
def execMulhUu (rd rs1 rs2 : XReg) (s : State) : Out := aluRR opMulhUu rd rs1 rs2 s
def execMulhUs (rd rs1 rs2 : XReg) (s : State) : Out := aluRR opMulhUs rd rs1 rs2 s
def execDivs (rd rs1 rs2 : XReg) (s : State) : Out := divRR opDivs rd rs1 rs2 s
def execDivu (rd rs1 rs2 : XReg) (s : State) : Out := divRR opDivu rd rs1 rs2 s
def execRems (rd rs1 rs2 : XReg) (s : State) : Out := divRR opRems rd rs1 rs2 s
def execRemu (rd rs1 rs2 : XReg) (s : State) : Out := divRR opRemu rd rs1 rs2 s

def execAddi (rd rs1 : XReg) (imm : BitVec 16) (s : State) : Out := aluR (fun a => a + simm imm) rd rs1 s
def execAndi (rd rs1 : XReg) (imm : BitVec 16) (s : State) : Out := aluR (fun a => a &&& zimm imm) rd rs1 s
def execOri (rd rs1 : XReg) (imm : BitVec 16) (s : State) : Out := aluR (fun a => a ||| zimm imm) rd rs1 s
def execXori (rd rs1 : XReg) (imm : BitVec 16) (s : State) : Out := aluR (fun a => a ^^^ zimm imm) rd rs1 s
def execSlti (rd rs1 : XReg) (imm : BitVec 16) (s : State) : Out := aluR (fun a => opSlt a (simm imm)) rd rs1 s
def execSltiu (rd rs1 : XReg) (imm : BitVec 16) (s : State) : Out := aluR (fun a => opSltu a (simm imm)) rd rs1 s
def execSlli (rd rs1 : XReg) (sh : BitVec 6) (s : State) : Out := aluR (fun a => opSll a (sh.zeroExtend 64)) rd rs1 s
def execSrli (rd rs1 : XReg) (sh : BitVec 6) (s : State) : Out := aluR (fun a => opSrl a (sh.zeroExtend 64)) rd rs1 s
def execSrai (rd rs1 : XReg) (sh : BitVec 6) (s : State) : Out := aluR (fun a => opSra a (sh.zeroExtend 64)) rd rs1 s
def execRori (rd rs1 : XReg) (sh : BitVec 6) (s : State) : Out := aluR (fun a => opRor a (sh.zeroExtend 64)) rd rs1 s

/-- LIH reads rd and replaces its halfword h (R73). -/
def execLih (rd : XReg) (h : BitVec 2) (imm : BitVec 16) (s : State) : Out :=
  aluR (fun a => opLih a h imm) rd rd s

/-- DIVIDE_COMPLETE: a divide, FDIV or FSQRT has held its context for its fixed cost, and the context resumes (R64, R99). -/
def execDivideComplete (s : State) : Out :=
  if s.me.wait = .divide && s.me.ready ≤ s.now then endWait s else .next s

end Sys2Proof.Machine
end

