-- ==== Sys2Proof/Machine/Clocks.lean ====
section
/-! DEFINITION. Sys2Proof/Machine/Clocks.lean: where a tile lies in the package (R390), and whether the clocks of a core run (R394, R400). -/

namespace Sys2Proof.Machine

def State.pwr (s : State) (t : Nat) : Power := s.power.get t {}
def State.setPwr (s : State) (t : Nat) (p : Power) : State := { s with power := s.power.set t p }
def State.die (s : State) (n : Nat) : Die := s.dies.get n {}
def State.hbmStack (s : State) (n : Nat) : HbmStack := s.hbm.get n {}

/-- Row and column of a tile in the 16 x 16 mesh (R17, R390). -/
def tileRow (t : Nat) : Nat := t / 16
def tileCol (t : Nat) : Nat := t % 16

/-- The compute stack of a tile (R390). -/
def stackOf (t : Nat) : Nat := 2 * (tileRow t / 8) + tileCol t / 8

/-- The HBM4 stack that holds a tile's channel (R390). -/
def hbmOf (t : Nat) : Nat := 2 * stackOf t + tileRow t % 8 / 4

/-- The number of a die state in THERM_DIE_n.STATE (R391). -/
def DieState.num : DieState → Nat
  | .normal => 0
  | .warn => 1
  | .slow => 2
  | .halt => 3

/-- The state of a compute stack: the higher of its two dies' (R394). -/
def State.stackState (s : State) (k : Nat) : Nat := Nat.max (s.die (2 * k)).st.num (s.die (2 * k + 1)).st.num

/-- Whether the clocks of a core run: they stop while its stack, or the I/O die of a keeper core, is in HALT (R394), and while its tile's clocks are off (R400). -/
def State.clocked (s : State) (k : Nat) : Bool :=
  if isKeeperCore k then (s.die 8).st.num != 3
  else s.stackState (stackOf (tileOfCore k)) != 3 &&
    (match (s.pwr (tileOfCore k)).st with
      | .gating | .gated | .waking => false
      | _ => true)

end Sys2Proof.Machine
end

