-- ==== Sys2Proof/Machine/Power.lean ====
section
/-! DEFINITION. Sys2Proof/Machine/Power.lean: droop (R392), temperature states (R393 to R396) and tile power states (R399 to R401). -/

namespace Sys2Proof.Machine

/-- The state that a sample moves a die to (R393), in units of 0.25 degrees: entered at 400, 432 and 472, left one step at 384, 416 and 456. -/
def DieState.sample (st : DieState) (temp : Nat) : DieState :=
  let entered : DieState := if temp ≥ 472 then .halt else if temp ≥ 432 then .slow else if temp ≥ 400 then .warn else .normal
  if st.num < entered.num then entered
  else match st with
    | .halt => if temp ≤ 456 then .slow else .halt
    | .slow => if temp ≤ 416 then .warn else .slow
    | .warn => if temp ≤ 384 then .normal else .warn
    | .normal => .normal

/-- TRAPVAL of THERMAL (R395). -/
def thermalValue (die : Nat) (st : Nat) (rise : Bool) (temp : BitVec 10) : Word :=
  BitVec.ofNat 64 (die % 16 + 256 * (st % 4) + 1024 * b2n rise + 65536 * temp.toNat)

/-- Make THERMAL pending in a context (R395). -/
def State.pendThermal (s : State) (v : Word) (c : Nat) : State :=
  s.updCtx c fun x => { x with ipend := x.ipend ||| 0b100#3, thermVal := v }

/-- The contexts in slot 0 of every keeper core. -/
def keeperSlot0 : List Nat := (List.range 4).map fun k => 16 * (keeperCore0 + k)

/-- The RUNNING contexts on the tiles of a compute stack. -/
def State.runningOnStack (s : State) (k : Nat) : List Nat :=
  (s.ctxs.filter fun kv => kv.2.slot == .running && !isKeeper kv.1 && stackOf (tileOf kv.1) == k).map fun kv => kv.1

/-- THERMAL_SAMPLE: a die's sensor is sampled (R393); a change of state makes THERMAL pending (R395). -/
def execThermalSample (die : Nat) (temp : BitVec 10) (s : State) : Out :=
  if die ≤ 8 then
    let d := s.die die
    let st := d.st.sample temp.toNat
    let before := s.stackState (die / 2)
    let s1 := { s with dies := s.dies.set die { st := st, temp := temp, peak := if d.peak < temp then temp else d.peak } }
    if st = d.st then .next s1
    else
      let v := thermalValue die st.num (decide (d.st.num < st.num)) temp
      let s2 := keeperSlot0.foldl (fun s c => s.pendThermal v c) s1
      let now := s2.stackState (die / 2)
      if die < 8 && before < now && (now == 1 || now == 2) then
        .next ((s2.runningOnStack (die / 2)).foldl (fun s c => s.pendThermal v c) s2)
      else .next s2
  else .next s

/-- The regime after a sample (R396), in units of 0.25 degrees: up past 340 and 380, down at 332 and 372. -/
def regimeAfter (r : BitVec 2) (temp : Nat) : BitVec 2 :=
  if r = 0#2 then (if temp > 340 then 1#2 else 0#2)
  else if r = 1#2 then (if temp > 380 then 2#2 else if temp ≤ 332 then 0#2 else 1#2)
  else (if temp ≤ 372 then 1#2 else 2#2)

/-- HBM_TEMP_SAMPLE: an HBM4 stack's case sensor is sampled and the refresh regime may change (R396). -/
def execHbmTempSample (stack : Nat) (temp : BitVec 10) (s : State) : Out :=
  if stack < 8 then
    .next { s with hbm := s.hbm.set stack { temp := temp, regime := regimeAfter (s.hbmStack stack).regime temp.toNat } }
  else .next s

/-- HBM_REFRESH: a row is refreshed; contents and marks stay (R341, R360), so nothing changes. -/
def execHbmRefresh (_tile _row : Nat) (s : State) : Out := .next s

/-- Change every core of a compute stack. -/
def State.updStackCores (s : State) (k : Nat) (f : Core → Core) : State :=
  (List.range 256).foldl
    (fun s t => if stackOf t = k then (List.range 8).foldl (fun s i => s.updCore (8 * t + i) f) s else s) s

/-- Change the cores whose DROOPCNT a droop counts in: those of a compute stack, or for 4 the keeper cores on the I/O die (R391). -/
def State.updDroopCores (s : State) (k : Nat) (f : Core → Core) : State :=
  if k < 4 then s.updStackCores k f else (List.range 4).foldl (fun s i => s.updCore (keeperCore0 + i) f) s

/-- n stretched a-cycles count in STRETCH (R392). -/
def Core.stretchBy (n : Nat) (c : Core) : Core := { c with stretch := Nat.min (c.stretch + n) (2 ^ 32 - 1) }

/-- DROOP_BEGIN: a detector trips; the event counts in DROOPCNT of the stack's cores, and its first stretched a-cycle with it (R392). Stack 4 stands for the I/O die. -/
def execDroopBegin (k : Nat) (s : State) : Out :=
  if k < 5 && !s.droop.contains k then
    .next (({ s with droop := k :: s.droop }).updDroopCores k fun c => { c.stretchBy 1 with droops := Nat.min (c.droops + 1) (2 ^ 32 - 1) })
  else .next s

/-- Further a-cycles of a run are stretched, and each counts as it goes by (R392). -/
def State.stretchMore (s : State) (k n : Nat) : State := if s.droop.contains k then s.updDroopCores k (Core.stretchBy n) else s

/-- DROOP_END: the condition ends; n a-cycles were stretched since the run was last counted (R392). -/
def execDroopEnd (k n : Nat) (s : State) : Out :=
  if s.droop.contains k then .next ((({ s with droop := natsErase s.droop k }).updDroopCores k (Core.stretchBy n)))
  else .next s

/-- The eight core keys of a tile. -/
def tileCores (t : Nat) : List Nat := (List.range 8).map fun i => 8 * t + i

/-- Dirty lines of a tile are written back, its TLBs, walker cache and instruction lines are dropped and its link sets emptied (R374 step 3, R400). -/
def State.flushTile (s : State) (t : Nat) : State :=
  let s := (s.drainTile t).updTile t fun x => { x.flush with walker := [] }
  (tileCores t).foldl
    (fun s k => match s.cores.find k with
      | none => s
      | some c => s.setCore k { c with tlb := [], l1i := [], parts := c.parts.map fun p => { p with links := [] } }) s

/-- What a core keeps when its tile is gated (R401): segment error counts, retirements, its ECCSTAT counts and CCLK. -/
def Core.retain (c : Core) : Core :=
  { cyc := c.cyc, segErr := c.segErr, retired := c.retired, wayue := c.wayue, wayce := c.wayce }

/-- A request to a tile's power block is refused (R400). -/
def State.refusePower (s : State) (t e : Nat) : State := s.setPwr t { s.pwr t with err := e }

/-- PWRCTL request 0: a QUIET tile goes back to ON (R400). -/
def State.powerRun (s : State) (t : Nat) : State :=
  let p := s.pwr t
  match p.st with
  | .quiet => s.setPwr t { p with st := .on, err := 0 }
  | _ => s.refusePower t 2

/-- PWRCTL request 1: an ON tile with no process on it starts quiescing (R400). -/
def State.powerQuiesce (s : State) (t : Nat) : State :=
  let p := s.pwr t
  match p.st with
  | .on => if s.tileBusy t then s.refusePower t 1 else s.setPwr t { p with st := .quiescing, err := 0 }
  | _ => s.refusePower t 2

/-- PWRCTL request 2: a QUIET tile saves its retention state and is gated (R400). -/
def State.powerGate (s : State) (t : Nat) : State :=
  let p := s.pwr t
  match p.st with
  | .quiet => s.setPwr t { p with st := .gating, err := 0, retained := true }
  | _ => s.refusePower t 2

/-- PWRWAKE with WAKE = 1: a GATED tile wakes (R400). -/
def State.powerWake (s : State) (t : Nat) : State :=
  let p := s.pwr t
  match p.st with
  | .gated => s.setPwr t { p with st := .waking, err := 0 }
  | _ => s.refusePower t 2

def execRun (t : Nat) (s : State) : Out := if t < Config.tiles then .next (s.powerRun t) else .next s
def execQuiesce (t : Nat) (s : State) : Out := if t < Config.tiles then .next (s.powerQuiesce t) else .next s
def execGate (t : Nat) (s : State) : Out := if t < Config.tiles then .next (s.powerGate t) else .next s
def execWake (t : Nat) (s : State) : Out := if t < Config.tiles then .next (s.powerWake t) else .next s

/-- Whether the stack of a tile runs: a transition waits while it is in HALT (R394, R407). -/
def State.stackRuns (s : State) (t : Nat) : Bool := s.stackState (stackOf t) != 3

/-- Whether the job queues of a tile are empty (R400). -/
def State.queuesEmpty (s : State) (t : Nat) : Bool :=
  let g := (s.tile t).eng
  g.mq.isEmpty && g.pq.isEmpty && g.cq.isEmpty

/-- QUIESCE_COMPLETE: the queues are empty, the write-backs are done, and the tile is QUIET (R400); it waits while the stack is in HALT. -/
def execQuiesceComplete (t : Nat) (s : State) : Out :=
  if (s.pwr t).st = .quiescing && s.stackRuns t && s.queuesEmpty t then .next ((s.flushTile t).setPwr t { s.pwr t with st := .quiet })
  else .next s

/-- What a tile keeps when it is gated (R401): HBM4 and the counts of errors in it. -/
def Tile.retain (t : Tile) : Tile := { mem := t.mem, latent := t.latent, hbmue := t.hbmue, hbmce := t.hbmce }

/-- GATING_COMPLETE: the rail is off; all on-die state but the retention state is lost, what contexts and engines held included (R400, R401). -/
def execGatingComplete (t : Nat) (s : State) : Out :=
  if (s.pwr t).st = .gating && s.stackRuns t then
    let s1 := (s.setPwr t { s.pwr t with st := .gated }).updTile t Tile.retain
    let s2 := { s1 with ctxs := s1.ctxs.filter fun kv => tileOf kv.1 != t || isKeeper kv.1 }
    .next ((tileCores t).foldl (fun s k => match s.cores.find k with
      | none => s
      | some c => s.setCore k c.retain) s2)
  else .next s

/-- WAKING_COMPLETE: the rail, the clocks and the retention state are back, and the tile is ON (R400). -/
def execWakingComplete (t : Nat) (s : State) : Out :=
  if (s.pwr t).st = .waking && s.stackRuns t then .next (s.setPwr t { s.pwr t with st := .on, retained := false })
  else .next s

/-- The number of a power state in PWRSTAT.STATE (R399). -/
def PowerState.num : PowerState → Nat
  | .on => 0
  | .quiescing => 1
  | .quiet => 2
  | .gating => 3
  | .gated => 4
  | .waking => 5

/-- A register of a tile's power block as LD reads it; none where R399 lists no register. -/
def State.powerLoad (s : State) (t off : Nat) : Option Word :=
  let p := s.pwr t
  match off with
  | 0x00 => some 0#64
  | 0x08 => some (BitVec.ofNat 64 (p.st.num + 256 * p.err + 2 ^ 32 * b2n p.retained))
  | 0x10 => some 0#64
  | 0x18 => some (p.lanecap.zeroExtend 64)
  | 0x20 => some (BitVec.ofNat 64 (256 * p.ramp.toNat + p.budget.toNat))
  | _ => none

/-- SD to a register of a tile's power block; none where R399 lists no register. -/
def State.powerStore (s : State) (t off : Nat) (v : Word) : Option State :=
  let p := s.pwr t
  match off with
  | 0x00 =>
    some (match bitsNat v 0 2 with
      | 0 => s.powerRun t
      | 1 => s.powerQuiesce t
      | 2 => s.powerGate t
      | _ => s.refusePower t 2)
  | 0x08 => some s
  | 0x10 => some (if v.getLsbD 0 then s.powerWake t else s)
  | 0x18 => some (s.setPwr t { p with lanecap := v.extractLsb' 0 17 })
  | 0x20 => some (s.setPwr t { p with ramp := v.extractLsb' 8 8, budget := v.extractLsb' 0 8 })
  | _ => none

end Sys2Proof.Machine
end

