-- ==== Sys2Proof/Machine/KeeperMem.lean ====
section
/-! DEFINITION. Sys2Proof/Machine/KeeperMem.lean: keeper-physical addresses: keeper memory, staging, flash, the routing table, the power blocks and the SYSTEM window (R258, R259, R412). -/

namespace Sys2Proof.Machine

/-- What a keeper-physical address reaches (R258). -/
inductive KRegion where
  | plain
  | flash
  | routing (m : Nat)
  | power (tile off : Nat)
  | window (tile pa : Nat)
  | unmapped
deriving DecidableEq, Repr

/-- The keeper-physical map (R258). -/
def kregion (a : Nat) : KRegion :=
  if a < 0x10000000 then .plain
  else if 0x1000000000 ≤ a && a < 0x1040000000 then .plain
  else if 0x2000000000 ≤ a && a < 0x2004000000 then .flash
  else if 0x3000000000 ≤ a && a < 0x3000001000 then .routing ((a - 0x3000000000) / 8)
  else if 0x4000000000 ≤ a && a < 0x4000010000 then .power ((a - 0x4000000000) / 256) ((a - 0x4000000000) % 256)
  else if 2 ^ 39 ≤ a && a < 2 ^ 40 then .window ((a - 2 ^ 39) / 2 ^ 31) ((a - 2 ^ 39) % 2 ^ 31)
  else .unmapped

/-- What an access to a keeper-physical address answers: it faults, it waits for a stack in HALT (R394), or it is done. -/
inductive KRes (α : Type) where
  | fault
  | halted
  | done (a : α)

/-- Whether a window access can be served: the tile is ON (R401); none while its stack is in HALT (R394). -/
def State.windowOpen (s : State) (t : Nat) : KRes Unit :=
  if (s.pwr t).st ≠ .on then .fault
  else if s.stackState (stackOf t) == 3 then .halted
  else .done ()

/-- A keeper load of n bytes: the bytes and whether any is poisoned (R258, R259, R399). -/
def State.kload (s : State) (a n : Nat) : KRes (State × List Byte × Bool) :=
  match kregion a with
  | .plain => .done (s, s.kmem.bytes a n, s.kmem.anyMarked a n)
  | .flash => .done (s, s.kmem.bytes a n, s.kmem.anyMarked a n)
  | .routing m => if n = 8 then .done (s, leBytes 8 (s.routes.get m 0#10).toNat, false) else .fault
  | .power t off =>
    if n = 8 then
      match s.powerLoad t off with
      | some v => .done (s, leBytes 8 v.toNat, false)
      | none => .fault
    else .fault
  | .window t pa =>
    match s.windowOpen t with
    | .fault => .fault
    | .halted => .halted
    | .done _ =>
      let s1 := s.updTile t fun x => x.discoverHbm (pa / 64)
      let m := (s1.tile t).hbm
      .done (s1, m.bytes pa n, m.anyMarked pa n)
  | .unmapped => .fault

/-- A keeper store of n bytes (R258, R259, R399, R412). -/
def State.kstore (s : State) (a n : Nat) (bs : List Byte) (p : Bool) : KRes State :=
  match kregion a with
  | .plain => .done { s with kmem := s.kmem.write (wbytes a bs p) }
  | .flash => .fault
  | .routing m =>
    if n = 8 then .done (({ s with routes := s.routes.set m ((BitVec.ofNat 64 (leNat bs)).extractLsb' 0 10) }).rerouted s) else .fault
  | .power t off =>
    if n = 8 then
      match s.powerStore t off (BitVec.ofNat 64 (leNat bs)) with
      | some s' => .done s'
      | none => .fault
    else .fault
  | .window t pa =>
    match s.windowOpen t with
    | .fault => .fault
    | .halted => .halted
    | .done _ => .done (s.writeEngine t (wbytes pa bs p))
  | .unmapped => .fault

/-- What a keeper atomic reads, before it writes: keeper memory, staging, or a tile through the window, where writes to its bytes that cores hold at CORE first perform at TILE (R264) and its line is written back (R259); every other region faults (R258, R399). -/
def State.katomicRead (s : State) (a n : Nat) : KRes (State × List Byte × Bool) :=
  match kregion a with
  | .plain => .done (s, s.kmem.bytes a n, s.kmem.anyMarked a n)
  | .window t pa =>
    match s.windowOpen t with
    | .fault => .fault
    | .halted => .halted
    | .done _ =>
      let s0 := s.drainBytes t (spanOf pa n)
      let s1 := s0.updTile t fun x => (x.writeBack (pa / 64)).discover (pa / 64)
      let m := (s1.tile t).mem
      .done (s1, m.bytes pa n, m.anyMarked pa n)
  | _ => .fault

end Sys2Proof.Machine
end

