-- ==== Sys2Proof/Machine/Translate.lean ====
section
/-! DEFINITION. Sys2Proof/Machine/Translate.lean: address translation (R252 to R256): page-table entries, walks, and the TLB and walker caches. -/

namespace Sys2Proof.Machine

/-- Kinds of access for translation (R254). -/
inductive AccKind where
  | fetch | load | store | icinv
deriving DecidableEq, Repr

/-- The table index of a virtual address at a level (R252). -/
def walkIndex (va : Word) : Nat → Nat
  | 1 => bitsNat va 39 9
  | 2 => bitsNat va 30 9
  | 3 => bitsNat va 21 9
  | _ => bitsNat va 16 5

/-- Bytes of the page that a leaf maps at a level. -/
def pageBytes (lvl : Nat) : Nat := if lvl = 3 then 2 ^ 21 else 2 ^ 16

/-- ADDR of an entry, as a physical address (R253). -/
def pteAddr (e : Word) : Nat := bitsNat e 8 23 * 256

/-- A malformed valid entry at a level (R253). -/
def pteMalformed (e : Word) (lvl : Nat) : Bool :=
  let leaf := e.getLsbD 1
  let a := pteAddr e
  bitsNat e 31 33 != 0 || bitsNat e 6 2 != 0
    || (leaf && (lvl == 1 || lvl == 2)) || (!leaf && lvl == 4)
    || (!leaf && (bitsNat e 2 4 != 0 || (lvl < 3 && a % 4096 != 0) || (lvl == 3 && a % 256 != 0)))
    || (leaf && ((!e.getLsbD 2 && !e.getLsbD 3 && !e.getLsbD 4) || (e.getLsbD 3 && !e.getLsbD 2)))
    || (leaf && a % pageBytes lvl != 0)
    || (if leaf then a + pageBytes lvl > Config.cellarBase
        else a + (if lvl == 3 then 256 else 4096) > Config.cellarBase)

/-- Whether a leaf allows an access (R254): fetch needs X, load R, store R and W; ICINV is allowed by R or by X. -/
def pteAllows (e : Word) : AccKind → Bool
  | .fetch => e.getLsbD 4
  | .load => e.getLsbD 2
  | .store => e.getLsbD 2 && e.getLsbD 3
  | .icinv => e.getLsbD 2 || e.getLsbD 4

/-- What reading one entry answers: the entry and whether it is poisoned, that nothing lies at the address (R258), or that it waits for a stack in HALT (R394). -/
inductive PteRead where
  | entry (e : Word) (psn : Bool)
  | absent
  | halted
deriving DecidableEq, Repr

/-- What a walk answers (R254): a leaf with its level and the pointer entries it passed, a failure with level and reason, a poisoned entry at a level, or an entry that cannot be read. -/
inductive WalkRes where
  | leaf (lvl : Nat) (entry : Word) (ptrs : List (Nat × Word))
  | fail (lvl reason : Nat)
  | poisoned (lvl : Nat)
  | absent
  | halted
deriving DecidableEq, Repr

/-- The judgement of a leaf: User access first, then the permission (R254). -/
def leafFault (e : Word) (k : AccKind) (priv : BitVec 2) : Option Nat :=
  if priv = 0#2 && !e.getLsbD 5 then some 4 else if pteAllows e k then none else some 3

/-- Walk the levels from a table's address (R254). rd reads one entry, and what reading finds stays found (R360). -/
def walkLevels (rd : State → Nat → State × PteRead) (va : Word) (k : AccKind) (priv : BitVec 2) :
    List Nat → Nat → List (Nat × Word) → State → State × WalkRes
  | [], _, _, s => (s, .fail 4 1)
  | lvl :: ls, t, ptrs, s =>
    let a := t + 8 * walkIndex va lvl
    match rd s a with
    | (s, .absent) => (s, .absent)
    | (s, .halted) => (s, .halted)
    | (s, .entry e p) =>
      if p then (s, .poisoned lvl)
      else if !e.getLsbD 0 then (s, .fail lvl 1)
      else if pteMalformed e lvl then (s, .fail lvl 2)
      else if e.getLsbD 1 then
        match leafFault e k priv with
        | some r => (s, .fail lvl r)
        | none => (s, .leaf lvl e ptrs)
      else walkLevels rd va k priv ls (pteAddr e) ((a, e) :: ptrs) s

/-- Eight bytes of memory as a word, and whether they are poisoned. -/
def Memory.word64 (m : Memory) (a : Nat) : Word × Bool := (BitVec.ofNat 64 (leNat (m.bytes a 8)), m.marked a)

/-- The physical address of a virtual address under a leaf. -/
def leafAddr (lvl : Nat) (e : Word) (va : Word) : Nat := pteAddr e + va.toNat % pageBytes lvl

/-- What translating an address answers: absent when a keeper core's walk meets an address where nothing lies (R258), halted while it waits for a stack in HALT (R394). -/
inductive TransRes where
  | ok (pa : Nat)
  | fault (lvl reason : Nat)
  | poison
  | absent
  | halted
deriving DecidableEq, Repr

/-- The TLB entry that maps an address, if one is held (R255). -/
def tlbFind (tlb : List TlbEntry) (va : Word) : Option TlbEntry :=
  let pg := bitsNat va 16 32
  tlb.find? fun e => if e.big then e.page / 32 == pg / 32 else e.page == pg

/-- An entry read at a tile's home, where an error in its line is found (R254, R365). -/
def State.readPteHome (t : Nat) (s : State) (a : Nat) : State × PteRead :=
  let s := s.touchHome t [a]
  let x := (s.tile t).mem.word64 a
  (s, .entry x.1 x.2)

/-- How the walk of a core reads one entry: at the tile home through the walker's pointer cache, or at a keeper-physical address on a keeper core (R254, R255, R258). -/
def State.readPte (k : Nat) (s : State) (a : Nat) : State × PteRead :=
  if isKeeperCore k then
    match s.kload a 8 with
    | .fault => (s, .absent)
    | .halted => (s, .halted)
    | .done (s, bs, p) => (s, .entry (BitVec.ofNat 64 (leNat bs)) p)
  else
    match (s.tile (tileOfCore k)).walker.find? fun x => x.1 == a with
    | some x => (s, .entry x.2 false)
    | none => s.readPteHome (tileOfCore k) a

/-- The address of the level-1 table a core walks from: the tile's PTBASE, or a keeper core's own (R251, R254). -/
def State.rootOf (s : State) (k : Nat) : Nat :=
  (if isKeeperCore k then (s.core k).kroot else (s.tile (tileOfCore k)).root).toNat * 4096

/-- What a successful walk leaves in the TLB and in the walker's pointer cache (R255). -/
def State.keepWalk (s : State) (k : Nat) (va : Word) (lvl : Nat) (e : Word) (ptrs : List (Nat × Word)) : State :=
  let ent : TlbEntry := { page := bitsNat va 16 32, big := lvl == 3, entry := e }
  let s := s.updCore k fun c => { c with tlb := (ent :: c.tlb).take Config.tlbEntries }
  if isKeeperCore k then s
  else s.updTile (tileOfCore k) fun x =>
    { x with walker := (ptrs ++ x.walker.filter fun y => !(ptrs.any fun z => z.1 == y.1)).take Config.walkerEntries }

/-- Translate for a context of a core (R254, R255): through the TLB, else by a walk. -/
def State.translate (s : State) (k : Nat) (priv : BitVec 2) (va : Word) (kind : AccKind) : State × TransRes :=
  match tlbFind (s.core k).tlb va with
  | some e =>
    let lvl := if e.big then 3 else 4
    match leafFault e.entry kind priv with
    | some r => (s, .fault lvl r)
    | none => (s, .ok (leafAddr lvl e.entry va))
  | none =>
    match walkLevels (State.readPte k) va kind priv [1, 2, 3, 4] (s.rootOf k) [] s with
    | (s, .leaf lvl e ptrs) => (s.keepWalk k va lvl e ptrs, .ok (leafAddr lvl e va))
    | (s, .fail lvl r) => (s, .fault lvl r)
    | (s, .poisoned _) => (s, .poison)
    | (s, .absent) => (s, .absent)
    | (s, .halted) => (s, .halted)

/-- Whether the translation of an address that a core holds is of a 2 MiB page (R256). -/
def State.bigPage (s : State) (k : Nat) (va : Word) : Bool :=
  match tlbFind (s.core k).tlb va with
  | some e => e.big
  | none => false

/-- A walk made by an engine of a tile at a privilege: it traps no one, and a poisoned entry fails with reason 5 (R254). -/
def State.walkEngine (s : State) (t : Nat) (priv : BitVec 2) (va : Word) (kind : AccKind) : State × TransRes :=
  match walkLevels (State.readPteHome t) va kind priv [1, 2, 3, 4] ((s.tile t).root.toNat * 4096) [] s with
  | (s, .leaf lvl e _) => (s, .ok (leafAddr lvl e va))
  | (s, .fail lvl r) => (s, .fault lvl r)
  | (s, .poisoned lvl) => (s, .fault lvl 5)
  | (s, .absent) => (s, .fault 1 1)
  | (s, .halted) => (s, .fault 1 1)

/-- Drop the translations of a page, or all of them, from a TLB (R256). -/
def tlbDrop (tlb : List TlbEntry) (page : Nat) (all : Bool) : List TlbEntry :=
  if all then [] else tlb.filter fun e => !(if e.big then e.page / 32 == page / 32 else e.page == page)

end Sys2Proof.Machine
end

