-- ==== Sys2Proof/Machine/LoadStore.lean ====
section
/-! DEFINITION. Sys2Proof/Machine/LoadStore.lean: scalar loads and stores (R80 to R87), atomics (R88 to R91), fences (R92 to R95) and cache operations (R106). -/

namespace Sys2Proof.Machine

/-- Where an access lands: in the tile of its context, or at a keeper-physical address (R254, R258). -/
inductive Loc where
  | tile (pa : Nat)
  | keeper (a : Nat)
deriving DecidableEq, Repr

/-- The page fault of a kind of access (R81, R254). -/
def AccKind.cause : AccKind → Cause
  | .fetch => .pageFaultFetch
  | .load => .pageFaultLoad
  | .store => .pageFaultStore
  | .icinv => .pageFaultLoad

/-- A failed translation: XLSTAT takes level and reason, and the page fault is raised with the address (R254). -/
def translationFault (kind : AccKind) (lvl reason : Nat) (va : Word) (s : State) : Out :=
  raise kind.cause va
    (s.updMe fun c => { c with xlLevel := BitVec.ofNat 4 lvl, xlReason := BitVec.ofNat 4 reason })

/-- Canonical form, then alignment to n bytes, then translation; a keeper context at M is not translated (R22, R81, R254). -/
def withAddr (va : Word) (n : Nat) (kind : AccKind) (s : State) (k : State → Loc → Out) : Out :=
  if !canonical va then raise .accessFault va s
  else if va.toNat % n != 0 then raise .misaligned va s
  else if isKeeper s.cur && s.me.priv == 3#2 then k s (.keeper va.toNat)
  else
    match s.translate (coreOf s.cur) s.me.priv va kind with
    | (s1, .ok pa) => k s1 (if isKeeper s.cur then .keeper pa else .tile pa)
    | (s1, .fault lvl r) => translationFault kind lvl r va s1
    | (s1, .poison) => raise .poison va s1
    | (s1, .absent) => raise .accessFault va s1
    | (s1, .halted) => waitOn .memReply s1

/-- The origin that a poisoned read gives (R361). -/
def wordOrigin (va : Word) : Word := va &&& ~~~7#64

/-- A value read from memory: widened from 8n bits, poisoned with the word's address when any byte is. -/
def loaded (bs : List Byte) (signed : Bool) (psn : Bool) (va : Word) : Reg :=
  let v := leNat bs
  let w := 8 * bs.length
  { val := BitVec.ofNat 64 (if signed && v ≥ 2 ^ (w - 1) then v + 2 ^ 64 - 2 ^ w else v)
    psn := if psn then some (wordOrigin va) else none }

/-- The context's own core. -/
def State.k (s : State) : Nat := coreOf s.cur

/-- Read bytes of the tile as the context's core sees them; errors in the lines are found (R246, R360). -/
def State.readOwn (s : State) (pa n : Nat) : State × List Byte × Bool :=
  let s1 := s.touchScalar s.k (spanOf pa n)
  let m := s1.coreMem s1.k
  (s1, m.bytes pa n, m.anyMarked pa n)

/-- A load of n bytes (R84). An acquire lets no later access go before what it read is at TILE (R87, R265 row 4). -/
def load (n : Nat) (signed : Bool) (rd base : XReg) (aq : BitVec 1) (off : BitVec 12) (s : State) : Out :=
  let b := s.x base
  let va := effAddr b.val off
  needClean [b] s fun _ =>
    withAddr va n .load s fun s loc =>
      match loc with
      | .tile pa =>
        if s.vectorConflict pa n then waitOn .vectorOrder s
        else
          let (s1, bs, p) := s.readOwn pa n
          let s2 := if aq == 1#1 then s1.drainCore s1.k else s1
          completeWaiting .memReply 16 s (s2.writeRd rd (loaded bs signed p va))
      | .keeper a =>
        match s.kload a n with
        | .fault => raise .accessFault va s
        | .halted => waitOn .memReply s
        | .done (s1, bs, p) => completeWaiting .memReply 16 s (s1.writeRd rd (loaded bs signed p va))

/-- What a release waits for: every earlier access of the context at TILE, queued vector accesses included (R87). -/
def releaseThen (rl : BitVec 1) (s : State) (k : State → Out) : Out :=
  if rl == 1#1 then
    if s.vectorAccessesDone s.cur then k (s.drainCore s.k) else waitOn .fence s
  else k s

/-- A store of n bytes (R84). -/
def store (n : Nat) (rs base : XReg) (rl : BitVec 1) (off : BitVec 12) (s : State) : Out :=
  let b := s.x base
  let d := s.x rs
  let va := effAddr b.val off
  let bs := leBytes n d.val.toNat
  needClean [b] s fun _ =>
    withAddr va n .store s fun s loc =>
      match loc with
      | .tile pa =>
        if s.vectorConflict pa n then waitOn .vectorOrder s
        else releaseThen rl s fun s1 =>
          completeWaiting .memReply 16 s (s1.coreStore s1.k { bytes := wbytes pa bs d.psn.isSome, by_ := s1.cur })
      | .keeper a =>
        match s.kstore a n bs d.psn.isSome with
        | .fault => raise .accessFault va s
        | .halted => waitOn .memReply s
        | .done s1 => completeWaiting .memReply 16 s s1

def execLb (rd base : XReg) (aq : BitVec 1) (off : BitVec 12) (s : State) : Out := load 1 true rd base aq off s
def execLbu (rd base : XReg) (aq : BitVec 1) (off : BitVec 12) (s : State) : Out := load 1 false rd base aq off s
def execLh (rd base : XReg) (aq : BitVec 1) (off : BitVec 12) (s : State) : Out := load 2 true rd base aq off s
def execLhu (rd base : XReg) (aq : BitVec 1) (off : BitVec 12) (s : State) : Out := load 2 false rd base aq off s
def execLw (rd base : XReg) (aq : BitVec 1) (off : BitVec 12) (s : State) : Out := load 4 true rd base aq off s
def execLwu (rd base : XReg) (aq : BitVec 1) (off : BitVec 12) (s : State) : Out := load 4 false rd base aq off s
def execLd (rd base : XReg) (aq : BitVec 1) (off : BitVec 12) (s : State) : Out := load 8 true rd base aq off s
def execSb (rs base : XReg) (rl : BitVec 1) (off : BitVec 12) (s : State) : Out := store 1 rs base rl off s
def execSh (rs base : XReg) (rl : BitVec 1) (off : BitVec 12) (s : State) : Out := store 2 rs base rl off s
def execSw (rs base : XReg) (rl : BitVec 1) (off : BitVec 12) (s : State) : Out := store 4 rs base rl off s
def execSd (rs base : XReg) (rl : BitVec 1) (off : BitVec 12) (s : State) : Out := store 8 rs base rl off s

/-- MEMORY_REPLY: the reply has arrived and the context resumes (R85). The effect of the access stands since its issue (log entry 7). -/
def execMemoryReply (s : State) : Out := if s.me.wait = .memReply then endWait s else .next s

/-- The atomics other than ACAS, and ACAS (R89). -/
inductive AtomicOp where
  | cas | swap | add | and | or | xor | min | max | minu | maxu
deriving DecidableEq, Repr

/-- A w-bit pattern as a two's complement integer. -/
def signedOf (w v : Nat) : Int := if v < 2 ^ (w - 1) then (v : Int) else (v : Int) - (2 ^ w : Int)

/-- AtomicOp of R89 on w-bit patterns. -/
def AtomicOp.apply (op : AtomicOp) (w old v : Nat) : Nat :=
  match op with
  | .cas => v
  | .swap => v
  | .add => (old + v) % 2 ^ w
  | .and => old &&& v
  | .or => old ||| v
  | .xor => old ^^^ v
  | .min => if signedOf w v < signedOf w old then v else old
  | .max => if signedOf w old < signedOf w v then v else old
  | .minu => if v < old then v else old
  | .maxu => if old < v then v else old

/-- The value an atomic returns: zero-extended for AMINU and AMAXU, else sign-extended (R89); poisoned by the memory it read, else by its operand (R82, R361). -/
def atomicReturn (op : AtomicOp) (bs : List Byte) (p : Bool) (va : Word) (src : Reg) : Reg :=
  let signed := match op with
    | .minu => false
    | .maxu => false
    | _ => true
  let r := loaded bs signed p va
  { r with psn := if p then r.psn else src.psn }

/-- An atomic (R89), with n := 2^size. store gives the state after the write of the new bytes, clean or poisoned. -/
def atomicAt (op : AtomicOp) (n : Nat) (rd rs2 : XReg) (va : Word) (s s1 : State) (bs : List Byte) (p : Bool)
    (put : State → List Byte → Bool → State) : Out :=
  let src := s.x rs2
  let old := leNat bs
  let w := 8 * n
  let v := src.val.toNat % 2 ^ w
  match op with
  | .cas =>
    if p then raise .poison va s1
    else
      let s2 := if old = (s.x rd).val.toNat % 2 ^ w then put s1 (leBytes n v) false else s1
      completeWaiting .memReply 16 s (s2.writeRd rd (atomicReturn op bs p va (Reg.clean 0#64)))
  | _ =>
    let bad := p || src.psn.isSome
    completeWaiting .memReply 16 s
      ((put s1 (leBytes n (op.apply w old v)) bad).writeRd rd (atomicReturn op bs p va src))

/-- The registers whose poison an atomic contains (R81). -/
def atomicChecked (op : AtomicOp) (rd rs1 rs2 : XReg) (s : State) : List Reg :=
  match op with
  | .cas => [s.x rs1, s.x rd, s.x rs2]
  | _ => [s.x rs1]

/-- What an atomic reads at the tile home, where every write to its bytes that a core of the tile holds first performs at TILE (R264). -/
def State.readHome (s : State) (pa n : Nat) : State × List Byte × Bool :=
  let t := tileOf s.cur
  let s := (s.drainBytes t (spanOf pa n)).touchHome t (spanOf pa n)
  let m := (s.tile t).mem
  (s, m.bytes pa n, m.anyMarked pa n)

/-- An atomic instruction (R88, R89), performed at the tile home. -/
def atomic (op : AtomicOp) (rd rs1 rs2 : XReg) (rl : BitVec 1) (size : BitVec 2) (s : State) : Out :=
  let n := 2 ^ size.toNat
  let va := (s.x rs1).val
  needClean (atomicChecked op rd rs1 rs2 s) s fun _ =>
    withAddr va n .store s fun s loc =>
      match loc with
      | .tile pa =>
        if s.vectorConflict pa n then waitOn .vectorOrder s
        else releaseThen rl s fun s0 =>
          let (s1, bs, p) := s0.readHome pa n
          atomicAt op n rd rs2 va s s1 bs p fun s b q => s.writeTile (tileOf s.cur) .home [s.cur] [] (wbytes pa b q)
      | .keeper a =>
        match s.katomicRead a n with
        | .fault => raise .accessFault va s
        | .halted => waitOn .memReply s
        | .done (s1, bs, p) =>
          atomicAt op n rd rs2 va s s1 bs p fun s b q =>
            match s.kstore a n b q with
            | .done s' => s'
            | _ => s

def execAcas (rd rs1 rs2 : XReg) (_aq rl : BitVec 1) (size : BitVec 2) (s : State) : Out := atomic .cas rd rs1 rs2 rl size s
def execAswap (rd rs1 rs2 : XReg) (_aq rl : BitVec 1) (size : BitVec 2) (s : State) : Out := atomic .swap rd rs1 rs2 rl size s
def execAadd (rd rs1 rs2 : XReg) (_aq rl : BitVec 1) (size : BitVec 2) (s : State) : Out := atomic .add rd rs1 rs2 rl size s
def execAand (rd rs1 rs2 : XReg) (_aq rl : BitVec 1) (size : BitVec 2) (s : State) : Out := atomic .and rd rs1 rs2 rl size s
def execAor (rd rs1 rs2 : XReg) (_aq rl : BitVec 1) (size : BitVec 2) (s : State) : Out := atomic .or rd rs1 rs2 rl size s
def execAxor (rd rs1 rs2 : XReg) (_aq rl : BitVec 1) (size : BitVec 2) (s : State) : Out := atomic .xor rd rs1 rs2 rl size s
def execAmin (rd rs1 rs2 : XReg) (_aq rl : BitVec 1) (size : BitVec 2) (s : State) : Out := atomic .min rd rs1 rs2 rl size s
def execAmax (rd rs1 rs2 : XReg) (_aq rl : BitVec 1) (size : BitVec 2) (s : State) : Out := atomic .max rd rs1 rs2 rl size s
def execAminu (rd rs1 rs2 : XReg) (_aq rl : BitVec 1) (size : BitVec 2) (s : State) : Out := atomic .minu rd rs1 rs2 rl size s
def execAmaxu (rd rs1 rs2 : XReg) (_aq rl : BitVec 1) (size : BitVec 2) (s : State) : Out := atomic .maxu rd rs1 rs2 rl size s

/-- The context's own accesses perform at a scope (R93): 0 CTX and 1 CORE need no more than the reply each had; TILE takes every write its core holds to TILE; SYSTEM also writes back each line that the context's stores left newer than HBM4 (R246). -/
def State.performAt (s : State) (scope : Nat) : State :=
  if isKeeper s.cur || scope ≤ 1 then s
  else if scope = 2 then s.drainCore s.k
  else (s.drainCore s.k).updTile (tileOf s.cur) fun t => t.writeBackOf s.cur

/-- FENCE: waits until every access of the context has performed at the scope (R93). FENCE CTX waits for nothing (R265). -/
def execFence (scope : BitVec 2) (s : State) : Out :=
  if scope.toNat = 0 || s.vectorAccessesDone s.cur then complete s (s.performAt scope.toNat)
  else waitOn .fence s

/-- VECTOR_ORDER_WAIT_END: the queued vector accesses have performed, so the waiting scalar access is sent (R198). -/
def execVectorOrderWaitEnd (s : State) : Out :=
  if s.me.wait = .vectorOrder && s.vectorAccessesDone s.cur then resume s else .next s

/-- Whether a cache operation of a keeper context reaches anything at a keeper-physical address (R258, R399): a power block and the routing table take no access but LD and SD, and the window is open as for any access (R401). -/
def State.keeperReach (s : State) (a : Nat) : KRes Unit :=
  match kregion a with
  | .plain => .done ()
  | .flash => .done ()
  | .window t _ => s.windowOpen t
  | _ => .fault

/-- A cache operation on the line of an address (R106): translate, act on the tile's line, reply. A keeper core's has no effect on a line that it reaches through the window (log entry 72). -/
def cacheOp (kind : AccKind) (act : State → Nat → State) (rs1 : XReg) (s : State) : Out :=
  let b := s.x rs1
  needClean [b] s fun _ =>
    withAddr b.val 1 kind s fun s loc =>
      match loc with
      | .tile pa =>
        if s.vectorConflict pa 1 then waitOn .vectorOrder s
        else completeWaiting .memReply 16 s (act s (pa / 64))
      | .keeper a =>
        match s.keeperReach a with
        | .fault => raise .accessFault b.val s
        | .halted => waitOn .memReply s
        | .done _ => completeWaiting .memReply 16 s (act s (a / 64))

/-- The bytes of a line. -/
def lineBytes (l : Nat) : List Nat := spanOf (64 * l) 64

/-- A line newer in the tile than in HBM4 is written back, and the writes to it that cores hold with it (R106); keeper memory has no line to write back. -/
def cleanLine (s : State) (l : Nat) : State :=
  if isKeeper s.cur then s
  else (s.drainBytes (tileOf s.cur) (lineBytes l)).updTile (tileOf s.cur) fun t => t.writeBack l

/-- DCFLUSH: as DCCLEAN, and then no cache holds the line (R106). -/
def flushLine (s : State) (l : Nat) : State :=
  if isKeeper s.cur then s else (cleanLine s l).updTile (tileOf s.cur) fun t => t.setHolders l []

/-- Every copy of a line in the tile's caches is dropped without write-back: the writes that cores hold to it are lost, and so is dirty data (R106). It counts as a write to the line for links (R275). -/
def dropLine (s : State) (l : Nat) : State :=
  if isKeeper s.cur then s
  else
    let t := tileOf s.cur
    let s := (tileCores t).foldl (fun s k => match s.cores.find k with
      | none => s
      | some c => s.setCore k { c with buf := c.buf.map fun w => { w with bytes := w.bytes.filter fun b => b.1 / 64 != l } }) s
    (s.updTile t fun x => (match x.old.find l with
      | some o => { x with mem := x.mem.putLine l o.hbm, old := x.old.erase l }
      | none => x).setHolders l []).breakTileLinks t [l] .nobody

def execDcclean (rs1 : XReg) (s : State) : Out := cacheOp .load cleanLine rs1 s
def execDcflush (rs1 : XReg) (s : State) : Out := cacheOp .load flushLine rs1 s

/-- DCINV needs S (R100, R106). -/
def execDcinv (rs1 : XReg) (s : State) : Out :=
  if s.me.priv = 0#2 then privViolation s else cacheOp .store dropLine rs1 s

/-- ICINV: the line leaves this core's L1I only (R106, R107). -/
def execIcinv (rs1 : XReg) (s : State) : Out :=
  cacheOp .icinv (fun s l => s.updMyCore fun c => { c with l1i := c.l1i.erase l }) rs1 s

end Sys2Proof.Machine
end

