-- ==== Sys2Proof/Machine/Rendezvous.lean ====
section
/-! DEFINITION. Sys2Proof/Machine/Rendezvous.lean: offers that meet (R209 to R216, R219, R241, R334), blocked contexts and the deadlock detector (R220 to R224, R240). -/

namespace Sys2Proof.Machine

/-- TRAPVAL of CHANNEL (R205). -/
def channelValue (w : Insn) (reason guard ep : Nat) : Word :=
  BitVec.ofNat 64 (w.toNat * 2 ^ 32 + reason * 2 ^ 24 + guard * 65536 + ep)

/-- Lanes in service of the partition of a context, as its entries see them (R212). -/
def State.lanesOf (s : State) (c : Nat) : Nat :=
  match (s.core (coreOf c)).partOf (slotOf c) with
  | some p => 128 * p.svc.length
  | none => 0

/-- One register of a context's partition, lane by lane (R212). -/
def State.readRows (s : State) (c : Nat) (reg : VReg) : List (BitVec 16) :=
  match (s.core (coreOf c)).partOf (slotOf c) with
  | some p => (List.range (128 * p.svc.length)).map fun l => ((s.core (coreOf c)).rows reg.toNat (p.phys l)).bits
  | none => []

/-- Write a register of a partition lane by lane; lanes past the list take 0 (R212). Every lane is written whole, so old mismatches there are gone (R366). -/
def Core.writeRows (k : Core) (p : Part) (reg : Nat) (rows : List (BitVec 16)) : Core :=
  (List.range (128 * p.svc.length)).foldl (fun k l => k.setRows reg (p.phys l) { bits := rows.getD l 0#16 })
    { k with parity := k.parity.filter fun y => !(y.1 == reg && p.svc.contains (y.2 / 128)) }

/-- Rows land in a register of a context's partition (R212). -/
def State.landRows (s : State) (c : Nat) (reg : VReg) (rows : List (BitVec 16)) : State :=
  match (s.core (coreOf c)).partOf (slotOf c) with
  | some p => s.updCore (coreOf c) fun k => k.writeRows p reg.toNat rows
  | none => s

/-- The register of a stream (R133). -/
def streamReg (which : Bool) : VReg := if which then 29#5 else 28#5

/-- A vector lands in a stream register: it is full, and SHORT when the lane counts differ (R213). -/
def State.landStream (s : State) (c : Nat) (which : Bool) (rows : List (BitVec 16)) (short : Bool) : State :=
  (s.landRows c (streamReg which) rows).updPartOf c fun p =>
    p.updStream which fun t => { t with full := true, short := t.short || short }

/-- SHORT when the lane counts differ, else OK (R212). -/
def shortStatus (a b : Nat) : Nat := if a = b then 0 else 3

/-- Whether a process is placed and not swapped out (R219). -/
def Entry.placed (e : Entry) : Bool := e.st == .running && e.resident

/-- What stands at a far end for an offer (R209, R213, R241): a waiting context's compatible offer, a plain offer of another kind, an empty stream register, a sink, an offer of another module, a closed channel, or nothing. -/
inductive Meet where
  | closed
  | ctx (c : Nat) (p : Pending) (o : Offer)
  | mismatch (c : Nat) (p : Pending) (o : Offer)
  | stream (c : Nat) (which : Bool)
  | sink (core tile reg : Nat)
  | remote (r : Remote)
  | nothing
deriving DecidableEq, Repr

/-- Whether an operation is a plain one and not a SELECT (R209). -/
def ChOp.plain : ChOp → Bool
  | .select _ _ => false
  | _ => true

/-- The number of this module's first tile within a launch (R418): j times T / m. -/
def State.firstIndex (s : State) (l : Launch) : Nat :=
  ((s.sec.module + s.sec.domain - s.homeOf l.ltag) % max 1 s.sec.domain) * (((l.levels.filter fun x => x.1 ≤ 3).map fun x => x.2.2).prod / l.modules)

/-- The tile of this module that has an index in its process, if it lies here (R418, R241). -/
def State.tileAt (s : State) (e : Entry) (i : Nat) : Option Nat :=
  if s.firstIndex e.rec_ ≤ i then e.tiles[i - s.firstIndex e.rec_]? else none

/-- What stands for an offer of a context at the far end of its endpoint on this module. An operation never meets itself: SELECT completes exactly one guard (R214). -/
def State.meetHere (s : State) (me : Nat) (plain : Bool) (o : Offer) (e : Endpoint) : Meet :=
  match s.entry e.ptag, s.ep e.ptag e.pep with
  | some far, some f =>
    if !far.placed then .nothing
    else
      match f.sink with
      | some (c, i, r) => match s.tileAt far i with
        | some t => if o.send && o.kind == .word then .sink c t r else .nothing
        | none => .nothing
      | none =>
        match f.st with
        | .stream c w =>
          match (s.core (coreOf c)).partOf (slotOf c) with
          | some p => if s.clocked (coreOf c) && o.send && o.kind == .vector && !(p.stream w).full && (p.stream w).bound then .stream c w else .nothing
          | none => .nothing
        | .bound c =>
          match (s.ctx c).chan with
          | some p =>
            if c = me || p.held || !s.clocked (coreOf c) then .nothing
            else
              let good := p.offers.filter fun q => q.ep == e.pep && q.send != o.send && q.kind == o.kind
              match rotate (s.ctx c).selpos.toNat (good.map fun q => q.guard) with
              | some g => match good.find? fun q => q.guard == g with
                | some q => .ctx c p q
                | none => .nothing
              | none =>
                match p.offers.find? fun q => q.ep == e.pep && q.send != o.send with
                | some q => if plain && p.op.plain then .mismatch c p q else .nothing
                | none => .nothing
          | none => .nothing
        | _ => .nothing
  | _, _ => .nothing

/-- What stands at the far end of an endpoint for an offer; only guards of mine that are plain can mismatch. -/
def State.meeting (s : State) (ltag : Word) (me : Nat) (plain : Bool) (o : Offer) : Meet :=
  match s.ep ltag o.ep with
  | none => .nothing
  | some e =>
    match e.st with
    | .closed _ => .closed
    | _ =>
      match s.remotes.find? fun r => r.ltag == ltag && r.ep == o.ep && !o.send && (r.kind == o.kind || plain) with
      | some r => .remote r
      | none => s.meetHere me plain o e

/-- The word that a receiving operation takes: its register is that of the guard, or is named by CHRECV itself. -/
def takeWord (o : Offer) (v : Word) : Option (XReg × Word) := if o.send then none else some (o.reg, v)

/-- TOTAL of a descriptor (R324). -/
def Desc.total (d : Desc) : Nat := d.size.foldl (fun a b => a * b) 1

/-- Take the next Porter job identifier of a core (R322). -/
def State.nextPJob (s : State) (core : Nat) : State × Nat :=
  let n := (s.core core).pjob + 1
  (s.updCore core fun c => { c with pjob := n }, n)

/-- A reservation becomes a job of a block transfer (R334). -/
def State.blockJob (s : State) (c : Nat) (id : Nat) (d : Desc) (priv : BitVec 2) (kind : PKind) : State :=
  let s := s.freePlace (coreOf c)
  let j : PJob :=
    { core := coreOf c, id := id, ctx := c, priv := priv, kind := kind, desc := d, pos := d.start, stamp := s.fresh,
      after := (s.ctx c).depPort }
  let s := s.tick.updTile (tileOf c) fun t => { t with eng := { t.eng with pq := t.eng.pq ++ [j] } }
  s.updCtx c fun x => { x with pjoblast := BitVec.ofNat 64 id }

/-- A block rendezvous on this module (R334): two jobs, or status 3 when TOTAL or START differs. A core whose identifiers have run out since it offered refuses with status 5, on both sides (R5, log entry 75). -/
def State.meetBlock (s : State) (a : Nat) (oa : ChOp) (b : Nat) (ob : ChOp) : State :=
  match oa, ob with
  | .block _ _ da pa, .block _ _ db pb =>
    if 2 ^ 64 ≤ (s.core (coreOf a)).pjob + 1 ∨ 2 ^ 64 ≤ (s.core (coreOf b)).pjob + (if coreOf a = coreOf b then 2 else 1) then
      (((s.dropBlock a oa).dropBlock b ob).finishChan a oa { status := 5 }).finishChan b ob { status := 5 }
    else if da.total = db.total ∧ da.start = db.start then
      let (s, ia) := s.nextPJob (coreOf a)
      let (s, ib) := s.nextPJob (coreOf b)
      let n := s.fresh
      let s := s.tick.blockJob a ia da pa (.send (.here n))
      let s := s.blockJob b ib db pb (.recv (.here n))
      (s.finishChan a oa { status := 0 }).finishChan b ob { status := 0 }
    else (((s.dropBlock a oa).dropBlock b ob).finishChan a oa { status := 3 }).finishChan b ob { status := 3 }
  | _, _ => s

/-- A rendezvous of a sending and a receiving context of this module (R209). -/
def State.meetCtxs (s : State) (a : Nat) (pa : Pending) (oa : Offer) (b : Nat) (pb : Pending) (ob : Offer) : State :=
  match oa.kind with
  | .word =>
    (s.finishChan a pa.op { status := 0, guard := oa.guard }).finishChan b pb.op
      { status := 0, guard := ob.guard, word := takeWord ob oa.data }
  | .vector =>
    let st := shortStatus (s.lanesOf a) (s.lanesOf b)
    ((s.landRows b ob.reg (s.readRows a oa.reg)).finishChan a pa.op { status := st, guard := oa.guard }).finishChan b pb.op
      { status := st, guard := ob.guard }
  | .block => s.meetBlock a pa.op b pb.op

/-- The body of a COMMIT (R415). -/
def commitBody (ltag : Word) (ep result status oid lr : Nat) : List Byte :=
  leBytes 8 ltag.toNat ++ leBytes 2 ep ++ leBytes 1 result ++ leBytes 1 status ++ leBytes 4 oid ++ leBytes 4 lr

/-- An operation that meets an operation of another kind (R209): CHANNEL 0x03 in its context. -/
def State.mismatchAt (s : State) (c : Nat) (p : Pending) (ep : Nat) : State :=
  ((s.withdraw c)).takeTrapAt c .channel (channelValue p.word 0x03 0xFF ep)

/-- A rendezvous at this module with a sender of another module (R416): a word completes the receiver at once; a vector lands first; a block becomes a job. -/
def State.meetRemote (s : State) (c : Nat) (p : Pending) (o : Offer) (r : Remote) (far : Word) (farEp : Nat) : State :=
  let s := { s with remotes := s.remotes.filter fun x => !(x.src == r.src && x.oid == r.oid) }
  let commit := fun (s : State) (res st lr : Nat) => s.sendMsg r.src 3 (commitBody far farEp res st r.oid lr)
  if r.kind ≠ o.kind then (commit s 2 0 0).mismatchAt c p o.ep
  else
    match o.kind with
    | .word => (commit s 0 0 0).finishChan c p.op { status := 0, guard := o.guard, word := takeWord o r.data }
    | .vector =>
      let lr := s.lanesOf c
      let st := shortStatus r.lanes lr
      let n := Nat.min r.lanes lr
      let s := commit s 0 st lr
      let s := { s with inbound := s.inbound ++ [({ src := r.src, oid := r.oid, ctx := c, reg := o.reg, status := st, lanes := n, bytes := [] } : Inbound)] }
      s.updCtx c fun x => { x with chan := some { p with offers := [{ o with oid := r.oid }], hold := .landing }, blocked := false }
    | .block =>
      match p.op with
      | .block _ _ d pr =>
        if 2 ^ 64 ≤ (s.core (coreOf c)).pjob + 1 then ((commit s 0 5 0).dropBlock c p.op).finishChan c p.op { status := 5 }
        else if d.total = r.total ∧ d.start = r.start then
          let (s, i) := s.nextPJob (coreOf c)
          ((commit s 0 0 0).blockJob c i d pr (.recv (.module r.src r.oid))).finishChan c p.op { status := 0 }
        else ((commit s 0 3 0).dropBlock c p.op).finishChan c p.op { status := 3 }
      | _ => s

/-- A word to a sink is written as a MOVH that issued in this i-cycle would write it (R241). -/
def State.sinkWord (s : State) (core tile reg : Nat) (v : Word) : State :=
  s.updCore (8 * tile + core) fun c =>
    if h : reg < 8 then
      { c with h := c.h.set reg ((c.h[reg]).write c.cyc (Reg.clean v)) h }
    else c

/-- One offer of a waiting context meets what stands at its far end. -/
def State.meetWith (s : State) (ltag : Word) (c : Nat) (p : Pending) (o : Offer) : Meet → State
  | .closed => s.finishClosed c p.op o.guard
  | .ctx b q r => if o.send then s.meetCtxs c p o b q r else s.meetCtxs b q r c p o
  | .mismatch b q r => (s.mismatchAt b q r.ep).mismatchAt c p o.ep
  | .stream b w =>
    let st := shortStatus (s.lanesOf c) (s.lanesOf b)
    (s.landStream b w (s.readRows c o.reg) (st == 3)).finishChan c p.op { status := st, guard := o.guard }
  | .sink k t r => (s.sinkWord k t r o.data).finishChan c p.op { status := 0, guard := o.guard }
  | .remote r =>
    match s.ep ltag o.ep with
    | some e => s.meetRemote c p o r e.ptag e.pep
    | none => s
  | .nothing => s

/-- Whether the context that an offer meets has offers of its own standing at other modules. -/
def Meet.away : Meet → Option (Nat × Pending)
  | .ctx c p _ => if p.away.isEmpty then none else some (c, p)
  | .mismatch c p _ => if p.away.isEmpty then none else some (c, p)
  | _ => none

/-- A context that has offered completes if anything stands ready, chosen by guard rotation (R215, R216); offers of either side that stand at other modules are first withdrawn there (R416). Nothing meets in a stack that is halted (R394). -/
def State.tryMeet (s : State) (c : Nat) : State :=
  match (s.ctx c).chan, s.procOf c with
  | some p, some ltag =>
    if p.held || !s.clocked (coreOf c) then s
    else
      let ready := p.offers.filter fun o => s.meeting ltag c p.op.plain o != .nothing
      match rotate (s.ctx c).selpos.toNat (ready.map fun o => o.guard) with
      | none => s
      | some g => match ready.find? fun o => o.guard == g with
        | some o =>
          let m := s.meeting ltag c p.op.plain o
          if !p.away.isEmpty then s.holdFor c p .choosing
          else match m.away with
            | some (b, q) => s.holdFor b q .choosing
            | none => s.meetWith ltag c p o m
        | none => s
  | _, _ => s

/-- What an OFFER carries after its number (R415). -/
def State.offerRest (s : State) (c : Nat) (p : Pending) (o : Offer) : List Byte :=
  match o.kind with
  | .word => leBytes 8 o.data.toNat
  | .vector => leBytes 4 (s.lanesOf c) ++ leBytes 4 0
  | .block => match p.op with
    | .block _ _ d _ => leBytes 8 d.total ++ leBytes 8 d.start
    | _ => []

/-- Whether a context of this module holds the far end of an endpoint. -/
def State.farHere (s : State) (e : Endpoint) : Bool :=
  match s.ep e.ptag e.pep with
  | some f => f.st.holder.isSome
  | none => false

/-- Send offers whose far end may be held on another module cross the links as OFFER messages, and stand there (R416). A receive whose far end may be away asks its home to place the process, in case it is parked: a channel unit does not see that (R219, PARK of R418; log entry 33). -/
def State.offerRemote (s : State) (c : Nat) (ltag : Word) (p : Pending) : State :=
  p.offers.foldl (fun s o => match s.ep ltag o.ep with
    | none => s
    | some e =>
      if s.farHere e then s
      else if o.send then
        (s.otherModules e.ptag).foldl (fun s m =>
          (s.sendMsg m 2 (offerBody e.ptag e.pep o.kind.num false o.oid (s.offerRest c p o))).updCtx c fun x =>
            { x with chan := x.chan.map fun q => { q with away := q.away ++ [(o.oid, m)] } }) s
      else if s.remote e.ptag && (s.entry e.ptag).isNone then s.keeperMsg (s.homeOf e.ptag) 0x13 e.ptag []
      else s) s

/-- A process that is parked is asked for: its entry is marked, or its home is told, once for each time it is parked; a placement that runs on is not touched (R219, R237). -/
def State.askFor (s : State) (ptag : Word) : State :=
  match s.entry ptag with
  | some far =>
    if far.hot || !(far.st == .queued || (far.st == .running && !far.resident)) then s
    else
      let s := s.updEntry ptag fun x => { x with hot := true }
      if far.lseq = 0 then s.keeperMsg (s.homeOf ptag) 0x13 ptag [] else s
  | none => s

/-- A wait on a parked process asks the Innkeeper for it, at its home (R219, R237). -/
def State.askParked (s : State) (ltag : Word) (p : Pending) : State :=
  p.offers.foldl (fun s o => match s.ep ltag o.ep with
    | none => s
    | some e => match e.st with
      | .closed _ => s
      | _ => s.askFor e.ptag) s

/-- Offer and wait (R217): the offers stand, and the operation completes at once if one of them meets. -/
def State.offer (s : State) (c : Nat) (op : ChOp) (offers : List Offer) : State :=
  match s.procOf c with
  | none => s
  | some ltag =>
    let offers := (offers.zipIdx).map fun x => { x.1 with oid := (s.fresh + x.2) % 2 ^ 32 }
    let p : Pending := { op := op, offers := offers, word := s.iw }
    let s := { s with fresh := s.fresh + offers.length }
    let s := s.updCtx c fun x => { x with chan := some p, wait := .channel }
    let s := s.tryMeet c
    match (s.ctx c).chan with
    | some q => if q.held then s else s.offerRemote c ltag q
    | none => s

/-- The wait-for edges of a context on a channel operation or on a stream register (R220): each the launch and endpoint at which the far holder is found; none when the context counts as active. -/
def State.edgesTo (s : State) (ltag : Word) (eps : List Nat) : Option (List (Word × Nat)) :=
  let es := eps.filterMap fun e => (s.ep ltag e).map fun p => (p.st, p.ptag, p.pep)
  let live := fun (x : EpState × Word × Nat) =>
    match x.1 with
    | .closed _ => false
    | _ =>
      if s.remote x.2.1 && (s.entry x.2.1).isNone then (s.path (s.homeOf x.2.1)).isSome
      else match s.entry x.2.1, s.ep x.2.1 x.2.2 with
        | some far, some f => far.placed && f.sink.isNone && (match f.st with
          | .bound _ => true
          | .stream _ _ => true
          | _ => false)
        | _, _ => false
  if es.isEmpty then none else if es.all live then some (es.map fun x => x.2) else none

/-- Whether a wait is one on a drain or on a full vector queue (R109, R220): those of R129, and of the accesses that follow queued vector accesses (R87, R93, R198, R289). -/
def Wait.behindQueue : Wait → Bool
  | .drain => true
  | .fence => true
  | .release => true
  | .vectorOrder => true
  | .scatter => true
  | .stopping _ => true
  | .vfault _ _ _ => true
  | .queueFree (.vec _ _ _ _) => true
  | _ => false

/-- The stream register that a context's wait stands on, if it is blocked behind one (R220): a drain or full vector queue behind a queued consumer of a bound register that is empty, or an index supply. -/
def State.streamWait (s : State) (c : Nat) : Option Bool :=
  let x := s.ctx c
  match (s.core (coreOf c)).partOf (slotOf c) with
  | none => none
  | some p =>
    let empty := fun w => !(p.stream w).full && (p.stream w).bound
    let queued := (p.pending.flatMap fun q => q.uses).find? empty
    match x.wait with
    | .streamIndex w => if empty w then some w else queued
    | .queueFree (.block true _ _ _) => if s.vectorAccessesDone c then none else queued
    | _ => if x.wait.behindQueue then queued else none

/-- The edges of a blocked context; none when it is active (R220). -/
def State.edges (s : State) (c : Nat) : Option (List (Word × Nat)) :=
  let x := s.ctx c
  match x.slot, s.procOf c with
  | .running, some ltag =>
    match x.chan with
    | some p => if p.held then none else s.edgesTo ltag (p.offers.map fun o => o.ep)
    | none =>
      match s.streamWait c with
      | some w => match (s.core (coreOf c)).partOf (slotOf c) with
        | some p => s.edgesTo ltag [(p.stream w).ep.toNat]
        | none => none
      | none => none
  | _, _ => none

/-- CTXID of a context: MODULE in [24:16] over its key (R17). -/
def State.ctxid (s : State) (c : Nat) : Nat := s.sec.module * 65536 + c

/-- The body of a QUERY (R415). -/
def queryBody (tag : ProbeTag) (ltag : Word) (ep qid : Nat) : List Byte :=
  leBytes 8 tag.ictx ++ leBytes 8 tag.iseq ++ leBytes 8 ltag.toNat
    ++ leBytes 2 ep ++ leBytes 4 qid ++ leBytes 2 tag.try_

/-- Send a query along every edge of a context (R221): to the holder here, or to another module. A query's number names the sending context. -/
def State.sendQueries (s : State) (tag : ProbeTag) (c : Nat) (es : List (Word × Nat)) : State :=
  es.foldl (fun s e =>
    if s.remote e.1 && (s.entry e.1).isNone then s.sendMsg (s.homeOf e.1) 5 (queryBody tag e.1 e.2 c)
    else match (s.ep e.1 e.2).bind fun p => p.st.holder with
      | some h => { s with probes := s.probes ++ [.query tag h (.here c)] }
      | none => s) s

/-- A context that becomes blocked starts a computation (R220, R221): CHBSEQ advances, and a query goes along each edge. -/
def State.startProbe (s : State) (c : Nat) (try_ : Nat) (es : List (Word × Nat)) : State :=
  let tag : ProbeTag := { ictx := s.ctxid c, iseq := (s.ctx c).chbseq, try_ := try_ }
  let s := s.updCtx c fun x => { x with comp := some { tag := tag, parent := .here c, seq := x.chbseq, left := es.length } }
  s.sendQueries tag c es

/-- The register writes of status DEADLOCK (R223): the data register of a receive is not written; SELECT gives minus 2 and leaves SELPOS. -/
def State.finishDeadlock (s : State) (c : Nat) (op : ChOp) : State :=
  match op with
  | .select rd rt =>
    let now := (s.core (coreOf c)).cyc
    s.updCtx c fun x => { ((x.setX rt (Reg.clean 2#64)).setX rd (Reg.clean (-2#64))).advance (now + 16) with chan := none, blocked := false }
  | _ => (s.dropBlock c op).finishChan c op { status := 2 }

/-- Judge anew whether a context is blocked (R220). One whose CHBSEQ cannot advance completes with DEADLOCK (R203); a wait behind a stream register has no status that could say so, so it stays as it is and the context does not count as blocked (DESIGN CHOICE, log entry 76). -/
def State.judge (s : State) (c : Nat) : State :=
  let x := s.ctx c
  match s.edges c with
  | some es =>
    if x.blocked then s
    else if x.chbseq + 1 ≥ 2 ^ 64 then
      match x.chan with
      | some p => if p.away.isEmpty then s.finishDeadlock c p.op else s.holdFor c p (.released 1)
      | none => s
    else (s.updCtx c fun x => { x with blocked := true, chbseq := x.chbseq + 1 }).startProbe c 0 es
  | none => if x.blocked then s.updCtx c fun x => { x with blocked := false, comp := none } else s

/-- Standing offers that can meet do. Of two SELECTs that become able to meet at one event the one with the lower CTXID counts as having waited first, and the other chooses (R216), so contexts are tried from the highest down. -/
def State.settleMeets (s : State) : State :=
  s.ctxs.foldr (fun kv s => match kv.2.chan with
    | some p => if p.held then s else s.tryMeet kv.1
    | none => s) s

/-- Whoever waits on a parked process asks for it: contexts of this module, and the offers of other modules (R219, R416). -/
def State.settleParked (s : State) : State :=
  let s := s.ctxs.foldl (fun s kv => match kv.2.chan, s.procOf kv.1 with
    | some p, some ltag => if p.held then s else s.askParked ltag p
    | _, _ => s) s
  s.remotes.foldl (fun s r => s.askFor r.ltag) s

/-- Contexts that wait on a channel or behind a vector queue, or that were blocked: those whose blocked state may have changed. -/
def Ctx.maybeBlocked (x : Ctx) : Bool :=
  x.blocked || x.chan.isSome || x.wait.behindQueue || (match x.wait with
    | .streamIndex _ => true
    | .queueFree _ => true
    | _ => false)

/-- A vector offer of another module meets an empty stream register here (R213, R416): COMMIT goes back, and the rows will land. -/
def State.meetStream (s : State) (r : Remote) : State :=
  match s.ep r.ltag r.ep with
  | some e => match e.st with
    | .stream c w => match (s.core (coreOf c)).partOf (slotOf c) with
      | some p =>
        if r.kind != .vector || !s.clocked (coreOf c) || (p.stream w).full || !(p.stream w).bound || (s.inbound.any fun i => i.ctx == c && i.stream == some w) then s
        else
          let lr := s.lanesOf c
          let st := shortStatus r.lanes lr
          let s := { s with remotes := s.remotes.filter fun x => !(x.src == r.src && x.oid == r.oid) }
          let s := s.sendMsg r.src 3 (commitBody e.ptag e.pep 0 st r.oid lr)
          { s with inbound := s.inbound ++
            [{ src := r.src, oid := r.oid, ctx := c, reg := streamReg w, stream := some w, status := st, lanes := Nat.min r.lanes lr, bytes := [] }] }
      | none => s
    | _ => s
  | none => s

/-- A word offer of another module meets a sink that lies here (R241, R416). -/
def State.meetSink (s : State) (r : Remote) : State :=
  match s.entry r.ltag, s.ep r.ltag r.ep with
  | some far, some e =>
    match e.sink.bind fun x => (s.tileAt far x.2.1).map fun t => (x.1, t, x.2.2) with
    | some (k, t, reg) =>
      if r.kind == .word && far.placed && s.clocked (8 * t) then
        let s := { s with remotes := s.remotes.filter fun x => !(x.src == r.src && x.oid == r.oid) }
        (s.sinkWord k t reg r.data).sendMsg r.src 3 (commitBody e.ptag e.pep 0 0 r.oid 0)
      else s
    | none => s
  | _, _ => s

/-- The rows that payload bytes hold (R415). -/
def bytesRows : List Byte → List (BitVec 16)
  | a :: b :: l => (b ++ a) :: bytesRows l
  | _ => []

/-- A vector whose rows have all come lands, and its receiver completes (R212, R213, R416). -/
def State.landInbound (s : State) (i : Inbound) : State :=
  let s := { s with inbound := s.inbound.filter fun x => !(x.src == i.src && x.oid == i.oid) }
  let rows := bytesRows i.bytes
  match i.stream with
  | some w => s.landStream i.ctx w rows (i.status == 3)
  | none => match (s.ctx i.ctx).chan with
    | some p => match p.offers.find? fun o => p.hold == .landing && !o.send && o.oid == i.oid with
      | some o => (s.landRows i.ctx i.reg rows).finishChan i.ctx p.op { status := i.status, guard := o.guard }
      | none => s
    | none => s

/-- Vectors of which nothing is missing land (R416). -/
def State.landFull (s : State) : State :=
  s.inbound.foldl (fun s i => if 2 * i.lanes ≤ i.bytes.length then s.landInbound i else s) s

/-- What follows every step at the channel units: standing offers that can meet do, and blocked contexts are judged (R209, R220). -/
def State.settle (s : State) : State :=
  let s := s.settleMeets
  let s := (s.remotes.foldl (fun s r => (s.meetStream r).meetSink r) s).landFull.settleParked
  s.ctxs.foldl (fun s kv => if kv.2.maybeBlocked then s.judge kv.1 else s) s

/-- Answer a query to whoever sent it (R221). -/
def State.answerProbe (s : State) (tag : ProbeTag) (frm : ProbeFrom) (res reach : Nat) : State :=
  match frm with
  | .here c => { s with probes := s.probes ++ [.answer tag c res reach] }
  | .module m qid =>
    s.sendMsg m 6 (leBytes 8 tag.ictx ++ leBytes 8 tag.iseq ++ leBytes 4 qid ++ leBytes 1 res ++ leBytes 1 0 ++ leBytes 2 tag.try_)

/-- The record to give up for a new engagement (R221): one of the same initiator that is older, else room, else the one whose initiator has the highest CTXID above mine. -/
def engageRoom (rs : List Engage) (tag : ProbeTag) : Option (List Engage × Option Engage) :=
  match rs.find? fun r => r.tag.ictx == tag.ictx && (r.tag.iseq < tag.iseq || (r.tag.iseq == tag.iseq && r.tag.try_ < tag.try_)) with
  | some old => some (rs.filter fun r => r.tag != old.tag, none)
  | none =>
    if rs.length < 4 then some (rs, none)
    else
      let top := rs.foldl (fun (m : Nat) r => Nat.max m r.tag.ictx) 0
      if tag.ictx < top then
        match rs.find? fun r => r.tag.ictx == top with
        | some old => some (rs.filter fun r => r.tag != old.tag, some old)
        | none => none
      else none

/-- A query reaches a context (R221). -/
def State.probeAt (s : State) (tag : ProbeTag) (j : Nat) (frm : ProbeFrom) : State :=
  let x := s.ctx j
  let seen := (x.comp.toList ++ x.engaged).find? fun r => r.tag == tag
  match seen with
  | some r => s.answerProbe tag frm (if x.blocked && x.chbseq == r.seq then 0 else 1) 0
  | none =>
    if !x.blocked then s.answerProbe tag frm 1 0
    else
      match engageRoom x.engaged tag, s.edges j with
      | none, _ => s.answerProbe tag frm 2 0
      | _, none => s.answerProbe tag frm 1 0
      | some (rs, gone), some es =>
        let s := match gone with
          | some old => if old.left = 0 then s else s.answerProbe old.tag old.parent 2 0
          | none => s
        let s := s.updCtx j fun x =>
          { x with engaged := rs ++ [{ tag := tag, parent := frm, seq := x.chbseq, left := es.length }] }
        s.sendQueries tag j es

/-- Keep a knot record with its entry, 64 at most (R240), or forward it to the home (R418). -/
def State.logKnot (s : State) (ltag : Word) (k : Knot) : State :=
  match s.entry ltag with
  | none => s
  | some e =>
    if e.lseq = 0 then
      s.keeperMsg (s.homeOf ltag) 0x0B ltag (leBytes 8 k.lseq ++ leBytes 8 k.ctxid.toNat ++ leBytes 8 k.seq ++ leBytes 4 k.word.toNat
        ++ leBytes 2 k.reached ++ leBytes 1 (b2n k.resume) ++ leBytes 1 0)
    else s.updEntry ltag fun e =>
      { e with knots := Nat.min (e.knots + 1) (2 ^ 32 - 1), log := ((e.log ++ [{ k with lseq := e.lseq }]).reverse.take 64).reverse }

/-- Fill a stream register with zeros (R213, R223). -/
def State.zeroStream (s : State) (c : Nat) (which dlk : Bool) : State :=
  (s.landRows c (streamReg which) []).updPartOf c fun p =>
    p.updStream which fun t => { t with full := true, dlk := t.dlk || dlk }

/-- The policy bits of the endpoints that a waiting operation offers on: RESUME only when all are (R223). -/
def State.resumes (s : State) (ltag : Word) (eps : List Nat) : Bool :=
  eps.all fun e => match s.ep ltag e with
    | some p => p.resume
    | none => false

/-- A knot's report is logged (R224, R240). -/
def State.recordKnot (s : State) (c reach : Nat) (ltag : Word) (w : Insn) (resume : Bool) : State :=
  s.logKnot ltag { lseq := 0, ctxid := BitVec.ofNat 64 (s.ctxid c), seq := (s.ctx c).chbseq, word := w, reached := Nat.min reach 0xFFFF, resume := resume }

/-- TRAPVAL of DEADLOCK (R223). -/
def knotValue (w : Insn) (reach : Nat) : Word := BitVec.ofNat 64 (w.toNat * 2 ^ 32 + Nat.min reach 0xFFFF)

/-- A channel instruction that the detector releases (R223), once no offer of it stands at another module. -/
def State.releaseKnot (s : State) (c reach : Nat) (p : Pending) : State :=
  match s.procOf c with
  | none => s
  | some ltag =>
    let r := s.resumes ltag (p.offers.map fun o => o.ep)
    (if r then s.finishDeadlock c p.op else (s.withdraw c).takeTrapAt c .deadlock (knotValue p.word reach)).recordKnot c reach ltag p.word r

/-- The reporting context is released (R223), and the report is logged (R224); its offers at other modules are withdrawn first (R416). A context that is being stopped has no instruction to trap: its register is filled. -/
def State.report (s : State) (c reach : Nat) : State :=
  match s.procOf c with
  | none => s
  | some ltag =>
    let x := s.ctx c
    match x.chan with
    | some p => if p.away.isEmpty then s.releaseKnot c reach p else s.holdFor c p (.released reach)
    | none =>
      match s.streamWait c, (s.core (coreOf c)).partOf (slotOf c) with
      | some w, some p =>
        let r := s.resumes ltag [(p.stream w).ep.toNat]
        let s := (s.zeroStream c w true).updCtx c fun x => { x with blocked := false }
        let stays := match x.wait with
          | .stopping _ => true
          | _ => r
        (if stays then s else s.takeTrapAt c .deadlock (knotValue x.uword reach)).recordKnot c reach ltag x.uword r
      | _, _ => s

/-- Another module has given an offer back (R416): once it was the last, what the instruction was held for happens. -/
def State.gaveBack (s : State) (c oid m : Nat) : State :=
  match (s.ctx c).chan with
  | none => s
  | some p =>
    let p := { p with away := p.away.filter fun a => !(a.1 == oid && a.2 == m) }
    let s := s.updCtx c fun x => { x with chan := some p }
    if !p.away.isEmpty then s
    else match p.hold with
      | .leaving => s.withdraw c
      | .choosing =>
        let s := (s.updCtx c fun x => { x with chan := some { p with hold := .no } }).tryMeet c
        (match (s.ctx c).chan, s.procOf c with
          | some q, some ltag => if q.held then s else s.offerRemote c ltag q
          | _, _ => s)
      | .released reach => s.releaseKnot c reach p
      | _ => s

/-- An answer for a computation of another initiator (R221): the parent is answered once every query has been. -/
def State.engagedAnswer (s : State) (tag : ProbeTag) (c : Nat) (upd : Engage → Engage) : State :=
  match (s.ctx c).engaged.find? fun r => r.tag == tag with
  | none => s
  | some r =>
    if r.left = 0 then s
    else
      let r := upd r
      let s := s.updCtx c fun x => { x with engaged := x.engaged.map fun q => if q.tag == tag then r else q }
      if 0 < r.left then s
      else
        let same := (s.ctx c).blocked && (s.ctx c).chbseq == r.seq
        s.answerProbe tag r.parent (if !same || r.active then 1 else if r.busy then 2 else 0) (r.reach + 1)

/-- An answer reaches a context (R221): the record counts it, and the last one decides. -/
def State.answerAt (s : State) (tag : ProbeTag) (c res reach : Nat) : State :=
  let x := s.ctx c
  let upd := fun (r : Engage) =>
    { r with left := r.left - 1, active := r.active || res == 1, busy := r.busy || res == 2, reach := r.reach + reach }
  match x.comp with
  | some r =>
    if r.tag = tag then
      let r := upd r
      let same := x.blocked && x.chbseq == r.seq
      if r.active then s.updCtx c fun x => { x with comp := none }
      else if 0 < r.left then s.updCtx c fun x => { x with comp := some r }
      else
        let s := s.updCtx c fun x => { x with comp := none }
        if !same then s
        else if r.busy then
          match s.edges c with
          | some es => if tag.try_ < 0xFFFF then s.startProbe c (tag.try_ + 1) es else s
          | none => s
        else s.report c (r.reach + 1)
    else s.engagedAnswer tag c upd
  | none => s.engagedAnswer tag c upd

end Sys2Proof.Machine
end

