-- ==== Sys2Proof/Machine/VecOps.lean ====
section
/-! DEFINITION. Sys2Proof/Machine/VecOps.lean: what the queued part of a vector instruction computes (R168, R169, R178 to R192): every source is read first, then a list of writes comes out (R142). -/

namespace Sys2Proof.Machine

/-- What an entry works with: the core's arrays, its partition and what the scalar phase read (R168). -/
structure VEnv where
  core : Core
  part : Part
  ent  : VEntry

/-- One write of an entry: an element at a width, or a mask bit; the origin is none for clean data. -/
inductive VWrite where
  | elem (reg w e v : Nat) (o : Option Word)
  | bit (m e : Nat) (b : Bool) (o : Option Word)
deriving DecidableEq, Repr

/-- What an entry computes: its writes and its flags (R148). -/
structure VRes where
  ws    : List VWrite := []
  flags : Flags6 := 0#6

namespace VEnv

def sew (v : VEnv) : Nat := sewBits (vtSew v.ent.vtype)
def fmtTag (v : VEnv) : Nat := vtFmt v.ent.vtype
def mode (v : VEnv) : RMode := rmodeOf (vtRm v.ent.vtype)
def bank (v : VEnv) : AMap (BitVec 19) := v.core.bank v.ent.bank

/-- The element's own random word under SR (R149): number VSBASE + e. -/
def rnd (v : VEnv) (e : Nat) : Nat := srBits v.ent.vseed (v.ent.vsbase + BitVec.ofNat 64 e)

/-- The poison of an element as an origin: elements carry none, and 0 stands for that (R362). -/
def mark (b : Bool) : Option Word := if b then some 0#64 else none

/-- Element e of a register at a width, with its poison. -/
def src (v : VEnv) (r : VReg) (w e : Nat) : Nat × Option Word :=
  let x := v.core.elem v.part r.toNat w e
  (x.1, mark x.2)

/-- The second source at element e: an element, or the low SEW bits of the scalar (R168). -/
def src2 (v : VEnv) (b : VSrc) (w e : Nat) : Nat × Option Word :=
  match b with
  | .vec r => v.src r w e
  | .sc x => (x.val.toNat % 2 ^ w, x.psn)

/-- Bit e of a mask register. -/
def mbit (v : VEnv) (m : MReg) (e : Nat) : Bool × Option Word :=
  let x := v.core.maskBit v.part m.toNat v.sew e
  (x.1, mark x.2)

/-- Active(e) of R168 with the poison of its mask bit; a poisoned mask bit counts as 1 (R169). -/
def active (v : VEnv) (mk : VMask) (e : Nat) : Option (Option Word) :=
  if e < v.ent.vl then
    match mk with
    | none => some none
    | some m =>
      let x := v.mbit m e
      if x.1 || x.2.isSome then some x.2 else none
  else none

end VEnv

/-- The first origin of two that is one; 0, the poison of an array element, is none (R362). -/
def orO (a b : Option Word) : Option Word :=
  match a, b with
  | some o, some q => if o = 0#64 then some q else some o
  | some o, none => some o
  | none, b => b

/-- Combine the results of all elements in ascending order. -/
def VRes.join (rs : List VRes) : VRes :=
  { ws := rs.flatMap fun r => r.ws, flags := rs.foldl (fun f r => f ||| r.flags) 0#6 }

/-- An operation element by element over the active elements (R168): f answers the result of an element, given the poison of its mask bit. -/
def VEnv.each (v : VEnv) (mk : VMask) (f : Nat → Option Word → VRes) : VRes :=
  VRes.join ((List.range v.ent.vl).filterMap fun e => (v.active mk e).map fun mp => f e mp)

/-- An element operation with two sources and the old destination (R179, R181). -/
def VEnv.arith (v : VEnv) (vd vs1 : VReg) (b : VSrc) (mk : VMask) (bin acc : Bool)
    (f : Nat → Nat → Nat → Nat → Nat × Flags6) : VRes :=
  v.each mk fun e mp =>
    let w := v.sew
    let x := v.src vs1 w e
    let y := if bin then v.src2 b w e else (0, none)
    let d := v.src vd w e
    let r := f e x.1 y.1 d.1
    { ws := [.elem vd.toNat w e r.1 (orO y.2 (orO x.2 (orO (if acc then d.2 else none) mp)))], flags := r.2 }

/-- A compare into a mask register (R180, R182). -/
def VEnv.compare (v : VEnv) (md : MReg) (vs1 : VReg) (b : VSrc) (mk : VMask) (f : Nat → Nat → Bool × Flags6) : VRes :=
  v.each mk fun e mp =>
    let x := v.src vs1 v.sew e
    let y := v.src2 b v.sew e
    let r := f x.1 y.1
    { ws := [.bit md.toNat e r.1 (orO y.2 (orO x.2 mp))], flags := r.2 }

/-- The floating format that VTYPE names (R181). -/
def VEnv.fmt (v : VEnv) : Fmt :=
  match tagFmt v.fmtTag with
  | .flt f => f
  | _ => fmtF32

/-- The operation of a mask instruction on two bits (R185). -/
def MOp.apply : MOp → Bool → Bool → Bool
  | .and, a, b => a && b
  | .or, a, b => a || b
  | .xor, a, b => a != b
  | .andn, a, b => a && !b
  | .not, a, _ => !a
  | .set, _, _ => true
  | .clr, _, _ => false

/-- How many mask sources an instruction reads (R185). -/
def MOp.reads : MOp → Nat
  | .not => 1
  | .set => 0
  | .clr => 0
  | _ => 2

/-- Mask logic (R185). -/
def VEnv.maskLogic (v : VEnv) (op : MOp) (md a b : MReg) (mk : VMask) : VRes :=
  v.each mk fun e mp =>
    let x := v.mbit a e
    let y := v.mbit b e
    let px := if op.reads ≥ 1 then x.2 else none
    let py := if op.reads = 2 then y.2 else none
    { ws := [.bit md.toNat e (op.apply x.1 y.1) (orO px (orO py mp))] }

/-- One element moved (R187, R189). -/
def VEnv.move (v : VEnv) (vd : VReg) (mk : VMask) (f : Nat → Option (Nat × Option Word)) : VRes :=
  v.each mk fun e mp =>
    match f e with
    | some r => { ws := [.elem vd.toNat v.sew e r.1 (orO r.2 mp)] }
    | none => {}

/-- VMERGE: for every e below VL, the second source where the mask bit is 1, else the first (R187). A poisoned mask bit counts as 1 (R169). -/
def VEnv.mergeOp (v : VEnv) (vd vs1 : VReg) (b : VSrc) (mr : MReg) : VRes :=
  VRes.join ((List.range v.ent.vl).map fun e =>
    let m := v.mbit mr e
    let r := if m.1 || m.2.isSome then v.src2 b v.sew e else v.src vs1 v.sew e
    { ws := [.elem vd.toNat v.sew e r.1 (orO r.2 m.2)] })

/-- The exponent of a block scale code; none for the NaN code 0xFF (R145). -/
def scaleExp (k : Nat) : Option Int := if k = 255 then none else some ((k : Int) - 127)

/-- A value times 2^k. -/
def FV.scale (x : FV) (k : Int) : FV :=
  match x with
  | .fin s m e => .fin s m (e + k)
  | y => y

/-- The largest finite magnitude of a target of VQUANT (R157): m * 2^e. -/
def quantMax (t : EltFmt) (w : Nat) : Nat × Int :=
  match t with
  | .flt f => (match f.decode f.maxc with
    | .fin _ m e => (m, e)
    | _ => (0, 0))
  | _ => (2 ^ (w - 1) - 1, 0)

/-- The smallest k at or above lo with m * 2^e at most fm * 2^(fe + k), searched over n values. -/
def leastScale (m : Nat) (e : Int) (fm : Nat) (fe : Int) : Nat → Int → Int
  | 0, k => k
  | n + 1, k => if cmpMag m e fm (fe + k) != .gt then k else leastScale m e fm fe n (k + 1)

/-- ChooseScale of R157 over the values of a block's active elements. -/
def chooseScale (t : EltFmt) (w : Nat) (xs : List FV) : Nat :=
  if xs.any FV.isNan then 0xFF
  else if xs.any fun x => !x.finite then 254
  else
    let big := xs.foldl (fun (acc : Nat × Int) x => match x with
      | .fin _ m e => if cmpMag acc.1 acc.2 m e == .lt then (m, e) else acc
      | _ => acc) (0, 0)
    if big.1 = 0 then 0
    else
      let fm := quantMax t w
      (leastScale big.1 big.2 fm.1 fm.2 254 (-127) + 127).toNat

/-- A conversion (R183, R184): sf, df the source and destination formats with widths ws, wd. -/
def VEnv.convert (v : VEnv) (k : Cvt) (vd vs1 : VReg) (tag : BitVec 5) (mk : VMask) : VRes :=
  let here := tagFmt v.fmtTag
  let there := tagFmt tag.toNat
  let (sf, df) := match k with
    | .fcvt => (there, here)
    | .quant => (there, here)
    | .dequant => (here, there)
  let ws := sf.width v.sew
  let wd := df.width v.sew
  let blk := vtBlk v.ent.vtype
  let B := blkSize v.ent.vtype
  let sreg := vtSreg v.ent.vtype
  let val := fun e => sf.value ws v.bank (v.src vs1 ws e).1
  let scaled := blk != 0 && (match k with
    | .fcvt => false
    | _ => true)
  let isQ := match k with
    | .quant => true
    | _ => false
  let blocks := List.range ((v.ent.vl + B - 1) / B)
  let members := fun b => ((List.range B).map fun i => b * B + i).filter fun e => (v.active mk e).isSome
  let chosen : List (Nat × Nat × Option Word) :=
    if scaled && isQ then
      blocks.filterMap fun b =>
        let es := members b
        if es.isEmpty then none
        else
          let o := es.foldl (fun o e => orO o (orO (v.src vs1 ws e).2 ((v.active mk e).getD none))) none
          some (b, chooseScale df wd (es.map val), o)
    else []
  let scaleOf := fun e =>
    if isQ then
      match chosen.find? fun c => c.1 == e / B with
      | some c => (c.2.1, c.2.2)
      | none => (127, none)
    else
      let x := v.core.elem v.part sreg 8 (e / B)
      (x.1, VEnv.mark x.2)
  let body := v.each mk fun e mp =>
    let x := val e
    let y := if scaled then
        match scaleExp (scaleOf e).1 with
        | some q => x.scale (if isQ then -q else q)
        | none => .nan
      else x
    let po := if scaled then (scaleOf e).2 else none
    let r := df.convert wd v.bank v.mode y (v.rnd e)
    { ws := [.elem vd.toNat wd e r.1 (orO (v.src vs1 ws e).2 (orO po mp))], flags := r.2 }
  { body with ws := (chosen.map fun c => VWrite.elem sreg 8 c.1 c.2.1 c.2.2) ++ body.ws }

/-- What VRED and VSCAN combine: a pattern, its poison, and the flags raised so far. -/
structure Node where
  v : Nat
  o : Option Word := none
  f : Flags6 := 0#6

/-- The identity of an operation (R158). -/
def RedOp.identity (op : RedOp) (n : Nat) (f : Fmt) : Nat :=
  match op with
  | .sum => 0
  | .or => 0
  | .xor => 0
  | .and => 2 ^ n - 1
  | .min => 2 ^ (n - 1) - 1
  | .max => 2 ^ (n - 1)
  | .minu => 2 ^ n - 1
  | .maxu => 0
  | .fsum => f.withSign true 0
  | .fmin => (2 ^ f.ebits - 1) * 2 ^ f.fbits
  | .fmax => f.withSign true ((2 ^ f.ebits - 1) * 2 ^ f.fbits)

/-- Whether an operation is a floating one (R190). -/
def RedOp.isFp : RedOp → Bool
  | .fsum => true
  | .fmin => true
  | .fmax => true
  | _ => false

/-- Combine of R158: integers wrap; FSUM rounds under the mode with SR replaced by RNE; FMIN and FMAX as R97. -/
def RedOp.combine (op : RedOp) (n : Nat) (f : Fmt) (mode : RMode) (x y : Node) : Node :=
  let m := match mode with
    | .sr => .rne
    | r => r
  let r : Nat × Flags6 := match op with
    | .sum => ((x.v + y.v) % 2 ^ n, 0#6)
    | .and => (x.v &&& y.v, 0#6)
    | .or => (x.v ||| y.v, 0#6)
    | .xor => (x.v ^^^ y.v, 0#6)
    | .min => VInt.apply .min n x.v y.v 0
    | .max => VInt.apply .max n x.v y.v 0
    | .minu => VInt.apply .minu n x.v y.v 0
    | .maxu => VInt.apply .maxu n x.v y.v 0
    | .fsum => VFp.apply .add f m 0 x.v y.v 0
    | .fmin => VFp.apply .min f m 0 x.v y.v 0
    | .fmax => VFp.apply .max f m 0 x.v y.v 0
  { v := r.1, o := orO x.o y.o, f := x.f ||| y.f ||| r.2 }

/-- One level of the pairwise tree (R158). -/
def pairLevel (c : Node → Node → Node) : List Node → List Node
  | a :: b :: rest => c a b :: pairLevel c rest
  | l => l

/-- The tree over a list whose length is a power of two: levels times over. -/
def treeFold (c : Node → Node → Node) : Nat → List Node → List Node
  | 0, l => l
  | n + 1, l => treeFold c n (pairLevel c l)

/-- log2 of the smallest power of two at or above n; 0 when n is at most 1 (R158). -/
def log2Up (n : Nat) : Nat := if n ≤ 1 then 0 else (n - 1).log2 + 1

/-- Leaf i of the tree (R158). -/
def VEnv.leaf (v : VEnv) (op : RedOp) (vs1 : VReg) (mk : VMask) (i : Nat) : Node :=
  match v.active mk i with
  | some mp => let x := v.src vs1 v.sew i; { v := x.1, o := orO x.2 mp }
  | none => { v := op.identity v.sew v.fmt }

/-- The node over 2^lg leaves from an index. -/
def VEnv.node (v : VEnv) (op : RedOp) (vs1 : VReg) (mk : VMask) (lo lg : Nat) : Node :=
  ((treeFold (op.combine v.sew v.fmt v.mode) lg
    ((List.range (2 ^ lg)).map fun i => v.leaf op vs1 mk (lo + i))).head?).getD { v := op.identity v.sew v.fmt }

/-- The value of VRED over the strip (R158). -/
def VEnv.reduce (v : VEnv) (op : RedOp) (vs1 : VReg) (mk : VMask) : Node := v.node op vs1 mk 0 (log2Up v.ent.vl)

/-- The aligned blocks that cover the first n elements, largest first: start and log2 of size (R159). -/
def scanBlocks : Nat → Nat → Nat → List (Nat × Nat)
  | 0, _, _ => []
  | b + 1, n, lo => if n / 2 ^ b % 2 = 1 then (lo, b) :: scanBlocks b n (lo + 2 ^ b) else scanBlocks b n lo

/-- The value of VSCAN at element e (R159). -/
def VEnv.scanAt (v : VEnv) (op : RedOp) (vs1 : VReg) (mk : VMask) (e : Nat) : Node :=
  match (scanBlocks ((e + 1).log2 + 1) (e + 1) 0).map fun b => v.node op vs1 mk b.1 b.2 with
  | [] => { v := op.identity v.sew v.fmt }
  | n :: ns => ns.foldl (op.combine v.sew v.fmt v.mode) n

/-- How many elements below e have their mask bit set; a poisoned bit counts as 1 (R191, R169). -/
def VEnv.rank (v : VEnv) (mr : MReg) (e : Nat) : Nat :=
  ((List.range e).filter fun i => (v.active (some mr) i).isSome).length

/-- VCOMPRESS and VEXPAND (R191). Each target depends on every mask bit at or below it, so a poisoned one poisons it. -/
def VEnv.pack (v : VEnv) (vd vs1 : VReg) (mr : MReg) (expand : Bool) : VRes :=
  VRes.join ((List.range v.ent.vl).filterMap fun e =>
    (v.active (some mr) e).map fun mp =>
      let j := v.rank mr e
      let o := (List.range (e + 1)).foldl (fun o i => orO o (v.mbit mr i).2) mp
      if expand then
        let x := v.src vs1 v.sew j
        { ws := [.elem vd.toNat v.sew e x.1 (orO x.2 o)] }
      else
        let x := v.src vs1 v.sew e
        { ws := [.elem vd.toNat v.sew j x.1 (orO x.2 o)] })

/-- What a queue entry that touches only array rows computes (R171). Memory, matrix and Cellar entries are performed elsewhere. VSLIDEUP with a poisoned distance marks every active element, those below the distance too, which keep their bits (R189, R361; DESIGN CHOICE, log entry 83). -/
def VEnv.compute (v : VEnv) : VOp → VRes
  | .int op vd vs1 b km =>
    v.arith vd vs1 b km op.binary (decide (op = .macc)) fun _ x y d => op.apply v.sew x y d
  | .icmp op md vs1 b km => v.compare md vs1 b km fun x y => (op.holdsN v.sew x y, 0#6)
  | .fp op vd vs1 b km =>
    v.arith vd vs1 b km op.binary (decide (op = .macc)) fun e x y d => op.apply v.fmt v.mode (v.rnd e) x y d
  | .fcmp op md vs1 b km => v.compare md vs1 b km fun x y => op.apply v.fmt x y
  | .cvt k vd vs1 tag km => v.convert k vd vs1 tag km
  | .mask op md a b km => v.maskLogic op md a b km
  | .mv vd vs1 km => v.move vd km fun e => some (v.src vs1 v.sew e)
  | .merge vd vs1 b mr => v.mergeOp vd vs1 b mr
  | .bcast vd x km => v.move vd km fun _ => some (x.val.toNat % 2 ^ v.sew, x.psn)
  | .mvsx vd x =>
    if v.ent.vl = 0 then {} else { ws := [.elem vd.toNat v.sew 0 (x.val.toNat % 2 ^ v.sew) x.psn] }
  | .vid vd km => v.move vd km fun e => some (e % 2 ^ v.sew, none)
  | .shuf vd vs1 vi km =>
    v.move vd km fun e =>
      let i := v.src vi v.sew e
      if i.1 < v.ent.vl then let x := v.src vs1 v.sew i.1; some (x.1, orO i.2 x.2) else some (0, i.2)
  | .slideup vd vs1 k km =>
    v.move vd km fun e =>
      if k.val.toNat ≤ e then let x := v.src vs1 v.sew (e - k.val.toNat); some (x.1, orO k.psn x.2)
      else if k.psn.isSome then some ((v.src vd v.sew e).1, k.psn) else none
  | .slidedn vd vs1 k km =>
    v.move vd km fun e =>
      if e + k.val.toNat < v.ent.vl then let x := v.src vs1 v.sew (e + k.val.toNat); some (x.1, orO k.psn x.2)
      else some (0, k.psn)
  | .red op vd vs1 km =>
    if v.ent.vl = 0 then {}
    else let n := v.reduce op vs1 km; { ws := [.elem vd.toNat v.sew 0 n.v n.o], flags := n.f }
  | .scan op vd vs1 km =>
    v.each km fun e mp => let n := v.scanAt op vs1 km e; { ws := [.elem vd.toNat v.sew e n.v (orO n.o mp)], flags := n.f }
  | .compress vd vs1 mr => v.pack vd vs1 mr false
  | .expand vd vs1 mr => v.pack vd vs1 mr true
  | _ => {}

/-- The partition whose VPORIG takes the origin of the first poison mark written; poison that only passes from element to element has none to give (R362). -/
def Part.notePoison (p : Part) (o : Option Word) : Part :=
  match o with
  | some w => if p.vporig = 0#64 then { p with vporig := w } else p
  | none => p

/-- Carry out one write. -/
def applyWrite (sew : Nat) (kp : Core × Part) (w : VWrite) : Core × Part :=
  match w with
  | .elem reg wd e v o => (kp.1.setElem kp.2 reg wd e v o.isSome, kp.2.notePoison o)
  | .bit m e b o => (kp.1.setMaskBit kp.2 m sew e b o.isSome, kp.2.notePoison o)

/-- Carry out the writes and flags of an entry on a core. -/
def Core.applyRes (k : Core) (p : Part) (sew : Nat) (r : VRes) : Core :=
  let kp := r.ws.foldl (applyWrite sew) (k, p)
  kp.1.updPart p.base fun q => { q with vflags := q.vflags ||| r.flags, vporig := kp.2.vporig }

end Sys2Proof.Machine
end

