-- ==== Sys2Proof/Machine/VecExec.lean ====
section
/-! DEFINITION. Sys2Proof/Machine/VecExec.lean: the micro-sequencer of a partition performs the entry at the head of its queue (R127, R168, R197, R213, R275 to R280, R300, R310, R335, R340), with parity and lane retirement (R366 to R369). -/

namespace Sys2Proof.Machine

/-- The register of a second source. -/
def VSrc.regs : VSrc → List VReg
  | .vec r => [r]
  | .sc _ => []

/-- The mask register of an entry, if it applies one; CLQUERY's is in its control word (R339). -/
def VOp.maskReg : VOp → VMask
  | .int _ _ _ _ mk => mk
  | .icmp _ _ _ _ mk => mk
  | .fp _ _ _ _ mk => mk
  | .fcmp _ _ _ _ mk => mk
  | .cvt _ _ _ _ mk => mk
  | .mask _ _ _ _ mk => mk
  | .mv _ _ mk => mk
  | .bcast _ _ mk => mk
  | .vid _ mk => mk
  | .shuf _ _ _ mk => mk
  | .slideup _ _ _ mk => mk
  | .slidedn _ _ _ mk => mk
  | .red _ _ _ mk => mk
  | .scan _ _ _ mk => mk
  | .compress _ _ mr => some mr
  | .expand _ _ mr => some mr
  | .mtmv _ _ _ mk => mk
  | .mvtm _ _ _ mk => mk
  | .clquery _ _ ctl _ _ => if ctl / 65536 % 2 = 1 then some (BitVec.ofNat 2 (ctl / 131072)) else none
  | _ => none

/-- Elements of a register, by its field value, that an instruction reads or writes at a width; a mask register's bits lie where elements of that width do (R134). -/
structure Touch where
  reg : Nat
  w   : Nat
  els : List Nat

/-- A register's own field value. -/
def VReg.at_ (r : VReg) (w : Nat) (els : List Nat) : Touch := { reg := r.toNat, w := w, els := els }

/-- A mask register's field value. -/
def MReg.at_ (m : MReg) (w : Nat) (els : List Nat) : Touch := { reg := 24 + m.toNat, w := w, els := els }

/-- A second source's touch. -/
def VSrc.at_ (b : VSrc) (w : Nat) (els : List Nat) : List Touch := b.regs.map fun r => VReg.at_ r w els

/-- What an entry reads of the array and what it writes there, besides its mask (R133, R168, R178 to R192): an entry whose mask is empty touches nothing (R166). -/
def VEnv.touches (v : VEnv) (op : VOp) : List Touch × List Touch :=
  let w := v.sew
  let n := List.range v.ent.vl
  let act := n.filter fun e => (v.active op.maskReg e).isSome
  let all := if act.isEmpty then [] else n
  let first := List.range act.length
  let mem := op.accesses.map fun a => a.e
  match op with
  | .int o vd vs1 b _ => ([VReg.at_ vs1 w act] ++ b.at_ w act ++ (if o = .macc then [VReg.at_ vd w act] else []), [VReg.at_ vd w act])
  | .icmp _ md vs1 b _ => ([VReg.at_ vs1 w act] ++ b.at_ w act, [MReg.at_ md w act])
  | .fp o vd vs1 b _ => ([VReg.at_ vs1 w act] ++ b.at_ w act ++ (if o = .macc then [VReg.at_ vd w act] else []), [VReg.at_ vd w act])
  | .fcmp _ md vs1 b _ => ([VReg.at_ vs1 w act] ++ b.at_ w act, [MReg.at_ md w act])
  | .cvt k vd vs1 tag _ =>
    let here := (tagFmt v.fmtTag).width w
    let there := (tagFmt tag.toNat).width w
    let scales : Touch := { reg := vtSreg v.ent.vtype, w := 8, els := (act.map fun e => e / blkSize v.ent.vtype).dedup }
    let blk := vtBlk v.ent.vtype != 0
    (match k with
      | .fcvt => ([VReg.at_ vs1 there act], [VReg.at_ vd here act])
      | .quant => ([VReg.at_ vs1 there act], [VReg.at_ vd here act] ++ (if blk then [scales] else []))
      | .dequant => ([VReg.at_ vs1 here act] ++ (if blk then [scales] else []), [VReg.at_ vd there act]))
  | .mask o md a b _ =>
    ((if o.reads ≥ 1 then [MReg.at_ a w act] else []) ++ (if o.reads = 2 then [MReg.at_ b w act] else []), [MReg.at_ md w act])
  | .mv vd vs1 _ => ([VReg.at_ vs1 w act], [VReg.at_ vd w act])
  | .merge vd vs1 b mr => ([VReg.at_ vs1 w n, MReg.at_ mr w n] ++ b.at_ w n, [VReg.at_ vd w n])
  | .bcast vd _ _ => ([], [VReg.at_ vd w act])
  | .mvsx vd _ => ([], [VReg.at_ vd w (n.take 1)])
  | .vid vd _ => ([], [VReg.at_ vd w act])
  | .shuf vd vs1 vi _ => ([VReg.at_ vs1 w all, VReg.at_ vi w act], [VReg.at_ vd w act])
  | .slideup vd vs1 k _ => ([VReg.at_ vs1 w all], [VReg.at_ vd w (act.filter fun e => decide (k.val.toNat ≤ e))])
  | .slidedn vd vs1 _ _ => ([VReg.at_ vs1 w all], [VReg.at_ vd w act])
  | .red _ vd vs1 _ => ([VReg.at_ vs1 w act], [VReg.at_ vd w (n.take 1)])
  | .scan _ vd vs1 _ => ([VReg.at_ vs1 w act], [VReg.at_ vd w act])
  | .compress vd vs1 _ => ([VReg.at_ vs1 w act], [VReg.at_ vd w first])
  | .expand vd vs1 _ => ([VReg.at_ vs1 w first], [VReg.at_ vd w act])
  | .load vd _ => ([], [VReg.at_ vd w mem])
  | .store vs _ => ([VReg.at_ vs w mem], [])
  | .loadLinked vd _ => ([], [VReg.at_ vd w mem])
  | .storeCond vs mr _ _ => ([VReg.at_ vs w mem, MReg.at_ mr w mem], [MReg.at_ mr w mem])
  | .amo _ vs _ => ([VReg.at_ vs w mem], [])
  | .repack _ => ([], [])
  | .mtmv vd _ _ _ => ([], [VReg.at_ vd w act])
  | .mvtm _ vs _ _ => ([VReg.at_ vs w act], [])
  | .clquery vd vi ctl _ _ => ([VReg.at_ vi (if ctl / 512 % 2 = 1 then 16 else 8) act], [VReg.at_ vd w act])

/-- The field values of the registers that a touch names: a pair at 32 bits (R134). -/
def Touch.regs (t : Touch) : List Nat := if 16 < t.w && t.reg < 24 then [t.reg, t.reg + 1] else [t.reg]

/-- The registers that an entry reads or writes, its mask among them. -/
def VEnv.regs (v : VEnv) (op : VOp) : List Nat :=
  let x := v.touches op
  (x.1 ++ x.2).flatMap Touch.regs ++ (match op.maskReg with
    | some m => [24 + m.toNat]
    | none => [])

/-- Segments in service in the way pairs in array mode (R367). -/
def Core.serviceCount (k : Core) : Nat := (k.service 0 (modePairs k.vmode)).length

/-- TRAPVAL of LANE_MAP_CHANGED (R369). -/
def laneValue (seg service : Nat) : Word := BitVec.ofNat 64 (seg % 512 + 65536 * service)

/-- LANE_MAP_CHANGED becomes pending in the owner of a partition, or in slot 0 (R369). -/
def State.pendLane (s : State) (k : Nat) (p : Part) (seg : Nat) : State :=
  let n := ((s.core k).service p.base p.pairs).length
  s.updCtx (16 * k + p.owner.getD 0) fun x => { x with ipend := x.ipend ||| 0b010#3, laneVal := laneValue seg n }

/-- Every slot of every register in a segment's 128 lanes is marked poisoned (R369). -/
def Core.poisonSegment (k : Core) (seg : Nat) : Core :=
  (List.range 30).foldl (fun k r => (List.range 128).foldl (fun k l =>
    let x := k.rows r (128 * seg + l)
    k.setRows r (128 * seg + l) { x with psn := 0xFFFF#16 }) k) k

/-- One parity mismatch (R366, R368, R369): it poisons the register's slots in the lane, is logged and counted, and at the third the segment retires unless it is the last of its way pair. -/
def State.mismatchLane (s : State) (k base reg lane : Nat) : State :=
  let c := s.core k
  let seg := lane / 128
  let n := Nat.min (c.segErr.get seg 0 + 1) 3
  let x := c.rows reg lane
  let c := (c.setRows reg lane { x with psn := 0xFFFF#16 }).updPart base fun p => p.notePoison (some (parityOrigin reg lane))
  let c := { c with
    parity := c.parity.filter fun y => !(y.1 == reg && y.2 == lane)
    segErr := c.segErr.set seg n
    logv := true, logreg := BitVec.ofNat 5 reg, loglane := BitVec.ofNat 16 lane }
  if n = 3 && !c.retired.contains seg && 1 < (c.service (seg / 64) 1).length then
    let c := { c.poisonSegment seg with retired := c.retired ++ [seg] }
    let s := s.setCore k c
    match c.parts.find? fun p => p.base == base with
    | some p => s.pendLane k p seg
    | none => s
  else s.setCore k c

/-- The lanes of a partition that a touch activates: those that its elements' strip reaches, in segments in which an element lies (R134, R166). -/
def Touch.lanes (t : Touch) (p : Part) : List Nat :=
  let ls := (t.els.map fun e => e / slotsOf t.w).dedup
  let segs := (ls.map fun l => l / 128).dedup
  (((List.range (ls.foldl Nat.max 0 + 1)).filter fun l => !ls.isEmpty && segs.contains (l / 128))).map p.phys

/-- Whether a write covers every slot of a lane, so that the lane's old parity is not checked (R366). -/
def Touch.covers (t : Touch) (p : Part) (reg lane : Nat) : Bool :=
  t.regs.contains reg && (t.els.any fun e => p.phys (e / slotsOf t.w) == lane &&
    (List.range (slotsOf t.w)).all fun i => t.els.contains (e / slotsOf t.w * slotsOf t.w + i))

/-- Mismatches in some registers and lanes of a partition's core are met (R366). -/
def State.meetParity (s : State) (k base : Nat) (hit : Nat × Nat → Bool) : State :=
  ((s.core k).parity.filter hit).foldl (fun s y => s.mismatchLane k base y.1 y.2) s

/-- The parity of what is read and written of a partition's array is checked (R366): in every lane read, and in a lane written in part; where a lane is written whole, its old mismatch is gone. -/
def State.checkTouches (s : State) (k : Nat) (p : Part) (reads writes : List Touch) : State :=
  if (s.core k).parity.isEmpty then s
  else
    let hits := fun (ts : List Touch) (y : Nat × Nat) => ts.any fun t => t.regs.contains y.1 && (t.lanes p).contains y.2
    let whole := fun (y : Nat × Nat) => !hits reads y && writes.any fun t => t.covers p y.1 y.2
    let s := s.updCore k fun c => { c with parity := c.parity.filter fun y => !whole y }
    s.meetParity k p.base fun y => hits reads y || hits writes y

/-- The parity checks of an entry (R366), those of its mask among them. -/
def State.checkParity (s : State) (k : Nat) (p : Part) (e : VEntry) : State :=
  if (s.core k).parity.isEmpty then s
  else
    let v : VEnv := { core := s.core k, part := p, ent := e }
    let x := v.touches e.op
    let mask := match e.op.maskReg with
      | some m => [MReg.at_ m v.sew ((List.range e.vl).filter fun i => (v.active e.op.maskReg i).isSome)]
      | none => []
    s.checkTouches k p (x.1 ++ mask) x.2

/-- Every register of a partition's lanes in service is read, as repacking and saving do (R366, R369, R379). -/
def State.checkWhole (s : State) (k : Nat) (p : Part) (regs : List Nat) : State :=
  s.meetParity k p.base fun y => regs.contains y.1 && p.svc.contains (y.2 / 128)

/-- Whether every entry that a FENCE.Q makes an entry wait for has performed (R94). -/
def State.joined (s : State) (tile : Nat) (after : List (Nat × Nat)) : Bool :=
  after.isEmpty ||
    (let e := (s.tile tile).eng
     let live := (e.mq.map fun j => j.stamp) ++ (e.pq.map fun j => j.stamp) ++ (e.cq.map fun j => j.stamp)
       ++ (tileCores tile).flatMap fun k => (s.core k).parts.flatMap fun p => p.pending.map fun q => q.stamp
     after.all fun a => !live.contains a.1)

/-- What a FENCE.Q join makes sure of before the next entry performs (R94, R265 row 6): at TILE scope, that the vector stores that it names and that the core of the fencing context holds are at TILE; at SYSTEM, that the stores of that context are in HBM4 too. That done, the context's next entries need not see to it again. -/
def State.joinAt (s : State) (tile ctx : Nat) (after : List (Nat × Nat)) : State :=
  if after.isEmpty then s
  else
    let ws := (s.core (coreOf ctx)).buf.filter fun w => w.by_ == ctx && after.any fun a => a.1 == w.stamp && 2 ≤ a.2
    let s := if ws.isEmpty then s else s.drainOwn (coreOf ctx) (ws.flatMap fun w => w.bytes.map fun b => b.1)
    let s := if after.any fun a => a.2 == 3 then s.updTile tile fun t => t.writeBackOf ctx else s
    let rest := fun (l : List (Nat × Nat)) => l.filter fun a => !after.contains a
    { s with ctxs := AMap.mapVal (fun c x => if c = ctx then
        { x with depVec := rest x.depVec, depMat := rest x.depMat, depPort := rest x.depPort, depCell := rest x.depCell } else x) s.ctxs }

/-- Whether every matrix job that a core enqueued before a stamp has completed (R300). -/
def State.matrixDoneBefore (s : State) (k stamp : Nat) : Bool :=
  !((s.tile (tileOfCore k)).eng.mq.any fun j => j.core == k && j.stamp < stamp)

/-- Whether every Cellar job that a core enqueued before a stamp has completed or stalled (R335). -/
def State.cellarDoneBefore (s : State) (k stamp : Nat) : Bool :=
  !((s.tile (tileOfCore k)).eng.cq.any fun j => j.core == k && j.stamp < stamp && !(match j.kind with
    | .kernel x => x.stalled
    | _ => false))

/-- Whether an entry at the head of its queue may perform now: what it waits for has happened (R213, R300, R335, R94). An entry that uses a register which a load in flight has yet to write, or a stream register which a store in flight has not given up, waits for it, and a repack for everything. -/
def State.entryReady (s : State) (k : Nat) (p : Part) (e : VEntry) : Bool :=
  s.joined (tileOfCore k) e.after &&
  (e.uses.all fun w => (p.stream w).full || (p.stream w).closed) &&
  (p.fly.isEmpty ||
    (let env := fun (q : VEntry) => ({ core := s.core k, part := p, ent := q } : VEnv)
     let mine := (env e).regs e.op
     p.fly.all fun q => !(q.uses.any fun w => e.uses.contains w) && !(((env q).touches q.op).2.any fun t => t.regs.any mine.contains))) &&
  (match e.op with
    | .mtmv _ _ _ _ => s.matrixDoneBefore k e.stamp
    | .mvtm _ _ _ _ => s.matrixDoneBefore k e.stamp
    | .clquery _ _ _ _ _ => s.cellarDoneBefore k e.stamp
    | .repack _ => p.fly.isEmpty
    | _ => true)

/-- The bytes and poison of one element of memory at a width; under a width below 8, its bits of the byte (R194). -/
def readElem (m : Memory) (sew : Nat) (a : EAddr) : Nat × Bool :=
  if 8 ≤ sew then (leNat (m.bytes a.pa (sew / 8)), m.anyMarked a.pa (sew / 8))
  else (((m.byte a.pa).toNat / 2 ^ (a.e * sew % 8)) % 2 ^ sew, m.marked a.pa)

/-- A line is added to a link set, intact, unless the set is full (R275). -/
def addLink (links : List (Nat × Bool)) (l : Nat) : List (Nat × Bool) :=
  if links.any fun x => x.1 == l then links.map fun x => if x.1 = l then (l, true) else x
  else if links.length < 2048 then links ++ [(l, true)] else links

/-- Bytes that an element of a width covers. -/
def elemSpan (sew : Nat) (a : EAddr) : List Nat := spanOf a.pa (max 1 (sew / 8))

/-- A load element binds (R197, R276): it takes its bytes, poisoned when any byte is (R360, R362), and under VLDL its line is linked. -/
def State.loadElem (s : State) (k : Nat) (p : Part) (e : VEntry) (vd : VReg) (a : EAddr) (link : Bool) : State :=
  let sew := sewBits (vtSew e.vtype)
  let s := s.touchVector k (elemSpan sew a)
  let x := readElem (s.coreMem k) sew a
  s.updCore k fun c =>
    let c := c.applyRes p sew { ws := [VWrite.elem vd.toNat sew a.e x.1 (if x.2 then some (a.va &&& ~~~7#64) else none)] }
    if link then c.updPart p.base fun q => { q with links := addLink q.links (a.pa / 64) } else c

/-- What a store read of its register for an element when it left the queue. -/
def VEntry.datum (e : VEntry) (i : Nat) : Nat × Bool := e.data.get i (0, false)

/-- The bytes that one element of at least 8 bits stores. -/
def VEntry.bytesOf (e : VEntry) (a : EAddr) : List WByte :=
  wbytes a.pa (leBytes (sewBits (vtSew e.vtype) / 8) (e.datum a.e).1) (e.datum a.e).2

/-- What the same instruction has written before in the poison words of some bytes: it counts together with them (R360). -/
def wroteNear (wrote ws : List WByte) : List WByte := wrote.filter fun x => ws.any fun y => x.1 / 8 == y.1 / 8

/-- The scatter elements of a lane that have not performed at TILE (R289). -/
def Core.unacked (c : Core) (lane : Nat) : Nat := (c.buf.filter fun w => w.lanes.contains lane).length

/-- A store element performs (R197): at CORE, where it counts in the lane that sent it until it performs at TILE (R289), or at the tile home when the core has no way cache (R249). -/
def State.storeElem (s : State) (k : Nat) (p : Part) (e : VEntry) (a : EAddr) : State :=
  let ws := e.bytesOf a
  let near := wroteNear e.wrote ws
  let lane := p.phys (a.e / slotsOf (sewBits (vtSew e.vtype)))
  if (s.ways k).isEmpty then
    (s.drainOwn k (ws.map fun b => b.1)).writeTile (tileOfCore k) (.vector k []) [e.by_] near ws
  else
    let s := if 4095 ≤ (s.core k).unacked lane then s.drainCore k else s
    s.coreStore k { bytes := ws, lanes := [lane], stamp := e.stamp, by_ := e.by_, with_ := near }

/-- The byte that an element of less than 8 bits leaves (R194): its bits replaced, poisoned when the element is, or when the byte was. Once an instruction has stored every bit of the byte, that byte counts as written, and is poisoned when one of its elements is (R360). -/
def VEntry.bitsOf (e : VEntry) (a : EAddr) (old : Byte) (marked : Bool) : WByte :=
  let sew := sewBits (vtSew e.vtype)
  let n := 8 / sew
  let mates := (List.range n).map fun i => a.e / n * n + i
  let last := (mates.all fun i => (e.data.find i).isSome) && !(e.op.accesses.any fun b => b.e != a.e && mates.contains b.e)
  let lo := a.e * sew % 8
  let v := old.toNat - old.toNat / 2 ^ lo % 2 ^ sew * 2 ^ lo + (e.datum a.e).1 * 2 ^ lo
  (a.pa, BitVec.ofNat 8 v, if last then mates.any fun i => (e.datum i).2 else (e.datum a.e).2 || marked)

/-- A store element of less than 8 bits updates its byte in one step, at CORE and TILE together (R194, R262). -/
def State.storeBits (s : State) (k : Nat) (e : VEntry) (a : EAddr) : State × List WByte :=
  let t := tileOfCore k
  let s := (s.drainBytes t [a.pa]).touchVector k [a.pa]
  let m := (s.tile t).mem
  let w := e.bitsOf a (m.byte a.pa) (m.marked a.pa)
  (s.writeTile t (.vector k (s.ways k)) [e.by_] (wroteNear e.wrote [w]) [w], [w])

/-- The step of VSTC on one line (R277): its elements are written where the link is intact, after the core's own held writes to their bytes, and their mask bits cleared; no other agent's write falls between check and write. -/
def State.vstcLine (s : State) (k : Nat) (p : Part) (e : VEntry) (mr : MReg) (els : List EAddr) : State × List WByte :=
  let l := (els.map fun a => a.pa / 64).headD 0
  let ok := ((s.core k).parts.find? fun q => q.base == p.base).any fun q => q.links.any fun x => x.1 == l && x.2
  if !ok then (s, [])
  else
    let ws := els.flatMap e.bytesOf
    let s := (s.drainOwn k (ws.map fun b => b.1)).writeTile (tileOfCore k) (.vector k (s.ways k)) [e.by_] (wroteNear e.wrote ws) ws (.part k p.base)
    (s.updCore k fun c => els.foldl (fun c a => c.setMaskBit p mr.toNat (sewBits (vtSew e.vtype)) a.e false false) c, ws)

/-- The update of VAMO (R280) on old and operand patterns: result and flags. -/
def VAmoOp.apply (op : VAmoOp) (v : VEnv) (e old x : Nat) : Nat × Flags6 :=
  let signed := v.fmtTag == 1
  match op with
  | .add => ((old + x) % 2 ^ v.sew, 0#6)
  | .min => VInt.apply (if signed then .min else .minu) v.sew old x 0
  | .max => VInt.apply (if signed then .max else .maxu) v.sew old x 0
  | .fadd => VFp.apply .add v.fmt v.mode (v.rnd e) old x 0

/-- A VAMO element: one atomic event at the tile home (R89, R264, R280). -/
def State.amoElem (s : State) (k : Nat) (p : Part) (e : VEntry) (op : VAmoOp) (a : EAddr) : State × List WByte :=
  let sew := sewBits (vtSew e.vtype)
  let t := tileOfCore k
  let s := (s.drainBytes t (elemSpan sew a)).touchHome t (elemSpan sew a)
  let env : VEnv := { core := s.core k, part := p, ent := e }
  let old := readElem (s.tile t).mem sew a
  let x := e.datum a.e
  let u := op.apply env a.e old.1 x.1
  let ws := wbytes a.pa (leBytes (sew / 8) u.1) (old.2 || x.2)
  ((s.writeTile t .home [e.by_] (wroteNear e.wrote ws) ws).updCore k fun c =>
    c.updPart p.base fun q => { q with vflags := q.vflags ||| u.2 }, ws)

/-- The key of an accumulator row (R294). -/
def accKey (core t row : Nat) : Nat := ((core % 8) * 4 + t) * 128 + row

/-- An accumulator element: its bits and poison. -/
def Engines.accAt (g : Engines) (core t i j : Nat) : BitVec 32 × Bool := (g.acc.get (accKey core t i) []).getD j (0#32, false)

/-- Write an accumulator element. -/
def Engines.accSet (g : Engines) (core t i j : Nat) (x : BitVec 32 × Bool) : Engines :=
  let row := g.acc.get (accKey core t i) []
  let row := (List.range 128).map fun n => if n = j then x else row.getD n (0#32, false)
  { g with acc := g.acc.set (accKey core t i) row }

/-- The tile element of vector element e under a slice word (R310). -/
def sliceAt (sl e : Nat) : Nat × Nat :=
  let w := sl / 65536 % 256
  (sl % 256 + e / w, sl / 256 % 256 + e % w)

/-- The origin of poison from operand or accumulator memory (R361). -/
def matrixOrigin : Word := 0x8002000000000000#64

/-- The queued part of MTMV (R310). -/
def State.runMtmv (s : State) (k : Nat) (p : Part) (e : VEntry) (vd : VReg) (t : BitVec 2) (sl : Nat) (mk : VMask) : State :=
  let v : VEnv := { core := s.core k, part := p, ent := e }
  let g := (s.tile (tileOfCore k)).eng
  let r := v.each mk fun i mp =>
    let x := g.accAt k t.toNat (sliceAt sl i).1 (sliceAt sl i).2
    let y := if v.sew = 32 then (x.1.toNat, 0#6) else v.fmt.round v.mode (fmtF32.decode x.1.toNat) false (v.rnd i)
    { ws := [.elem vd.toNat v.sew i y.1 (orO (if x.2 then some matrixOrigin else none) mp)], flags := y.2 }
  s.updCore k fun c => c.applyRes p v.sew r

/-- The queued part of MVTM (R310). A 16-bit element is widened exactly; a NaN becomes the canonical NaN. -/
def State.runMvtm (s : State) (k : Nat) (p : Part) (e : VEntry) (t : BitVec 2) (vs : VReg) (sl : Nat) (mk : VMask) : State :=
  let v : VEnv := { core := s.core k, part := p, ent := e }
  let act := (List.range e.vl).filterMap fun i => (v.active mk i).map fun mp => (i, mp)
  s.updTile (tileOfCore k) fun x =>
    { x with eng := act.foldl (fun g a =>
        let y := v.src vs v.sew a.1
        let bits := if v.sew = 32 then y.1 else (fmtF32.round .rne (v.fmt.decode y.1) false 0).1
        g.accSet k t.toNat (sliceAt sl a.1).1 (sliceAt sl a.1).2 (BitVec.ofNat 32 bits, y.2.isSome || a.2.isSome)) x.eng }

/-- Entry i of a Cellar table, of 2^ew bytes, and its poison (R335, R340). -/
def tableEntry (m : Memory) (table ew i : Nat) : Nat × Bool :=
  let a := Config.cellarBase + 2048 * table + i * 2 ^ ew
  (leNat (m.bytes a (2 ^ ew)), m.anyMarked a (2 ^ ew))

/-- Interpolated value of a query (R340): bits, flags, whether an entry was poisoned, and whether the index was out of range. -/
def interpolate (v : VEnv) (ent : Nat → Nat × Bool) (n fb i e : Nat) : Nat × Flags6 × Bool × Bool :=
  let lo := i / 2 ^ fb
  let f := i % 2 ^ fb
  let own := fun (j : Nat) => (v.fmt.round v.mode (v.fmt.decode (ent j).1) false (v.rnd e))
  if lo < n - 1 then
    if f = 0 then ((own lo).1, (own lo).2, (ent lo).2, false)
    else
      let wt := fun (j w : Nat) => match v.fmt.decode (ent j).1 with
        | .fin s m x => FV.fin s (m * w) (x - (fb : Int))
        | y => y
      let r := (FV.add v.mode (wt lo (2 ^ fb - f)) (wt (lo + 1) f)).round v.fmt v.mode (v.rnd e)
      (r.1, r.2, (ent lo).2 || (ent (lo + 1)).2, false)
  else ((own (n - 1)).1, (own (n - 1)).2, (ent (n - 1)).2, !(lo == n - 1 && f == 0))

/-- The origin of poison from a Cellar table (R361). -/
def cellarOrigin (table : Nat) : Word := BitVec.ofNat 64 (0x8003000000000000 + table)

/-- The queued part of CLQUERY under its control word, with the table's state as its scalar phase found it (R335, R340). -/
def State.runQuery (s : State) (k : Nat) (p : Part) (e : VEntry) (vd vi : VReg) (ctl ew len : Nat) : State :=
  let t := tileOfCore k
  let table := ctl % 64
  let base := Config.cellarBase + 2048 * table
  let s := s.touchHome t ((List.range 32).map fun i => base + 64 * i)
  let m := (s.tile t).mem
  let n := len / 2 ^ ew
  let v : VEnv := { core := s.core k, part := p, ent := e }
  let iw := if ctl / 512 % 2 = 1 then 16 else 8
  let mk : VMask := if ctl / 65536 % 2 = 1 then some (BitVec.ofNat 2 (ctl / 131072)) else none
  let ent := tableEntry m table ew
  let act := (List.range e.vl).filterMap fun i => (v.active mk i).map fun mp => (i, mp)
  let rs := act.map fun a =>
    let i := v.src vi iw a.1
    let r : Nat × Flags6 × Bool × Bool :=
      if ctl / 256 % 2 = 1 then interpolate v ent n (ctl / 4096 % 16) i.1 a.1
      else if i.1 < n then
        let x := ent i.1
        ((if v.fmtTag = 1 then wrapN v.sew (sval (8 * 2 ^ ew) x.1) else x.1), 0#6, x.2, false)
      else (0, 0#6, false, true)
    let o := orO i.2 (orO (if r.2.2.1 then some (cellarOrigin table) else none) a.2)
    (({ ws := [.elem vd.toNat v.sew a.1 r.1 o], flags := r.2.1 } : VRes), r.2.2.2)
  let out := rs.any fun x => x.2
  s.updCore k fun c => (c.applyRes p v.sew (VRes.join (rs.map fun x => x.1))).updPart p.base fun q =>
    { q with clRange := q.clRange || out }

/-- The repack after a retirement (R369): every register moves, lane by lane in order, to the lanes still in service; what lay in a retired segment reads as poisoned. -/
def Core.repack (c : Core) (p : Part) (svc : List Nat) : Core :=
  let q := { p with svc := svc }
  let lanes := List.range (128 * svc.length)
  let moved := (List.range 30).map fun r => (r, lanes.map fun l =>
    let x := c.rows r (p.phys l)
    (q.phys l, if c.retired.contains (p.phys l / 128) then { x with psn := 0xFFFF#16 } else x))
  let c := moved.foldl (fun c m => m.2.foldl (fun c y => c.setRows m.1 y.1 y.2) c) c
  c.updPart p.base fun x => { x with svc := svc }

/-- Perform the effect on arrays and engines of an entry that touches no memory. -/
def State.perform (s : State) (k : Nat) (p : Part) (e : VEntry) : State :=
  match e.op with
  | .repack svc => (s.checkWhole k p (List.range 30)).updCore k fun c => c.repack p svc
  | .mtmv vd t sl km => s.runMtmv k p e vd t sl km
  | .mvtm t vs sl km => s.runMvtm k p e t vs sl km
  | .clquery vd vi ctl ew len => s.runQuery k p e vd vi ctl ew len
  | op => s.updCore k fun c =>
      c.applyRes p (sewBits (vtSew e.vtype)) (VEnv.compute { core := c, part := p, ent := e } op)

/-- A consumer that finds its stream register closed and empty has it filled with zeros (R213). -/
def State.fillClosed (s : State) (k : Nat) (p : Part) (w : Bool) : State :=
  if (p.stream w).full then s
  else s.updCore k fun c => (c.writeRows p (streamReg w).toNat []).updPart p.base fun q => q.updStream w fun t => { t with full := true }

/-- A partition of a core, by its base. -/
def State.partAt (s : State) (k base : Nat) : Option Part := (s.core k).parts.find? fun p => p.base == base

/-- An entry's stream registers are given up when it completes, unless it was cut short and will run again (R213, R196). -/
def Part.giveUp (p : Part) (e : VEntry) : Part :=
  (if e.keep then [] else e.uses).foldl (fun q w => q.updStream w fun t => { t with full := false }) p

/-- What an entry does before its effect: its FENCE.Q joins (R94), zeros for a closed stream register (R213), its parity checks (R366). -/
def State.prepare (s : State) (k : Nat) (p : Part) (e : VEntry) : State :=
  (e.uses.foldl (fun s w => s.fillClosed k p w) (s.joinAt (tileOfCore k) e.by_ e.after)).checkParity k p e

/-- Perform the entry at the head of a partition's queue, which touches no memory, whole (R127, R128). -/
def State.performHead (s : State) (k : Nat) (p : Part) (e : VEntry) : State :=
  let s := s.prepare k p e
  let s := match s.partAt k p.base with
    | some q => s.perform k q e
    | none => s
  s.updCore k fun c => c.updPart p.base fun q => ({ q with queue := q.queue.drop 1 } : Part).giveUp e

/-- The element accesses that an operation has yet to perform are replaced. -/
def VOp.withEls (op : VOp) (els : List EAddr) : VOp :=
  match op with
  | .load vd _ => .load vd els
  | .store vs _ => .store vs els
  | .loadLinked vd _ => .loadLinked vd els
  | .storeCond vs mr _ last => .storeCond vs mr els last
  | .amo o vs _ => .amo o vs els
  | op => op

/-- What a store, VSTC or VAMO reads of its register for its elements, all when it leaves the queue. -/
def VEntry.captured (e : VEntry) (c : Core) (p : Part) : AMap (Nat × Bool) :=
  let sew := sewBits (vtSew e.vtype)
  let of := fun (vs : VReg) (els : List EAddr) => els.foldl (fun m a => AMap.set m a.e (c.elem p vs.toNat sew a.e)) []
  match e.op with
  | .store vs els => of vs els
  | .storeCond vs _ els _ => of vs els
  | .amo _ vs els => of vs els
  | _ => []

/-- An entry whose elements have all performed completes (R197, R277): its stream registers are given up, and after the last piece of a VSTC the link set is empty. -/
def State.endFlight (s : State) (k base : Nat) (e : VEntry) : State :=
  s.updCore k fun c => c.updPart base fun q =>
    let q : Part := { q with fly := q.fly.filter fun x => x.stamp != e.stamp }
    (match e.op with
      | .storeCond _ _ _ true => { q with links := [] }
      | _ => q).giveUp e

/-- The memory entry at the head of a partition's queue leaves it (R197): its registers are read, and its elements are to perform. -/
def State.launch (s : State) (k : Nat) (p : Part) (e : VEntry) : State :=
  let s := s.prepare k p e
  match s.partAt k p.base with
  | none => s
  | some q =>
    let e := { e with data := e.captured (s.core k) q, after := [] }
    let s := s.updCore k fun c => c.updPart p.base fun q => { q with queue := q.queue.drop 1, fly := q.fly ++ [e] }
    if e.op.accesses.isEmpty then s.endFlight k p.base e else s

/-- What one element event of an entry in flight does, the accesses that it takes, and the bytes that it writes (R197, R277, R280). Elements of a VSTC in one line perform together. -/
def State.eventOf (s : State) (k : Nat) (p : Part) (e : VEntry) (a : EAddr) : State × List EAddr × List WByte :=
  match e.op with
  | .load vd _ => (s.loadElem k p e vd a false, [a], [])
  | .loadLinked vd _ => (s.loadElem k p e vd a true, [a], [])
  | .store _ _ =>
    if sewBits (vtSew e.vtype) < 8 then
      let r := s.storeBits k e a
      (r.1, [a], r.2)
    else (s.storeElem k p e a, [a], e.bytesOf a)
  | .storeCond _ mr els _ =>
    let line := els.filter fun b => b.pa / 64 == a.pa / 64
    let r := s.vstcLine k p e mr line
    (r.1, line, r.2)
  | .amo o _ _ =>
    let r := s.amoElem k p e o a
    (r.1, [a], r.2)
  | _ => (s, [a], [])

/-- One element of an entry in flight performs; with its last element the entry completes. -/
def State.element (s : State) (k : Nat) (p : Part) (e : VEntry) (a : EAddr) : State :=
  let r := s.eventOf k p e a
  let e := { e with op := e.op.withEls (e.op.accesses.filter fun b => !r.2.1.any fun x => x.e == b.e), wrote := e.wrote ++ r.2.2 }
  let s := r.1.updCore k fun c => c.updPart p.base fun q => { q with fly := q.fly.map fun x => if x.stamp = e.stamp then e else x }
  if e.op.accesses.isEmpty then s.endFlight k p.base e else s

/-- Whether two element accesses at a width share a byte. -/
def sharesByte (sew : Nat) (a : EAddr) (sew' : Nat) (b : EAddr) : Bool := (elemSpan sew a).any fun x => (elemSpan sew' b).contains x

/-- Whether an operation is a store, whose elements every later strip interval follows (R266). -/
def VOp.isStore : VOp → Bool
  | .store _ _ => true
  | .storeCond _ _ _ _ => true
  | .amo _ _ _ => true
  | _ => false

/-- Whether element j of the entry that is i-th in flight may perform next: accesses to a byte keep queue order (R265 row 8), and within a store rising element order (row 11); stores of an earlier strip interval come first (row 9); VAMOs keep queue order whatever they touch, and element order (R280), as linked loads do (R275). -/
def Part.mayPerform (p : Part) (i : Nat) (e : VEntry) (j : Nat) (a : EAddr) : Bool :=
  let w := sewBits (vtSew e.vtype)
  let amo := fun (q : VEntry) => match q.op with
    | .amo _ _ _ => true
    | _ => false
  let inOrder := amo e || (match e.op with
    | .loadLinked _ _ => true
    | _ => false)
  ((p.fly.take i).all fun q =>
    !(amo q && amo e) && !(q.iv < e.iv && q.op.isStore) && !(q.op.accesses.any fun b => sharesByte (sewBits (vtSew q.vtype)) b w a))
    && (!inOrder || j == 0) && !(e.op.isStore && (e.op.accesses.take j).any fun b => sharesByte w b w a)

/-- Element j of the entry that is i-th in flight performs, when it may (R197, R265). -/
def State.elementStep (s : State) (k base i j : Nat) : State :=
  match s.partAt k base with
  | none => s
  | some p => match p.fly[i]? with
    | none => s
    | some e => match e.op.accesses[j]? with
      | none => s
      | some a => if s.clocked k && p.mayPerform i e j a then s.element k p e a else s

/-- The memory entry at the head of a partition's queue leaves it, when it may perform; elements of entries before it may still be to come (R265 row 10). -/
def State.launchStep (s : State) (k base : Nat) : State :=
  match s.partAt k base with
  | none => s
  | some p => match p.queue with
    | e :: _ => if s.clocked k && e.op.isMem && s.entryReady k p e then s.launch k p e else s
    | [] => s

/-- The first entry in flight performs its elements in order, n events at most. -/
def State.finishFlight : Nat → Nat → Nat → State → State
  | 0, _, _, s => s
  | n + 1, k, base, s => match s.partAt k base with
    | some p => match p.fly with
      | e :: _ => match e.op.accesses with
        | a :: _ => State.finishFlight n k base (s.element k p e a)
        | [] => s
      | [] => s
    | none => s

/-- The element events that the first entry in flight has yet to see. -/
def Part.flightLeft (p : Part) : Nat := (p.fly.head?.map fun e => e.op.accesses.length).getD 0

/-- A whole data phase (R197): the first entry in flight finishes, or with none in flight the head of the queue leaves it and performs all its elements. -/
def State.dataPhase (s : State) (k base : Nat) : State :=
  match s.partAt k base with
  | none => s
  | some p =>
    if !s.clocked k then s
    else
      let s := if p.fly.isEmpty then s.launchStep k base else s
      match s.partAt k base with
      | some p => State.finishFlight p.flightLeft k base s
      | none => s

/-- The micro-sequencer of a partition performs the head of its queue, when it touches no memory and may perform. -/
def State.sequence (s : State) (k base : Nat) : State :=
  match s.partAt k base with
  | none => s
  | some p =>
    match p.queue with
    | [] => s
    | e :: _ => if s.clocked k && !e.op.isMem && s.entryReady k p e then s.performHead k p e else s

/-- VECTOR_QUEUE_ENTRY: the queued part of an instruction that touches no memory is performed (R168). -/
def execVectorQueueEntry (k base : Nat) (s : State) : Out := .next (s.sequence k base)

/-- VECTOR_DATA_PHASE: a queued vector memory instruction performs its elements (R197); the schedule can let other agents' events fall between them (log entry 12). -/
def execVectorDataPhase (k base : Nat) (s : State) : Out := .next (s.dataPhase k base)

end Sys2Proof.Machine
end

