-- ==== Sys2Proof/Machine/Vector.lean ====
section
/-! DEFINITION. Sys2Proof/Machine/Vector.lean: the scalar phase of the vector instructions (R127, R141, R168 to R192, R213): configuration checks, stream checks, enqueue, and the instructions that drain. -/

namespace Sys2Proof.Machine

/-- VCONFIG with a reason (R170). -/
def vconfig (reason : Nat) (s : State) : Out := raise .vconfig (BitVec.ofNat 64 (s.iw.toNat * 2 ^ 32 + reason)) s

/-- SEW that a format tag requires (R140); none for the integers. -/
def fmtSew : Nat → Option Nat
  | 2 => some 4
  | 3 => some 4
  | 4 => some 5
  | 5 => some 3
  | 6 => some 3
  | 7 => some 2
  | 8 => some 3
  | _ => none

/-- R141 items 1 to 3 with their reasons (R170). -/
def vtypeReasons (v : BitVec 18) : List (Nat × Bool) :=
  [(2, 5 < vtSew v || 4 < vtRm v || vtBlk v == 3 || 8 < vtFmt v),
   (3, match fmtSew (vtFmt v) with
     | some w => w != vtSew v
     | none => false),
   (4, vtBlk v != 0 && (!(vtFmt v == 5 || vtFmt v == 6 || vtFmt v == 7 || (vtFmt v == 1 && (vtSew v == 2 || vtSew v == 3)))
     || 23 < vtSreg v))]

/-- R141 item 4: an integer instruction needs UINT or SINT. -/
def intClass (v : BitVec 18) : Nat × Bool := (5, !isIntFmt (vtFmt v))

/-- R141 item 5: a floating instruction needs BF16, FP16 or FP32. -/
def fpClass (v : BitVec 18) : Nat × Bool := (5, !isArithFlt (vtFmt v))

/-- A field that cannot name a register pair: an odd register, m0-m3 or vs1 (R141 item 6). -/
def badPair (r : VReg) : Bool := r.toNat % 2 == 1 || (24 ≤ r.toNat && r.toNat ≤ 27)

/-- R141 item 6 for the data fields of an instruction. -/
def pairClass (v : BitVec 18) (rs : List VReg) : Nat × Bool := (6, vtSew v == 5 && rs.any badPair)

/-- The lowest reason whose condition holds (R170). -/
def lowestReason : List (Nat × Bool) → Option Nat
  | [] => none
  | (r, b) :: cs => match lowestReason cs with
    | some q => if b then some (Nat.min r q) else some q
    | none => if b then some r else none

/-- The configuration checks of an instruction on the caller's partition (R141, R170). -/
def vguard (more : Part → List (Nat × Bool)) (s : State) (k : Part → Out) : Out :=
  match s.myPart with
  | none => vconfig 1 s
  | some p => match lowestReason (vtypeReasons p.vtype ++ more p) with
    | some r => vconfig r s
    | none => k p

/-- The stream registers that source fields name (R213). -/
def streamsOf (rs : List VReg) : List Bool :=
  (if rs.contains 28#5 then [false] else []) ++ (if rs.contains 29#5 then [true] else [])

/-- The reason of a STREAM trap for a source that can get no vector (R213). -/
def Part.streamReason (p : Part) (w : Bool) : Option Nat :=
  let t := p.stream w
  let q := p.pending.any fun e => e.uses.contains w && !e.keep
  if t.full && !q then none
  else if !t.bound then some (if w then 2 else 1)
  else if t.closed then some (if w then 4 else 3)
  else none

/-- The STREAM check of the sources of an instruction, vs0 first (R213). An instruction that has waited since its check is not checked again: only one issued after the close traps. -/
def streamGuard (rs : List VReg) (p : Part) (s : State) (k : Unit → Out) : Out :=
  if s.me.wait = .resume then k ()
  else match (streamsOf rs).filterMap p.streamReason with
    | r :: _ => raise .stream (BitVec.ofNat 64 (s.iw.toNat * 2 ^ 32 + r)) s
    | [] => k ()

/-- Place an entry in the caller's vector queue with what the scalar phase read (R127, R168). -/
def State.enqueueV (s : State) (p : Part) (op : VOp) (uses : List Bool) (keep : Bool) : State :=
  let e : VEntry :=
    { op := op, vl := p.vl, vtype := p.vtype, vsbase := p.vsbase, vseed := p.vseed, bank := p.bank,
      stamp := s.fresh, by_ := s.cur, after := s.me.depVec, uses := uses, keep := keep, iv := p.iv }
  s.tick.updMyCore fun k => k.updPart p.base fun q => { q with queue := q.queue ++ [e] }

/-- Whether the caller's vector queue has a free entry: an entry that is in flight still takes one (R127). -/
def State.vectorRoom (s : State) : Bool := decide ((s.queueOf s.cur).length < Config.vectorQueue)

/-- The end of a vector instruction whose last piece has been placed (R195 step 5, R196): a memory instruction leaves VFIDX 0; the trap of a failed element waits for the elements before it. -/
def vectorPlaced (cost : Nat) (mem : Bool) (s : State) : Option (BitVec 8 × Word × Nat) → Out
  | none => .next ((if mem then s.updMyPart fun q => { q with vfidx := 0 } else s).updMe fun c => c.advance (s.now + cost))
  | some (code, va, f) => .next (s.updMe fun c => { c with wait := .vfault code va f, uword := s.iw })

/-- Place the pieces of a vector instruction one by one; where the queue is full the rest waits, and is placed in the i-cycle in which an entry frees (R127, R257). Only the last piece of an instruction that does not trap gives its stream registers up. -/
def placePieces (cost : Nat) (mem : Bool) (uses : List Bool) (trap : Option (BitVec 8 × Word × Nat)) : List VOp → State → Out
  | [], s => vectorPlaced cost mem s trap
  | op :: ops, s =>
    if s.vectorRoom then
      match s.myPart with
      | some p => placePieces cost mem uses trap ops (s.enqueueV p op uses (!ops.isEmpty || trap.isSome))
      | none => vectorPlaced cost mem s trap
    else waitOn (.queueFree (.vec (op :: ops) uses trap)) s

/-- The scalar phase of a vector instruction is over: its pieces are placed. R67 is checked last, and no piece is placed before it. -/
def placeVector (ops : List VOp) (uses : List Bool) (trap : Option (BitVec 8 × Word × Nat)) (s : State) : Out :=
  if trap.isNone && s.atLastPc then raise .accessFault pastPc s
  else placePieces 16 ((ops.head?.map VOp.isMem).getD false) uses trap ops s

/-- Enqueue and go on; a full queue is waited for (R127). -/
def queueV (op : VOp) (srcs : List VReg) (s : State) : Out := placeVector [op] (streamsOf srcs) none s

/-- A V-form instruction: configuration checks, stream checks, enqueue. -/
def vform (more : Part → List (Nat × Bool)) (srcs : List VReg) (op : VOp) (s : State) : Out :=
  vguard more s fun p => streamGuard srcs p s fun _ => queueV op srcs s

/-- The second source that X and c name (R45, R168). -/
def State.vsrc (s : State) (x : BitVec 1) (c : XReg) : VSrc := if x == 1#1 then .sc (s.x c) else .vec c

/-- The vector fields among the second source. -/
def vfields (x : BitVec 1) (c : XReg) : List VReg := if x == 1#1 then [] else [c]

/-- An integer operation of major 0x29 (R179). -/
def vint (op : VInt) (vd vs1 : VReg) (c : XReg) (x : BitVec 1) (mk : VMask) (s : State) : Out :=
  vform (fun p => [intClass p.vtype, pairClass p.vtype ([vd, vs1] ++ vfields x c)]) ([vs1] ++ vfields x c)
    (.int op vd vs1 (s.vsrc x c) mk) s

/-- A unary integer operation (R178): c and X are 0 and name no source. -/
def vint1 (op : VInt) (vd vs1 : VReg) (mk : VMask) (s : State) : Out :=
  vform (fun p => [intClass p.vtype, pairClass p.vtype [vd, vs1]]) [vs1] (.int op vd vs1 (.vec vs1) mk) s

/-- An integer compare (R180). -/
def vicmp (op : Cond) (md : MReg) (vs1 : VReg) (c : XReg) (x : BitVec 1) (mk : VMask) (s : State) : Out :=
  vform (fun p => [intClass p.vtype, pairClass p.vtype ([vs1] ++ vfields x c)]) ([vs1] ++ vfields x c)
    (.icmp op md vs1 (s.vsrc x c) mk) s

/-- A floating operation of major 0x2A (R181). -/
def vfp (op : VFp) (vd vs1 : VReg) (c : XReg) (x : BitVec 1) (mk : VMask) (s : State) : Out :=
  vform (fun p => [fpClass p.vtype, pairClass p.vtype ([vd, vs1] ++ vfields x c)]) ([vs1] ++ vfields x c)
    (.fp op vd vs1 (s.vsrc x c) mk) s

/-- A unary floating operation (R181). -/
def vfp1 (op : VFp) (vd vs1 : VReg) (mk : VMask) (s : State) : Out :=
  vform (fun p => [fpClass p.vtype, pairClass p.vtype [vd, vs1]]) [vs1] (.fp op vd vs1 (.vec vs1) mk) s

/-- A floating compare (R182). -/
def vfcmp (op : FCond) (md : MReg) (vs1 : VReg) (c : XReg) (x : BitVec 1) (mk : VMask) (s : State) : Out :=
  vform (fun p => [fpClass p.vtype, pairClass p.vtype ([vs1] ++ vfields x c)]) ([vs1] ++ vfields x c)
    (.fcmp op md vs1 (s.vsrc x c) mk) s

def execVadd (vd vs1 : VReg) (c : XReg) (x : BitVec 1) (mk : VMask) (s : State) : Out := vint .add vd vs1 c x mk s
def execVsub (vd vs1 : VReg) (c : XReg) (x : BitVec 1) (mk : VMask) (s : State) : Out := vint .sub vd vs1 c x mk s
def execVrsub (vd vs1 : VReg) (c : XReg) (x : BitVec 1) (mk : VMask) (s : State) : Out := vint .rsub vd vs1 c x mk s
def execVand (vd vs1 : VReg) (c : XReg) (x : BitVec 1) (mk : VMask) (s : State) : Out := vint .and vd vs1 c x mk s
def execVor (vd vs1 : VReg) (c : XReg) (x : BitVec 1) (mk : VMask) (s : State) : Out := vint .or vd vs1 c x mk s
def execVxor (vd vs1 : VReg) (c : XReg) (x : BitVec 1) (mk : VMask) (s : State) : Out := vint .xor vd vs1 c x mk s
def execVsll (vd vs1 : VReg) (c : XReg) (x : BitVec 1) (mk : VMask) (s : State) : Out := vint .sll vd vs1 c x mk s
def execVsrl (vd vs1 : VReg) (c : XReg) (x : BitVec 1) (mk : VMask) (s : State) : Out := vint .srl vd vs1 c x mk s
def execVsra (vd vs1 : VReg) (c : XReg) (x : BitVec 1) (mk : VMask) (s : State) : Out := vint .sra vd vs1 c x mk s
def execVmin (vd vs1 : VReg) (c : XReg) (x : BitVec 1) (mk : VMask) (s : State) : Out := vint .min vd vs1 c x mk s
def execVmax (vd vs1 : VReg) (c : XReg) (x : BitVec 1) (mk : VMask) (s : State) : Out := vint .max vd vs1 c x mk s
def execVminu (vd vs1 : VReg) (c : XReg) (x : BitVec 1) (mk : VMask) (s : State) : Out := vint .minu vd vs1 c x mk s
def execVmaxu (vd vs1 : VReg) (c : XReg) (x : BitVec 1) (mk : VMask) (s : State) : Out := vint .maxu vd vs1 c x mk s
def execVmul (vd vs1 : VReg) (c : XReg) (x : BitVec 1) (mk : VMask) (s : State) : Out := vint .mul vd vs1 c x mk s
def execVmulh (vd vs1 : VReg) (c : XReg) (x : BitVec 1) (mk : VMask) (s : State) : Out := vint .mulh vd vs1 c x mk s
def execVmulhu (vd vs1 : VReg) (c : XReg) (x : BitVec 1) (mk : VMask) (s : State) : Out := vint .mulhu vd vs1 c x mk s
def execVsadd (vd vs1 : VReg) (c : XReg) (x : BitVec 1) (mk : VMask) (s : State) : Out := vint .sadd vd vs1 c x mk s
def execVsaddu (vd vs1 : VReg) (c : XReg) (x : BitVec 1) (mk : VMask) (s : State) : Out := vint .saddu vd vs1 c x mk s
def execVssub (vd vs1 : VReg) (c : XReg) (x : BitVec 1) (mk : VMask) (s : State) : Out := vint .ssub vd vs1 c x mk s
def execVssubu (vd vs1 : VReg) (c : XReg) (x : BitVec 1) (mk : VMask) (s : State) : Out := vint .ssubu vd vs1 c x mk s
def execVmacc (vd vs1 : VReg) (c : XReg) (x : BitVec 1) (mk : VMask) (s : State) : Out := vint .macc vd vs1 c x mk s
def execVabs (vd vs1 : VReg) (mk : VMask) (s : State) : Out := vint1 .abs vd vs1 mk s
def execVneg (vd vs1 : VReg) (mk : VMask) (s : State) : Out := vint1 .neg vd vs1 mk s
def execVcmpeq (md : MReg) (vs1 : VReg) (c : XReg) (x : BitVec 1) (mk : VMask) (s : State) : Out := vicmp .eq md vs1 c x mk s
def execVcmpne (md : MReg) (vs1 : VReg) (c : XReg) (x : BitVec 1) (mk : VMask) (s : State) : Out := vicmp .ne md vs1 c x mk s
def execVcmplt (md : MReg) (vs1 : VReg) (c : XReg) (x : BitVec 1) (mk : VMask) (s : State) : Out := vicmp .lt md vs1 c x mk s
def execVcmple (md : MReg) (vs1 : VReg) (c : XReg) (x : BitVec 1) (mk : VMask) (s : State) : Out := vicmp .le md vs1 c x mk s
def execVcmpltu (md : MReg) (vs1 : VReg) (c : XReg) (x : BitVec 1) (mk : VMask) (s : State) : Out := vicmp .ltu md vs1 c x mk s
def execVcmpleu (md : MReg) (vs1 : VReg) (c : XReg) (x : BitVec 1) (mk : VMask) (s : State) : Out := vicmp .leu md vs1 c x mk s
def execVfadd (vd vs1 : VReg) (c : XReg) (x : BitVec 1) (mk : VMask) (s : State) : Out := vfp .add vd vs1 c x mk s
def execVfsub (vd vs1 : VReg) (c : XReg) (x : BitVec 1) (mk : VMask) (s : State) : Out := vfp .sub vd vs1 c x mk s
def execVfmul (vd vs1 : VReg) (c : XReg) (x : BitVec 1) (mk : VMask) (s : State) : Out := vfp .mul vd vs1 c x mk s
def execVfdiv (vd vs1 : VReg) (c : XReg) (x : BitVec 1) (mk : VMask) (s : State) : Out := vfp .div vd vs1 c x mk s
def execVfsqrt (vd vs1 : VReg) (mk : VMask) (s : State) : Out := vfp1 .sqrt vd vs1 mk s
def execVfmin (vd vs1 : VReg) (c : XReg) (x : BitVec 1) (mk : VMask) (s : State) : Out := vfp .min vd vs1 c x mk s
def execVfmax (vd vs1 : VReg) (c : XReg) (x : BitVec 1) (mk : VMask) (s : State) : Out := vfp .max vd vs1 c x mk s
def execVfmacc (vd vs1 : VReg) (c : XReg) (x : BitVec 1) (mk : VMask) (s : State) : Out := vfp .macc vd vs1 c x mk s
def execVfabs (vd vs1 : VReg) (mk : VMask) (s : State) : Out := vfp1 .abs vd vs1 mk s
def execVfneg (vd vs1 : VReg) (mk : VMask) (s : State) : Out := vfp1 .neg vd vs1 mk s
def execVfcmpeq (md : MReg) (vs1 : VReg) (c : XReg) (x : BitVec 1) (mk : VMask) (s : State) : Out := vfcmp .eq md vs1 c x mk s
def execVfcmplt (md : MReg) (vs1 : VReg) (c : XReg) (x : BitVec 1) (mk : VMask) (s : State) : Out := vfcmp .lt md vs1 c x mk s
def execVfcmple (md : MReg) (vs1 : VReg) (c : XReg) (x : BitVec 1) (mk : VMask) (s : State) : Out := vfcmp .le md vs1 c x mk s

/-- The registers that a field names at a width: one, or a pair at 32 bits (R134). -/
def regsAt (r : VReg) (w : Nat) : List Nat := if w = 32 then [r.toNat, r.toNat + 1] else [r.toNat]

/-- Whether two register lists share a register. -/
def overlap (a b : List Nat) : Bool := a.any fun r => b.contains r

/-- The source and destination formats of a conversion (R183). -/
def cvtFmts (k : Cvt) (v : BitVec 18) (tag : BitVec 5) : EltFmt × EltFmt :=
  match k with
  | .dequant => (tagFmt (vtFmt v), tagFmt tag.toNat)
  | _ => (tagFmt tag.toNat, tagFmt (vtFmt v))

/-- The VCONFIG reasons of a conversion (R183, R184). R141 item 6 and the requirement of a 32-bit side give one reason. -/
def cvtReasons (core : Core) (k : Cvt) (vd vs1 : VReg) (tag : BitVec 5) (p : Part) : List (Nat × Bool) :=
  let v := p.vtype
  let sew := sewBits (vtSew v)
  let fs := cvtFmts k v tag
  let ws := fs.1.width sew
  let wd := fs.2.width sew
  let t := tag.toNat
  [(5, match k with
     | .fcvt => 8 < t
     | _ => !isArithFlt t || isArithFlt (vtFmt v)),
   pairClass v [vd, vs1],
   (6, (ws == 32 && badPair vs1) || (wd == 32 && badPair vd)),
   (7, fs.2 == .ct8 && !ctMonotone (core.bank p.bank)),
   (8, p.lanes * slotsOf (max ws wd) < p.vl),
   (9, k == .quant && vtBlk v != 0 && (regsAt vd wd).contains (vtSreg v))]

/-- Whether a conversion decodes or encodes CT8 (R155). -/
def cvtReads (k : Cvt) (v : BitVec 18) (tag : BitVec 5) : Bool := (cvtFmts k v tag).1 == .ct8 || (cvtFmts k v tag).2 == .ct8

/-- Whether a CTWR to a bank waits on the caller's core (R155). -/
def State.ctwrWaits (s : State) (bank : BitVec 1) : Bool :=
  (List.range 16).any fun i => (s.ctx (16 * coreOf s.cur + i)).wait == .ctwr bank

/-- A conversion (R183, R184); a reader of a bank to which a CTWR waits, waits in its turn (R155). -/
def vconvert (k : Cvt) (vd vs1 : VReg) (tag : BitVec 5) (mk : VMask) (s : State) : Out :=
  match s.myPart with
  | some p =>
    if cvtReads k p.vtype tag && s.ctwrWaits p.bank then waitOn (.reader p.bank) s
    else vform (cvtReasons s.myCore k vd vs1 tag) [vs1] (.cvt k vd vs1 tag mk) s
  | none => vconfig 1 s

def execVfcvt (vd vs1 : VReg) (tag : BitVec 5) (mk : VMask) (s : State) : Out := vconvert .fcvt vd vs1 tag mk s
def execVquant (vd vs1 : VReg) (tag : BitVec 5) (mk : VMask) (s : State) : Out := vconvert .quant vd vs1 tag mk s
def execVdequant (vd vs1 : VReg) (tag : BitVec 5) (mk : VMask) (s : State) : Out := vconvert .dequant vd vs1 tag mk s

/-- Mask logic (R185). -/
def vmask (op : MOp) (md a b : MReg) (mk : VMask) (s : State) : Out := vform (fun _ => []) [] (.mask op md a b mk) s

def execMand (md a b : MReg) (_x : BitVec 1) (mk : VMask) (s : State) : Out := vmask .and md a b mk s
def execMor (md a b : MReg) (_x : BitVec 1) (mk : VMask) (s : State) : Out := vmask .or md a b mk s
def execMxor (md a b : MReg) (_x : BitVec 1) (mk : VMask) (s : State) : Out := vmask .xor md a b mk s
def execMandn (md a b : MReg) (_x : BitVec 1) (mk : VMask) (s : State) : Out := vmask .andn md a b mk s
def execMnot (md a : MReg) (_x : BitVec 1) (mk : VMask) (s : State) : Out := vmask .not md a a mk s
def execMset (md : MReg) (_x : BitVec 1) (mk : VMask) (s : State) : Out := vmask .set md md md mk s
def execMclr (md : MReg) (_x : BitVec 1) (mk : VMask) (s : State) : Out := vmask .clr md md md mk s

/-- A move of patterns (R171, R187, R189). -/
def vmove (data srcs : List VReg) (op : VOp) (s : State) : Out := vform (fun p => [pairClass p.vtype data]) srcs op s

def execVmv (vd vs1 : VReg) (mk : VMask) (s : State) : Out := vmove [vd, vs1] [vs1] (.mv vd vs1 mk) s
def execVmerge (vd vs1 : VReg) (c : XReg) (x : BitVec 1) (mr : MReg) (s : State) : Out :=
  vmove ([vd, vs1] ++ vfields x c) ([vs1] ++ vfields x c) (.merge vd vs1 (s.vsrc x c) mr) s
def execVbcast (vd : VReg) (rs2 : XReg) (mk : VMask) (s : State) : Out := vmove [vd] [] (.bcast vd (s.x rs2) mk) s
def execVmvsx (vd : VReg) (rs2 : XReg) (s : State) : Out := vmove [vd] [] (.mvsx vd (s.x rs2)) s
def execVid (vd : VReg) (mk : VMask) (s : State) : Out := vmove [vd] [] (.vid vd mk) s
def execVshuf (vd vs1 vi : VReg) (mk : VMask) (s : State) : Out := vmove [vd, vs1, vi] [vs1, vi] (.shuf vd vs1 vi mk) s
def execVslideup (vd vs1 : VReg) (rs2 : XReg) (mk : VMask) (s : State) : Out := vmove [vd, vs1] [vs1] (.slideup vd vs1 (s.x rs2) mk) s
def execVslidedn (vd vs1 : VReg) (rs2 : XReg) (mk : VMask) (s : State) : Out := vmove [vd, vs1] [vs1] (.slidedn vd vs1 (s.x rs2) mk) s
def execVcompress (vd vs1 : VReg) (mr : MReg) (s : State) : Out := vmove [vd, vs1] [vs1] (.compress vd vs1 mr) s
def execVexpand (vd vs1 : VReg) (mr : MReg) (s : State) : Out := vmove [vd, vs1] [vs1] (.expand vd vs1 mr) s

/-- What a draining instruction on the array works with once the queue is empty. -/
def State.venv (s : State) (p : Part) : VEnv :=
  { core := s.myCore, part := p
    ent := { op := .repack [], vl := p.vl, vtype := p.vtype, vsbase := p.vsbase, vseed := p.vseed, bank := p.bank, stamp := 0, by_ := s.cur } }

/-- A drained instruction whose sources may be stream registers (R129, R213): it waits until each is full, or is filled with zeros because its channel closed, and then consumes it. -/
def drainStreams (srcs : List VReg) (p : Part) (s : State) (k : State → Part → Out) : Out :=
  match (streamsOf srcs).find? fun w => !((p.stream w).full || (p.stream w).closed) with
  | some w => waitOn (.streamIndex w) s
  | none =>
    let s1 := (streamsOf srcs).foldl (fun s w => s.fillClosed (coreOf s.cur) p w) s
    match s1.myPart with
    | some q => k s1 q
    | none => k s1 p

/-- The stream registers named by an instruction become empty as it completes (R213). -/
def State.consume (s : State) (srcs : List VReg) : State :=
  (streamsOf srcs).foldl (fun s w => s.updMyPart fun p => p.updStream w fun t => { t with full := false }) s

/-- The elements below VL that a mask makes active. -/
def VEnv.actives (v : VEnv) (mk : VMask) : List Nat := (List.range v.ent.vl).filter fun e => (v.active mk e).isSome

/-- What an instruction reads of its mask. -/
def VEnv.maskTouch (v : VEnv) (mk : VMask) : List Touch :=
  match mk with
  | some m => [MReg.at_ m v.sew (v.actives mk)]
  | none => []

/-- A draining instruction that reads arrays into a general register (R129, R186, R187, R190); reads says what it reads there (R366). -/
def vscalar (more : Part → List (Nat × Bool)) (srcs : List VReg) (reads : VEnv → List Touch) (f : VEnv → Nat × Bool × Flags6) (rd : XReg) (s : State) : Out :=
  vguard more s fun p => streamGuard srcs p s fun _ => drainThen s fun _ =>
    drainStreams srcs p s fun s1 p1 =>
      let s2 := s1.checkTouches (coreOf s.cur) p1 (reads (s1.venv p1)) []
      match s2.myPart with
      | some q =>
        let r := f (s2.venv q)
        let v : Reg := { val := BitVec.ofNat 64 r.1, psn := if r.2.1 then some q.origin else none }
        complete s (((s2.updMyPart fun q => { q with vflags := q.vflags ||| r.2.2 }).consume srcs).writeRd rd v)
      | none => vconfig 1 s

/-- The set C of R186: elements below VL whose source bit is 1 and, when masked, whose mask bit is 1; a poisoned mask bit counts as 1 (R169). -/
def VEnv.selected (v : VEnv) (ms1 : MReg) (mk : VMask) : List Nat := (v.actives mk).filter fun e => (v.mbit ms1 e).1

/-- Whether a bit that MPOPC or MFIRST examines is poisoned (R186): a mask bit, or the source bit of an element that the mask does not leave out (log entry 13). -/
def VEnv.selPoison (v : VEnv) (ms1 : MReg) (mk : VMask) : Bool :=
  (List.range v.ent.vl).any fun e => match v.active mk e with
    | some mp => mp.isSome || (v.mbit ms1 e).2.isSome
    | none => false

/-- What MPOPC and MFIRST read: the source bits of the active elements, and the mask. -/
def VEnv.bitTouch (v : VEnv) (ms1 : MReg) (mk : VMask) : List Touch := MReg.at_ ms1 v.sew (v.actives mk) :: v.maskTouch mk

def execMpopc (rd : XReg) (ms1 : MReg) (mk : VMask) (s : State) : Out :=
  vscalar (fun _ => []) [] (fun v => v.bitTouch ms1 mk) (fun v => ((v.selected ms1 mk).length, v.selPoison ms1 mk, 0#6)) rd s

def execMfirst (rd : XReg) (ms1 : MReg) (mk : VMask) (s : State) : Out :=
  vscalar (fun _ => []) [] (fun v => v.bitTouch ms1 mk)
    (fun v => (((v.selected ms1 mk).head?).getD (2 ^ 64 - 1), v.selPoison ms1 mk, 0#6)) rd s

/-- An n-bit pattern extended to 64 bits, with its sign or with zeros. -/
def extend64 (signed : Bool) (n v : Nat) : Nat := if signed then wrapN 64 (sval n v) else v

/-- VMVXS: element 0, sign-extended under SINT (R187). -/
def execVmvxs (rd : XReg) (vs1 : VReg) (s : State) : Out :=
  vscalar (fun p => [pairClass p.vtype [vs1]]) [vs1] (fun v => [VReg.at_ vs1 v.sew [0]])
    (fun v => let x := v.src vs1 v.sew 0; (extend64 (v.fmtTag == 1) v.sew x.1, x.2.isSome, 0#6)) rd s

/-- The format class of a reduction (R190). -/
def redClass (op : RedOp) (v : BitVec 18) : Nat × Bool := if op.isFp then fpClass v else intClass v

/-- How a reduction's value widens into a general register (R190). -/
def RedOp.signed : RedOp → Bool
  | .minu => false
  | .maxu => false
  | op => !op.isFp

/-- VRED (R190): to element 0 of a register, or drained to a general register. -/
def vred (op : RedOp) (d : XReg) (vs1 : VReg) (x : BitVec 1) (mk : VMask) (s : State) : Out :=
  if x == 1#1 then
    vscalar (fun p => [redClass op p.vtype, pairClass p.vtype [vs1]]) [vs1]
      (fun v => VReg.at_ vs1 v.sew (v.actives mk) :: v.maskTouch mk)
      (fun v => let n := v.reduce op vs1 mk; (extend64 op.signed v.sew n.v, n.o.isSome, n.f)) d s
  else vform (fun p => [redClass op p.vtype, pairClass p.vtype [d, vs1]]) [vs1] (.red op d vs1 mk) s

def execVredSum (d : XReg) (vs1 : VReg) (x : BitVec 1) (mk : VMask) (s : State) : Out := vred .sum d vs1 x mk s
def execVredMin (d : XReg) (vs1 : VReg) (x : BitVec 1) (mk : VMask) (s : State) : Out := vred .min d vs1 x mk s
def execVredMax (d : XReg) (vs1 : VReg) (x : BitVec 1) (mk : VMask) (s : State) : Out := vred .max d vs1 x mk s
def execVredMinu (d : XReg) (vs1 : VReg) (x : BitVec 1) (mk : VMask) (s : State) : Out := vred .minu d vs1 x mk s
def execVredMaxu (d : XReg) (vs1 : VReg) (x : BitVec 1) (mk : VMask) (s : State) : Out := vred .maxu d vs1 x mk s
def execVredAnd (d : XReg) (vs1 : VReg) (x : BitVec 1) (mk : VMask) (s : State) : Out := vred .and d vs1 x mk s
def execVredOr (d : XReg) (vs1 : VReg) (x : BitVec 1) (mk : VMask) (s : State) : Out := vred .or d vs1 x mk s
def execVredXor (d : XReg) (vs1 : VReg) (x : BitVec 1) (mk : VMask) (s : State) : Out := vred .xor d vs1 x mk s
def execVredFsum (d : XReg) (vs1 : VReg) (x : BitVec 1) (mk : VMask) (s : State) : Out := vred .fsum d vs1 x mk s
def execVredFmin (d : XReg) (vs1 : VReg) (x : BitVec 1) (mk : VMask) (s : State) : Out := vred .fmin d vs1 x mk s
def execVredFmax (d : XReg) (vs1 : VReg) (x : BitVec 1) (mk : VMask) (s : State) : Out := vred .fmax d vs1 x mk s

/-- VSCAN (R190). -/
def vscan (op : RedOp) (vd vs1 : VReg) (mk : VMask) (s : State) : Out :=
  vform (fun p => [redClass op p.vtype, pairClass p.vtype [vd, vs1]]) [vs1] (.scan op vd vs1 mk) s

def execVscanSum (vd vs1 : VReg) (mk : VMask) (s : State) : Out := vscan .sum vd vs1 mk s
def execVscanMin (vd vs1 : VReg) (mk : VMask) (s : State) : Out := vscan .min vd vs1 mk s
def execVscanMax (vd vs1 : VReg) (mk : VMask) (s : State) : Out := vscan .max vd vs1 mk s
def execVscanMinu (vd vs1 : VReg) (mk : VMask) (s : State) : Out := vscan .minu vd vs1 mk s
def execVscanMaxu (vd vs1 : VReg) (mk : VMask) (s : State) : Out := vscan .maxu vd vs1 mk s
def execVscanAnd (vd vs1 : VReg) (mk : VMask) (s : State) : Out := vscan .and vd vs1 mk s
def execVscanOr (vd vs1 : VReg) (mk : VMask) (s : State) : Out := vscan .or vd vs1 mk s
def execVscanXor (vd vs1 : VReg) (mk : VMask) (s : State) : Out := vscan .xor vd vs1 mk s
def execVscanFsum (vd vs1 : VReg) (mk : VMask) (s : State) : Out := vscan .fsum vd vs1 mk s

/-- The active elements of VDENSE, by index value (R192). -/
def State.denseNew (s : State) (p : Part) (mk : VMask) : List (Nat × Bool) :=
  let v := s.venv p
  (List.range p.vl).filterMap fun e => (v.active mk e).map fun mp =>
    (((p.vsbase.toNat + e) % 2 ^ 64 * (v.sew / 8)) % 2 ^ 32, mp.isSome)

/-- Whether VDENSE adds to what it holds (R192): it is final, or few enough elements are active. -/
def State.denseAdds (s : State) (p : Part) (mk : VMask) (final : Bool) : Bool × Bool :=
  let sparse := p.densEn && decide ((s.denseNew p mk).length * 65536 < p.thresh.toNat * p.vl)
  (final || sparse, final || !sparse)

/-- The effect of VDENSE (R192) on drained arrays whose parity has been read. -/
def State.denseWrite (s : State) (p : Part) (vd vs1 : VReg) (mk : VMask) (final : Bool) : State :=
  let (adds, gives) := s.denseAdds p mk final
  let new := s.denseNew p mk
  let old := (List.range p.held).map fun e => s.myCore.elem p vs1.toNat 32 e
  let list := if adds then old ++ new else new
  let k := if gives then Nat.min list.length p.vlmax else if p.vlmax ≤ list.length then p.vlmax else 0
  let put := fun (r : VReg) (xs : List (Nat × Bool)) =>
    (xs.zipIdx).map fun x => VWrite.elem r.toNat 32 x.2 x.1.1 (if x.1.2 then some 0#64 else none)
  let keep := if adds then list.drop k else []
  let s := s.checkTouches (coreOf s.cur) p [] [VReg.at_ vd 32 (List.range k), VReg.at_ vs1 32 (List.range keep.length)]
  (s.updMyCore fun c => c.applyRes p (s.venv p).sew { ws := put vd (list.take k) ++ put vs1 keep }).updMyPart fun q =>
    { q with
      held := if adds then list.length - k else q.held
      vsbase := q.vsbase + BitVec.ofNat 64 p.vl - BitVec.ofNat 64 k
      vl := k
      iv := q.iv + 1 }

/-- VDENSE on drained arrays (R192): the parity of its mask and of what it holds is read first (R366). -/
def State.dense (s : State) (p : Part) (vd vs1 : VReg) (mk : VMask) (final : Bool) : State :=
  let s := s.checkTouches (coreOf s.cur) p
    ((s.venv p).maskTouch mk ++ (if (s.denseAdds p mk final).1 then [VReg.at_ vs1 32 (List.range p.held)] else [])) []
  match s.myPart with
  | some q => s.denseWrite q vd vs1 mk final
  | none => s

/-- VDENSE (R192): a call with X = 1 and X[xs][0] = 1 is final. Its entry gives no order between the VCONFIG checks and POISON of X[xs]; VCONFIG comes first here, as it does for every other vector instruction (DESIGN CHOICE, log entry 77). -/
def execVdense (vd vs1 : VReg) (c : XReg) (x : BitVec 1) (mk : VMask) (s : State) : Out :=
  vguard (fun p =>
    [(6, vd.toNat % 2 == 1 || vs1.toNat % 2 == 1 || vs1 == 28#5), pairClass p.vtype [vd, vs1],
     (9, vd == vs1), (12, !(vtSew p.vtype == 4 || vtSew p.vtype == 5) || p.vlmax < p.held)]) s fun p =>
    let xs := s.x c
    needClean (if x == 1#1 then [xs] else []) s fun _ =>
      drainThen s fun _ => complete s (s.dense p vd vs1 mk (x == 1#1 && xs.val.getLsbD 0))

end Sys2Proof.Machine
end

