-- ==== Sys2Proof/Machine/VConfig.lean ====
section
/-! DEFINITION. Sys2Proof/Machine/VConfig.lean: the configuration instructions of major 0x28 (R163, R172 to R177) and the writes of VTYPE (R138). -/

namespace Sys2Proof.Machine

/-- A partition of a core whose lanes are those in service (R125, R126, R175, R235). -/
def Core.freshPart (k : Core) (base pairs : Nat) (owner : Option Nat) (p : Part) : Part :=
  let svc := k.service base pairs
  let L := 128 * svc.length
  { p with
    base := base, pairs := pairs, owner := owner, svc := svc, lanes := L
    vl := 0, vflags := 0#6, vfidx := 0, hwmEn := false, hwmH := 0#3
    vlmax := L * (if 5 < vtSew p.vtype then 16 else slotsOf (sewBits (vtSew p.vtype)))
    vgrant := L, queue := [], fly := [], iv := p.iv + 1, links := [] }

/-- VGRANT.LANES as the power block of a tile limits it (R398). -/
def State.grantLanes (s : State) (tile L : Nat) : Nat :=
  max 128 (min L (128 * ((s.pwr tile).lanecap.toNat / 128)))

/-- VSETVL with a length granted, before the high-water limit (R163): the partition after it. -/
def State.grantPart (s : State) (p : Part) (q : Nat) : Part :=
  let svc := s.myCore.service p.base p.pairs
  let L := 128 * svc.length
  let S := slotsOf (sewBits (vtSew p.vtype))
  let lanes := s.grantLanes (tileOf s.cur) L
  { p with
    vsbase := p.vsbase + BitVec.ofNat 64 p.vl
    vlmax := L * S, vgrant := lanes, lanes := L
    vl := min q (min (L * S) (lanes * S))
    vfidx := 0, bank := s.myCore.ctsel, iv := p.iv + 1 }

/-- The repack that a retirement asks for goes before every later entry of the queue (R369). -/
def State.queueRepack (s : State) (p : Part) : State :=
  let svc := s.myCore.service p.base p.pairs
  if 128 * svc.length = p.lanes then s else s.enqueueV p (.repack svc) [] false

/-- VSETVL has been granted its length (R163, R173). -/
def setvlDone (rd : XReg) (p g : Part) (vl : Nat) (s : State) : Out :=
  complete s (((s.queueRepack p).updMyPart fun q => { g with vl := vl, queue := q.queue, fly := q.fly }).writeRd rd (Reg.clean (BitVec.ofNat 64 vl)))

/-- VSETVL (R173). -/
def execVsetvl (rd rs1 : XReg) (s : State) : Out :=
  let q := s.x rs1
  needClean [q] s fun _ =>
    match s.myPart with
    | none => vconfig 1 s
    | some p =>
      if 5 < vtSew p.vtype then vconfig 2 s
      else
        let g := s.grantPart p q.val.toNat
        if p.hwmEn then
          let h := (s.myCore.hreg p.hwmH).seen s.now
          needClean [h] s fun _ =>
            let lim := bitsNat h.val 0 48 - g.vsbase.toNat
            if 0 < lim || h.val.getLsbD 63 then setvlDone rd p g (min g.vl lim) s
            else waitOn .hwm s
        else setvlDone rd p g g.vl s

/-- HWM_RECHECK: the slot after a high-water wait reads the shared register again (R163). -/
def execHwmRecheck (s : State) : Out := if s.me.wait = .hwm then endWait s else .next s

/-- The strip closes and VTYPE changes (R174, R266). -/
def Part.setType (p : Part) (v : BitVec 18) : Part :=
  { p with vsbase := p.vsbase + BitVec.ofNat 64 p.vl, vl := 0, vtype := v, iv := p.iv + 1 }

/-- VSETT (R174). -/
def execVsett (rd rs1 : XReg) (s : State) : Out :=
  let v := s.x rs1
  needClean [v] s fun _ =>
    match s.myPart with
    | none => vconfig 1 s
    | some p =>
      complete s ((s.updMyPart fun p => p.setType (v.val.extractLsb' 0 18)).writeRd rd (Reg.clean (p.vtype.zeroExtend 64)))

/-- VTYPE_WRITE: a write to VTYPE by CWR, CSET or CCLR acts as VSETT with the value written; ignored without a partition (R138). -/
def execVtypeWrite (v : Word) (s : State) : Out := .next (s.updMyPart fun p => p.setType (v.extractLsb' 0 18))

/-- A stream register of a partition is given up with the partition: its endpoint is bound by no stream (R203). -/
def State.dropStreams (s : State) (c : Nat) (p : Part) : State :=
  match s.procOf c with
  | none => s
  | some ltag =>
    let drop := fun (s : State) (t : Stream) => if t.bound then s.unbindEp ltag t.ep.toNat else s
    drop (drop s p.str0) p.str1

/-- A stream register after a change of mode: still bound, and empty (R136). -/
def Stream.emptied (t : Stream) : Stream := { t with full := false }

/-- ChangeMode (R136, R175, R248): the lines in the ways that enter array mode are written back or dropped; the new arrays hold undefined values, one partition lies over the whole array, and VSEED is kept. -/
def State.changeMode (s : State) (m : BitVec 2) : State :=
  let old := s.myPart
  let s := if m = 0#2 then match old with
    | some p => s.dropStreams s.cur p
    | none => s
  else s
  let s := s.updTile (tileOf s.cur) fun t => t.takeWays (coreOf s.cur) (cacheWays m)
  s.tick.updMyCore fun k =>
    let seed := match old with
      | some p => p.vseed
      | none => k.vseed
    let p : Part :=
      { base := 0, pairs := 0, owner := none, vseed := seed, bank := k.ctsel
        str0 := ((old.map Part.str0).getD {}).emptied, str1 := ((old.map Part.str1).getD {}).emptied }
    let k := { k with vmode := m, vseed := seed, arr := [], parity := [], epoch := s.fresh, parts := [] }
    if m = 0#2 then k else { k with parts := [k.freshPart 0 (modePairs m) (some (slotOf s.cur)) p] }

/-- GATED_LAYER (R371): the word and the layer. -/
def gatedLayer (layer : Nat) (s : State) : Out := raise .gatedLayer (BitVec.ofNat 64 (s.iw.toNat * 2 ^ 32 + layer)) s

/-- VMODE (R175); each dirty line of the ways that enter array mode adds one i-cycle (R248). -/
def execVmode (rd rs1 : XReg) (s : State) : Out :=
  let m := s.x rs1
  let k := s.myCore
  needClean [m] s fun _ =>
    if k.vmode = 0#2 && slotOf s.cur != 0 then vconfig 0x0A s
    else if k.vmode ≠ 0#2 && (match s.myPart with
      | some p => p.pairs != modePairs k.vmode
      | none => true) then vconfig 0x0A s
    else if 3 < m.val.toNat then complete s (s.writeRd rd (Reg.clean 2#64))
    else if m.val ≠ 0#64 && s.myTile.top then gatedLayer 1 s
    else drainThen s fun _ =>
      if m.val.extractLsb' 0 2 = k.vmode then complete s (s.writeRd rd (Reg.clean 1#64))
      else completeIn (64 + s.myTile.dirtyWays (coreOf s.cur) (cacheWays (m.val.extractLsb' 0 2))) s ((s.changeMode (m.val.extractLsb' 0 2)).writeRd rd (Reg.clean 0#64))

/-- Whether a queue entry is a reader of a bank (R155). -/
def VEntry.readsBank (e : VEntry) (b : BitVec 1) : Bool :=
  match e.op with
  | .cvt k _ _ tag _ => e.bank == b && cvtReads k e.vtype tag
  | _ => false

/-- Whether readers of a bank are queued on a core (R155). -/
def Core.bankBusy (k : Core) (b : BitVec 1) : Bool := k.parts.any fun p => p.pending.any fun e => e.readsBank b

/-- Write one code-table entry (R176). -/
def Core.setEntry (k : Core) (b : BitVec 1) (c : Nat) (v : BitVec 19) : Core :=
  if b = 0#1 then { k with ctA := k.ctA.set c v } else { k with ctB := k.ctB.set c v }

/-- The write of CTWR once no reader is in the way (R155, R176). -/
def writeEntry (k v : Word) (s : State) : Out :=
  complete s (s.updMyCore fun c => c.setEntry (k.extractLsb' 8 1) (bitsNat k 0 8) (v.extractLsb' 0 19))

/-- CTWR (R176). -/
def execCtwr (rs1 rs2 : XReg) (s : State) : Out :=
  let k := s.x rs1
  let v := s.x rs2
  needClean [k, v] s fun _ =>
    if s.myCore.bankBusy (k.val.extractLsb' 8 1) then waitOn (.ctwr (k.val.extractLsb' 8 1)) s
    else writeEntry k.val v.val s

/-- CTWR_WAIT_END: the readers of the bank have completed, so the waiting CTWR performs; a reader that waited for a CTWR goes on (R155). -/
def execCtwrWaitEnd (s : State) : Out :=
  match s.me.wait with
  | .ctwr b =>
    if s.myCore.bankBusy b then .next s
    else writeEntry (s.x (s.me.uword.extractLsb' 16 5)).val (s.x (s.me.uword.extractLsb' 11 5)).val s
  | .reader b => if s.ctwrWaits b then .next s else resume s
  | _ => .next s

/-- CTSEL (R177). -/
def execCtsel (rs1 : XReg) (s : State) : Out :=
  let b := s.x rs1
  needClean [b] s fun _ => complete s (s.updMyCore fun k => { k with ctsel := b.val.extractLsb' 0 1 })

end Sys2Proof.Machine
end

