-- ==== Sys2Proof/Machine/VMem.lean ====
section
/-! DEFINITION. Sys2Proof/Machine/VMem.lean: the scalar phase of the vector memory instructions of major 0x2D (R193 to R196, R213, R273 to R280). -/

namespace Sys2Proof.Machine

/-- How an instruction forms its element addresses (R194). -/
inductive VAddr where
  | unit
  | strided (s : Reg)
  | indexed (vi : VReg) (iw : BitVec 2)

/-- Width in bits of an index (R193). -/
def indexBits (iw : BitVec 2) : Nat := 8 * 2 ^ iw.toNat

/-- A vector memory instruction: data register, addresses, mask, direction, extra VCONFIG reasons, and the entry it becomes. -/
structure VMem where
  data  : VReg
  base  : Reg
  addr  : VAddr
  mk_   : VMask
  store : Bool
  more  : Part → List (Nat × Bool)
  op    : List EAddr → Bool → VOp

/-- The stream registers among the data of a store and the index (R195, R213). -/
def VMem.srcs (v : VMem) : List VReg :=
  (if v.store then [v.data] else []) ++ (match v.addr with
    | .indexed vi _ => [vi]
    | _ => [])

/-- The register of the index. -/
def VMem.index (v : VMem) : Option (VReg × Nat) :=
  match v.addr with
  | .indexed vi iw => some (vi, indexBits iw)
  | _ => none

/-- The registers that an access addresses with: its index and its mask. -/
def VMem.addrRegs (v : VMem) : List Nat :=
  (match v.index with
    | some x => regsAt x.1 x.2
    | none => []) ++ (match v.mk_ with
    | some m => [24 + m.toNat]
    | none => [])

/-- Whether the data register overlaps the index or the mask (R194, R274). -/
def VMem.overlaps (v : VMem) (p : Part) : Bool := overlap (regsAt v.data (sewBits (vtSew p.vtype))) v.addrRegs

/-- The VCONFIG reasons of every vector memory instruction (R141, R194). -/
def VMem.reasons (v : VMem) (p : Part) : List (Nat × Bool) :=
  [pairClass p.vtype (v.data :: (match v.addr with
     | .indexed vi _ => [vi]
     | _ => [])),
   (6, match v.index with
     | some (vi, w) => w == 32 && (vi.toNat % 2 == 1 || 22 < vi.toNat)
     | none => false),
   (11, vtSew p.vtype < 3 && (match v.addr with
     | .unit => false
     | _ => true))] ++ v.more p

/-- ElemAddr (R194); a width below 8 gives the byte that holds the element. -/
def VMem.elemAddr (v : VMem) (c : Core) (p : Part) (e : Nat) : Word :=
  match v.addr with
  | .unit => v.base.val + BitVec.ofNat 64 (e * sewBits (vtSew p.vtype) / 8)
  | .strided s => v.base.val + BitVec.ofNat 64 e * s.val
  | .indexed vi iw => v.base.val + BitVec.ofNat 64 (c.elem p vi.toNat (indexBits iw) e).1

/-- The elements from the restart point up whose mask bit is set (R168, R195). -/
def VMem.active (v : VMem) (c : Core) (p : Part) : List Nat :=
  ((List.range p.vl).drop p.vfidx).filter fun e => match v.mk_ with
    | some m => (c.maskBit p m.toNat (sewBits (vtSew p.vtype)) e).1
    | none => true

/-- Whether a mask bit from the restart point up, or the index of an active element, is poisoned (R195 step 3). -/
def VMem.poisoned (v : VMem) (c : Core) (p : Part) : Bool :=
  (match v.mk_ with
    | some m => ((List.range p.vl).drop p.vfidx).any fun e => (c.maskBit p m.toNat (sewBits (vtSew p.vtype)) e).2
    | none => false) ||
  (match v.index with
    | some (vi, w) => (v.active c p).any fun e => (c.elem p vi.toNat w e).2
    | none => false)

/-- How an element failed at step 4 of R195: cause, address, and level and reason of a failed translation. -/
structure VFault where
  cause : Cause
  va    : Word
  xl    : Option (Nat × Nat) := none
deriving DecidableEq, Repr

/-- The number of the 64 KiB part of the address space that holds an address. -/
def pageNo (va : Word) : Nat := bitsNat va 16 48

/-- One element's checks (R195 step 4). A poisoned page-table entry, which is not among the causes of R196, ends the translation at its element as they do (DESIGN CHOICE, log entry 78). -/
def State.checkElem (s : State) (kind : AccKind) (n : Nat) (va : Word) : State × (Nat ⊕ VFault) :=
  if !canonical va then (s, .inr { cause := .accessFault, va := va })
  else if va.toNat % n != 0 then (s, .inr { cause := .misaligned, va := va })
  else match s.translate (coreOf s.cur) s.me.priv va kind with
    | (s1, .ok pa) => (s1, .inl pa)
    | (s1, .fault l r) => (s1, .inr { cause := kind.cause, va := va, xl := some (l, r) })
    | (s1, .poison) => (s1, .inr { cause := .poison, va := va })
    | (s1, .absent) => (s1, .inr { cause := .accessFault, va := va })
    | (s1, .halted) => (s1, .inr { cause := .accessFault, va := va })

/-- Under unit stride every page between two active elements is looked up too (R257); no element touches it, so nothing fails there. -/
def State.lookBetween (s : State) (kind : AccKind) (a b : Word) : State :=
  (List.range (pageNo b - pageNo a - 1)).foldl (fun s i =>
    (s.translate (coreOf s.cur) s.me.priv (BitVec.ofNat 64 (65536 * (pageNo a + 1 + i))) kind).1) s

/-- The elements that pass, up to the first that fails (R195 step 4). -/
def State.checkElems (s : State) (unit : Bool) (kind : AccKind) (n : Nat) (addr : Nat → Word) :
    List Nat → List EAddr → State × List EAddr × Option (Nat × VFault)
  | [], done => (s, done.reverse, none)
  | e :: es, done =>
    let s := if unit then s.lookBetween kind ((done.head?.map fun a => a.va).getD (addr e)) (addr e) else s
    match s.checkElem kind n (addr e) with
    | (s1, .inl pa) =>
      State.checkElems s1 unit kind n addr es ({ e := e, va := addr e, pa := pa, big := s1.bigPage (coreOf s.cur) (addr e) } :: done)
    | (s1, .inr f) => (s1, done.reverse, some (e, f))

/-- The page of an element by its translation: a 2 MiB page is one (R257). -/
def State.pageKey (s : State) (page : Nat) : Nat × Bool :=
  if s.bigPage (coreOf s.cur) (BitVec.ofNat 64 (65536 * page)) then (page / 32, true) else (page, false)

/-- The page that an element touches, by its own translation (R257). -/
def EAddr.page (a : EAddr) : Nat × Bool := if a.big then (pageNo a.va / 32, true) else (pageNo a.va, false)

/-- The pages that an element adds to those before it: its own, and under unit stride those since the last element (R257). -/
def State.pagesOf (s : State) (unit : Bool) (last : Option EAddr) (a : EAddr) : List (Nat × Bool) :=
  (match unit, last with
    | true, some b => (List.range (pageNo a.va - pageNo b.va - 1)).map fun i => s.pageKey (pageNo b.va + 1 + i)
    | _, _ => []) ++ [a.page]

/-- Frames that a queue entry holds (R257). -/
def pieceFrames : Nat := 64

/-- The elements cut into pieces in ascending order, each the longest run whose pages fit in a queue entry (R257). now holds the piece that is being formed, last element first, and its pages. -/
def State.cutPieces (s : State) (unit : Bool) : List EAddr → List EAddr → List (Nat × Bool) → List (List EAddr)
  | [], now, _ => [now.reverse]
  | a :: as, now, ks =>
    let ks' := (ks ++ s.pagesOf unit now.head? a).dedup
    if now.isEmpty || ks'.length ≤ pieceFrames then s.cutPieces unit as (a :: now) ks'
    else now.reverse :: s.cutPieces unit as [a] [a.page]

/-- The entries that an instruction's pieces become; only the last piece of one that does not trap ends it (R257, R277). -/
def VMem.entries (v : VMem) (ends : Bool) : List (List EAddr) → List VOp
  | [] => []
  | [els] => [v.op els ends]
  | els :: r => v.op els false :: v.entries ends r

/-- The trap of a failed element (R196). -/
def State.vectorTrap (s : State) (cause : Cause) (va : Word) (f : Nat) : State :=
  (s.updMyPart fun p => { p with vfidx := f }).takeTrap cause va

/-- XLSTAT after a failed translation (R254). -/
def Ctx.noteXl (c : Ctx) : Option (Nat × Nat) → Ctx
  | some (l, r) => { c with xlLevel := BitVec.ofNat 4 l, xlReason := BitVec.ofNat 4 r }
  | none => c

/-- Whether an instruction is unit-stride. -/
def VMem.isUnit (v : VMem) : Bool :=
  match v.addr with
  | .unit => true
  | _ => false

/-- Steps 4 and 5 of R195, R196 and R257. -/
def VMem.translate (v : VMem) (p : Part) (s : State) : Out :=
  let c := s.myCore
  let kind := if v.store then AccKind.store else .load
  match s.checkElems v.isUnit kind (max 1 (sewBits (vtSew p.vtype) / 8)) (v.elemAddr c p) (v.active c p) [] with
  | (s1, els, none) => placeVector (v.entries true (s1.cutPieces v.isUnit els [] [])) (streamsOf v.srcs) none s1
  | (s1, [], some (f, x)) => .next ((s1.updMe fun c => c.noteXl x.xl).vectorTrap x.cause x.va f)
  | (s1, els, some (f, x)) =>
    placeVector (v.entries false (s1.cutPieces v.isUnit els [] [])) (streamsOf (if v.store then [v.data] else []))
      (some (x.cause.code, x.va, f)) (s1.updMe fun c => c.noteXl x.xl)

/-- The parity of what the scalar phase reads of the array: the indices of the active elements, and the mask (R366). -/
def VMem.parity (v : VMem) (p : Part) (s : State) : State :=
  let act := v.active s.myCore p
  s.checkTouches (coreOf s.cur) p ((match v.index with
    | some (vi, w) => [VReg.at_ vi w act]
    | none => []) ++ (match v.mk_ with
    | some m => [MReg.at_ m (sewBits (vtSew p.vtype)) act]
    | none => [])) []

/-- Step 3 of R195 once its waits are over: the poison of masks and indices, then the translations. -/
def VMem.read (v : VMem) (s : State) : Out :=
  match s.myPart with
  | none => vconfig 1 s
  | some p0 =>
    let s1 := v.parity p0 s
    match s1.myPart with
    | none => vconfig 1 s
    | some p => if v.poisoned s1.myCore p then raise .poison p.origin s1 else v.translate p s1

/-- The scalar phase of a vector memory instruction (R195). -/
def VMem.run (v : VMem) (s : State) : Out :=
  vguard v.reasons s fun p =>
    needClean (v.base :: (match v.addr with
      | .strided x => [x]
      | _ => [])) s fun _ =>
      streamGuard v.srcs p s fun _ =>
        if v.mk_.isSome || v.index.isSome then
          drainThen s fun _ =>
            drainStreams (match v.addr with
              | .indexed vi _ => [vi]
              | _ => []) p s fun s1 _ => v.read s1
        else v.translate p s

/-- A load: its data register overlaps neither index nor mask (R194). -/
def vloadForm (vd : VReg) (base : XReg) (addr : VAddr) (mk : VMask) (s : State) : Out :=
  let v : VMem := { data := vd, base := s.x base, addr := addr, mk_ := mk, store := false, more := fun _ => [], op := fun els _ => .load vd els }
  VMem.run { v with more := fun p => [(9, v.overlaps p)] } s

/-- A store. -/
def vstoreForm (vs : VReg) (base : XReg) (addr : VAddr) (mk : VMask) (s : State) : Out :=
  VMem.run { data := vs, base := s.x base, addr := addr, mk_ := mk, store := true, more := fun _ => [], op := fun els _ => .store vs els } s

def execVld (vd : VReg) (base : XReg) (mk : VMask) (s : State) : Out := vloadForm vd base .unit mk s
def execVlds (vd : VReg) (base rs : XReg) (mk : VMask) (s : State) : Out := vloadForm vd base (.strided (s.x rs)) mk s
def execVldx (vd : VReg) (base : XReg) (vi : VReg) (iw : BitVec 2) (mk : VMask) (s : State) : Out :=
  vloadForm vd base (.indexed vi iw) mk s
def execVst (vs : VReg) (base : XReg) (mk : VMask) (s : State) : Out := vstoreForm vs base .unit mk s
def execVsts (vs : VReg) (base rs : XReg) (mk : VMask) (s : State) : Out := vstoreForm vs base (.strided (s.x rs)) mk s
def execVstx (vs : VReg) (base : XReg) (vi : VReg) (iw : BitVec 2) (mk : VMask) (s : State) : Out :=
  vstoreForm vs base (.indexed vi iw) mk s

/-- A linked access or vector atomic (R274): its data register overlaps neither index nor mask. -/
def vlinkForm (d : VReg) (base : XReg) (vi : VReg) (iw : BitVec 2) (mk : VMask) (store : Bool) (more : Part → List (Nat × Bool))
    (op : List EAddr → Bool → VOp) (s : State) : Out :=
  let v : VMem := { data := d, base := s.x base, addr := .indexed vi iw, mk_ := mk, store := store, more := more, op := op }
  VMem.run { v with more := fun p => (9, v.overlaps p) :: more p } s

/-- The caller's link set is emptied (R275). -/
def State.unlink (s : State) : State := s.updMyPart fun q => { q with links := [] }

/-- A VLDL with VFIDX = 0 empties the link set as its first piece is enqueued (R275): in this step, or, where that piece waits for a full queue, when an entry frees. -/
def emptyLinks (p : Part) : Out → Out
  | .next s =>
    if p.vfidx ≠ 0 then .next s
    else if p.pending.length < (s.queueOf s.cur).length then .next s.unlink
    else match s.me.wait with
      | .queueFree (.vec ops uses trap _) => .next (s.updMe fun c => { c with wait := .queueFree (.vec ops uses trap true) })
      | _ => .next s
  | o => o

/-- VLDL (R276): the link set is emptied at enqueue when the instruction starts from element 0 (R275). -/
def execVldl (vd : VReg) (base : XReg) (vi : VReg) (iw : BitVec 2) (mk : VMask) (s : State) : Out :=
  let o := vlinkForm vd base vi iw mk false (fun _ => []) (fun els _ => .loadLinked vd els) s
  match s.myPart with
  | some p => emptyLinks p o
  | none => o

/-- VSTC (R277). -/
def execVstc (vs : VReg) (base : XReg) (vi : VReg) (iw : BitVec 2) (mr : MReg) (s : State) : Out :=
  vlinkForm vs base vi iw (some mr) true (fun _ => []) (fun els last => .storeCond vs mr els last) s

/-- The format that VAMO needs (R280). -/
def vamoClass (op : VAmoOp) (v : BitVec 18) : Nat × Bool :=
  match op with
  | .fadd => fpClass v
  | _ => intClass v

/-- VAMO (R280): a 32-bit index. -/
def vamoForm (op : VAmoOp) (vs : VReg) (base : XReg) (vi : VReg) (mk : VMask) (s : State) : Out :=
  vlinkForm vs base vi 2#2 mk true (fun p => [vamoClass op p.vtype]) (fun els _ => .amo op vs els) s

def execVamoAdd (vs : VReg) (base : XReg) (vi : VReg) (mk : VMask) (s : State) : Out := vamoForm .add vs base vi mk s
def execVamoMin (vs : VReg) (base : XReg) (vi : VReg) (mk : VMask) (s : State) : Out := vamoForm .min vs base vi mk s
def execVamoMax (vs : VReg) (base : XReg) (vi : VReg) (mk : VMask) (s : State) : Out := vamoForm .max vs base vi mk s
def execVamoFadd (vs : VReg) (base : XReg) (vi : VReg) (mk : VMask) (s : State) : Out := vamoForm .fadd vs base vi mk s

end Sys2Proof.Machine
end

