-- ==== Sys2Proof/Machine/Barriers.lean ====
section
/-! DEFINITION. Sys2Proof/Machine/Barriers.lean: the named barriers of major 0x21 (R282 to R289). -/

namespace Sys2Proof.Machine

/-- A status of R285: 2^64 - k. -/
def barStatus (k : Nat) : Reg := Reg.clean (BitVec.ofNat 64 (2 ^ 64 - k))

/-- The core whose barrier an operand names (R285). -/
def barrierCore (own : Nat) (v : Word) : Nat := if v.getLsbD 7 then 8 * (own / 8) + bitsNat v 8 3 else own

/-- The barrier number that an operand names (R285). -/
def barrierNum (v : Word) : Nat := bitsNat v 0 7

/-- The barrier that an operand names. -/
def State.barrierAt (s : State) (v : Word) : Barrier := (s.core (barrierCore s.k v)).barrier (barrierNum v)

/-- Change the barrier that an operand names. -/
def State.setBarrier (s : State) (v : Word) (b : Barrier) : State := s.updBarrier (barrierCore s.k v) (barrierNum v) fun _ => b

/-- Whether an operand names another core's barrier. -/
def State.barrierOther (s : State) (v : Word) : Bool := barrierCore s.k v != s.k

/-- What an operation on a barrier costs: more when another core has it (R284). -/
def State.barrierCost (s : State) (v : Word) (own : Nat) : Nat := if s.barrierOther v then own + 32 else own

/-- The checks REMOTE, UNINIT and FAULTED that every operation but BINIT makes, in this order (R285). -/
def State.barrierCheck (s : State) (v : Word) : Option Nat :=
  let b := s.barrierAt v
  if s.barrierOther v && b.scope == 1#2 then some 2
  else if !b.init then some 1
  else if b.err then some 4
  else none

/-- Whether a context of the tile waits in BWAIT on a barrier (R285). -/
def State.barrierWaiters (s : State) (core n : Nat) : Bool :=
  s.ctxs.any fun kv => kv.2.wait == .barrier &&
    (let v := (kv.2.getX (kv.2.uword.extractLsb' 16 5)).val
     barrierCore (coreOf kv.1) v == core && barrierNum v == n)

/-- The status of BINIT (R285): OPERAND, REMOTE, BUSY. -/
def State.binitStatus (s : State) (v t : Word) : Option Nat :=
  if !(bitsNat v 12 2 == 1 || bitsNat v 12 2 == 2) || t == 0#64 || 2 ^ 40 ≤ t.toNat then some 5
  else if v.getLsbD 7 then some 2
  else if (s.barrierAt v).pending != 0 || s.barrierWaiters s.k (barrierNum v) then some 6
  else none

/-- BINIT (R286). -/
def execBinit (rd rs1 rs2 : XReg) (s : State) : Out :=
  let v := s.x rs1
  let t := s.x rs2
  needClean [v, t] s fun _ =>
    match s.binitStatus v.val t.val with
    | some e => completeIn 32 s (s.writeRd rd (barStatus e))
    | none =>
      completeIn 32 s ((s.setBarrier v.val
        { init := true, scope := v.val.extractLsb' 12 2, target := t.val.toNat }).writeRd rd (Reg.clean 0#64))

/-- The arrival of a context at a barrier with a count (R286): the context's earlier accesses have performed at the barrier's scope. -/
def State.arrive (s : State) (v : Word) (n : Nat) : State :=
  let b := s.barrierAt v
  (s.performAt b.scope.toNat).setBarrier v { b with count := min (b.count + n) (2 ^ 40 - 1) }.settle

/-- BARR once its count is known (R286): the release wait, the checks at the barrier, and the arrival. -/
def barrArrive (rd : XReg) (v : Word) (n : Nat) (s : State) : Out :=
  if !s.vectorAccessesDone s.cur then waitOn .release s
  else
    let cost := s.barrierCost v 16
    match s.barrierCheck v with
    | some e => completeIn cost s (s.writeRd rd (barStatus e))
    | none =>
      let b := s.barrierAt v
      if b.phase = 2 ^ 32 - 1 then completeIn cost s (s.writeRd rd (barStatus 3))
      else completeIn cost s ((s.arrive v n).writeRd rd (Reg.clean (BitVec.ofNat 64 b.phase)))

/-- The mask count of a BARR (R286): the set bits below VL. -/
def barrMask (rd : XReg) (v c : Word) (s : State) : Out :=
  if bitsNat c 2 61 != 0 then complete s (s.writeRd rd (barStatus 5))
  else
    match s.myPart with
    | none => complete s (s.writeRd rd (barStatus 5))
    | some p =>
      if 5 < vtSew p.vtype then vconfig 2 s
      else drainThen s fun _ =>
        let m := c.extractLsb' 0 2
        let s := s.checkTouches (coreOf s.cur) p [MReg.at_ m (sewBits (vtSew p.vtype)) (List.range p.vl)] []
        match s.myPart with
        | none => complete s s
        | some p =>
          let bits := (List.range p.vl).map fun e => s.myCore.maskBit p m.toNat (sewBits (vtSew p.vtype)) e
          if bits.any fun b => b.2 then raise .poison p.origin s
          else barrArrive rd v (bits.filter fun b => b.1).length s

/-- BARR on clean operands (R286). -/
def barr (rd : XReg) (v c : Word) (s : State) : Out :=
  if c.getLsbD 63 then barrMask rd v c s
  else if bitsNat c 40 23 != 0 then complete s (s.writeRd rd (barStatus 5))
  else barrArrive rd v (bitsNat c 0 40) s

/-- BARR (R286). -/
def execBarr (rd rs1 rs2 : XReg) (s : State) : Out :=
  let v := s.x rs1
  let c := s.x rs2
  needClean [v, c] s fun _ => barr rd v.val c.val s

/-- BEXP (R287). -/
def execBexp (rd rs1 rs2 : XReg) (s : State) : Out :=
  let v := s.x rs1
  let n := s.x rs2
  needClean [v, n] s fun _ =>
    let b := s.barrierAt v.val
    let cost := s.barrierCost v.val 32
    if 2 ^ 40 - 1 < n.val.toNat || 2 ^ 40 - 1 < b.pending + n.val.toNat then completeIn cost s (s.writeRd rd (barStatus 5))
    else
      match s.barrierCheck v.val with
      | some e => completeIn cost s (s.writeRd rd (barStatus e))
      | none =>
        if b.phase = 2 ^ 32 - 1 then completeIn cost s (s.writeRd rd (barStatus 3))
        else
          completeIn cost s ((s.setBarrier v.val { b with pending := b.pending + n.val.toNat }.settle).writeRd rd
            (Reg.clean (BitVec.ofNat 64 b.phase)))

/-- BWAIT (R288). -/
def execBwait (rd rs1 rs2 : XReg) (s : State) : Out :=
  let v := s.x rs1
  let w := s.x rs2
  needClean [v, w] s fun _ =>
    let cost := s.barrierCost v.val 16
    if 2 ^ 32 - 1 ≤ w.val.toNat then completeIn cost s (s.writeRd rd (barStatus 5))
    else
      match s.barrierCheck v.val with
      | some e => completeIn cost s (s.writeRd rd (barStatus e))
      | none =>
        if w.val.toNat < (s.barrierAt v.val).phase then completeIn cost s (s.writeRd rd (Reg.clean 0#64))
        else waitOn .barrier s

/-- What a waiting BWAIT would end with: 0 once its phase is complete, FAULTED once ERR is set (R288). -/
def State.bwaitResult (s : State) : Option Reg :=
  let v := (s.x (s.me.uword.extractLsb' 16 5)).val
  let w := (s.x (s.me.uword.extractLsb' 11 5)).val
  let b := s.barrierAt v
  if w.toNat < b.phase then some (Reg.clean 0#64) else if b.err then some (barStatus 4) else none

/-- BARRIER_WAIT_END: the awaited phase is complete, or the barrier is faulted, and BWAIT ends (R288). -/
def execBarrierWaitEnd (s : State) : Out :=
  if s.me.wait = .barrier then
    match s.bwaitResult with
    | some r => complete s (s.writeRd (s.me.uword.extractLsb' 21 5) r)
    | none => .next s
  else .next s

/-- BTEST (R288). -/
def execBtest (rd rs1 rs2 : XReg) (s : State) : Out :=
  let v := s.x rs1
  let w := s.x rs2
  needClean [v, w] s fun _ =>
    let cost := s.barrierCost v.val 16
    if 2 ^ 32 - 1 ≤ w.val.toNat then completeIn cost s (s.writeRd rd (barStatus 5))
    else
      match s.barrierCheck v.val with
      | some e => completeIn cost s (s.writeRd rd (barStatus e))
      | none => completeIn cost s (s.writeRd rd (Reg.clean (if w.val.toNat < (s.barrierAt v.val).phase then 1#64 else 0#64)))

/-- Unacknowledged scatter elements of the caller's partition: store elements sent by its lanes that have not performed at TILE (R289). -/
def State.scatters (s : State) : Nat :=
  match s.myPart with
  | none => 0
  | some p => (s.myCore.buf.map fun w => (w.lanes.filter fun l => decide (8192 * p.base ≤ l) && decide (l < 8192 * (p.base + p.pairs))).length).sum

/-- PHASEND (R289). -/
def execPhasend (rd rs1 rs2 : XReg) (s : State) : Out :=
  let v := s.x rs1
  let c := s.x rs2
  needClean [v, c] s fun _ =>
    drainThen s fun _ => if s.scatters = 0 then barr rd v.val c.val s else waitOn .scatter s

/-- SCATTER_DRAIN_END: every scatter counter of the partition is zero, so PHASEND goes on to its arrival (R289). -/
def execScatterDrainEnd (s : State) : Out := if s.me.wait = .scatter && s.scatters == 0 then resume s else .next s

end Sys2Proof.Machine
end

