-- ==== Sys2Proof/Machine/Contexts.lean ====
section
/-! DEFINITION. Sys2Proof/Machine/Contexts.lean: starting, stopping, reaping, forking and joining contexts, and the shared registers: major 0x20 (R110 to R126). -/

namespace Sys2Proof.Machine

/-- The context key of a slot of the core that issues. -/
def State.slotKey (s : State) (slot : Nat) : Nat := 16 * coreOf s.cur + slot

/-- The slot that an operand names: bits [3:0] (R118). -/
def slotArg (v : Word) : Nat := bitsNat v 0 4

/-- Start a context in a FREE slot: it first issues 16 i-cycles later at the earliest (R28, R119). -/
def State.startCtx (s : State) (slot : Nat) (pc : Word) (priv : BitVec 2) : State :=
  s.setCtx (s.slotKey slot) { Ctx.start pc priv with ready := s.now + 16 }

/-- Whether an entry pc may start a context: canonical and aligned (R119, R125). -/
def goodEntry (pc : Word) : Bool := canonical pc && pc.extractLsb' 0 2 == 0#2

/-- The status of a CSTART that starts nothing (R119). -/
def State.cstartStatus (s : State) (v pc : Word) : Option Nat :=
  if slotArg v = 0 then some 1
  else if (s.ctx (s.slotKey (slotArg v))).slot ≠ .free then some 2
  else if 2 ≤ bitsNat v 8 2 || (bitsNat v 8 2 == 1 && s.me.priv == 0#2) then some 3
  else if !goodEntry pc then some 4
  else none

/-- CSTART (R119): slot 0 only. -/
def execCstart (rd rs1 rs2 : XReg) (s : State) : Out :=
  let v := s.x rs1
  let pc := s.x rs2
  if slotOf s.cur ≠ 0 then privViolation s
  else needClean [v, pc] s fun _ =>
    match s.cstartStatus v.val pc.val with
    | some e => completeIn 32 s (s.writeRd rd (Reg.clean (BitVec.ofNat 64 e)))
    | none => completeIn 32 s ((s.startCtx (slotArg v.val) pc.val (v.val.extractLsb' 8 2)).writeRd rd (Reg.clean 0#64))

/-- Whether a RUNNING context is at an instruction boundary: not in a wait that ends with its operation (R63, R109); MATTACH waits for its job without interruption (R303). -/
def Ctx.atBoundary (c : Ctx) : Bool :=
  match c.wait with
  | .memReply => false
  | .divide => false
  | .cstop _ => false
  | .release => false
  | .vfault _ _ _ => false
  | .stopping _ => false
  | .job => !(c.uword.extractLsb' 26 6 == 0x30#6 && c.uword.extractLsb' 4 5 == 0#5)
  | .channel => match c.chan with
    | some p => !p.held
    | none => true
  | _ => true

/-- A stop asked for at a context's next boundary (R120): it takes effect now when the context is at one. -/
def State.stopSoon (s : State) (c : Nat) : State :=
  if (s.ctx c).slot ≠ .running then s
  else if (s.ctx c).atBoundary && !s.awayOffers c then s.stopCtx c .halted
  else (s.leaveOffers c).updCtx c fun x => { x with stopReq := true }

/-- CSTOP of a slot (R120): slot 0 only. It waits until the slot has stopped. -/
def execCstop (rd rs1 : XReg) (s : State) : Out :=
  let v := s.x rs1
  if slotOf s.cur ≠ 0 then privViolation s
  else needClean [v] s fun _ =>
    let t := s.slotKey (slotArg v.val)
    let done := fun (s1 : State) (n : Nat) => complete s (s1.writeRd rd (Reg.clean (BitVec.ofNat 64 n)))
    if slotArg v.val = 0 then done s 1
    else match (s.ctx t).slot with
      | .free => done s 0xFF
      | .stopped _ => done s 2
      | .running =>
        let s1 := s.stopSoon t
        match (s1.ctx t).slot with
        | .running => if s.atLastPc then raise .accessFault pastPc s else .next (s1.updMe fun c => { c with wait := .cstop (slotArg v.val), uword := s.iw })
        | _ => done s1 0

/-- CSTOP_WAIT_END: the target reaches its boundary and stops, completing the CSTOP (R120). -/
def execCstopWaitEnd (s : State) : Out :=
  match s.me.wait with
  | .cstop t =>
    let s1 := s.stopSoon (s.slotKey t)
    match (s1.ctx (s.slotKey t)).slot with
    | .running => .next s1
    | _ => complete s1 (s1.writeRd (s.me.uword.extractLsb' 21 5) (Reg.clean 0#64))
  | _ => .next s

/-- The stop record of a STOPPED context (R122). -/
def Ctx.record (c : Ctx) (why : StopReason) : Reg :=
  { val := BitVec.ofNat 64 (why.num + 256 * (c.stopCause why).toNat + 2 ^ 32 * (c.exitWord why).toNat)
    psn := match why with
      | .exited => c.exitv.psn
      | _ => none }

/-- Reaping a slot (R123): its endpoints close, its partition becomes unowned, its registers are gone, and with them its completion list, which its jobs no longer reach (R330). -/
def State.reap (s : State) (c : Nat) : State :=
  let s := (s.heldBy c).foldl (fun s x => s.closeEp x.1 x.2) s
  let s := s.updPartOf c fun p => { p with owner := none }
  let s := s.updTile (tileOf c) fun t => { t with eng := { t.eng with pq := t.eng.pq.map fun j =>
    if j.ctx = c then { j with desc := { j.desc with irq := false } } else j } }
  { s with ctxs := s.ctxs.erase c }

/-- CREAP of a slot that is not RUNNING (R122). -/
def reapDone (rd : XReg) (slot : Nat) (s : State) : Out :=
  let t := s.slotKey slot
  match (s.ctx t).slot with
  | .stopped why => complete s ((s.reap t).writeRd rd ((s.ctx t).record why))
  | .running => complete s (s.writeRd rd (Reg.clean 0#64))
  | .free => complete s (s.writeRd rd (Reg.clean 0xFF#64))

/-- CREAP (R122): slot 0 only. -/
def execCreap (rd rs1 : XReg) (s : State) : Out :=
  let v := s.x rs1
  if slotOf s.cur ≠ 0 then privViolation s
  else needClean [v] s fun _ =>
    if slotArg v.val = 0 then complete s (s.writeRd rd (Reg.clean 0xFE#64))
    else if v.val.getLsbD 8 && (s.ctx (s.slotKey (slotArg v.val))).slot == .running then waitOn (.creap (slotArg v.val)) s
    else reapDone rd (slotArg v.val) s

/-- CREAP_WAIT_END: the awaited slot has stopped, and CREAP returns its record and frees it (R122). -/
def execCreapWaitEnd (s : State) : Out :=
  match s.me.wait with
  | .creap t => if (s.ctx (s.slotKey t)).slot = .running then .next s else reapDone (s.me.uword.extractLsb' 21 5) t s
  | _ => .next s

/-- CSELF (R121): drains, then stops with its exit value, poison and all. -/
def execCself (rs1 : XReg) (s : State) : Out :=
  let v := s.x rs1
  drainThen s fun _ => .next ((s.updMe fun c => { c with exitv := v }).stopCtx s.cur .exited)

/-- The slot that FORKL starts: the lowest FREE one that FORKMASK allows (R125). -/
def State.forkSlot (s : State) : Option Nat :=
  (List.range 16).find? fun i => 1 ≤ i && s.myCore.forkmask.getLsbD i && (s.ctx (s.slotKey i)).slot == .free

/-- The two halves of a partition (R125, R362). -/
def Core.fork (k : Core) (p : Part) (slot : Nat) : Core :=
  let h := p.pairs / 2
  let lo := k.freshPart p.base h p.owner p
  let hi := k.freshPart (p.base + h) h (some slot) { p with vporig := 0#64, str0 := {}, str1 := {}, clRange := false }
  { k with parts := (k.parts.filter fun q => q.base != p.base) ++ [lo, hi] }

/-- FORKL (R125). -/
def execForkl (rd rs1 : XReg) (s : State) : Out :=
  let pc := s.x rs1
  let status := fun (n : Nat) => completeIn 32 s (s.writeRd rd (Reg.clean (BitVec.ofNat 64 (2 ^ 64 - n))))
  needClean [pc] s fun _ => drainThen s fun _ =>
    match s.myPart with
    | none => status 3
    | some p =>
      if p.pairs = 1 then status 2
      else if !goodEntry pc.val then status 4
      else match s.forkSlot with
        | none => status 1
        | some t =>
          completeIn 32 s (((s.startCtx t pc.val s.me.priv).updMyCore fun k => k.fork p t).writeRd rd (Reg.clean (BitVec.ofNat 64 t)))

/-- The buddy of a partition, when that region is one partition (R124). -/
def Core.buddy (k : Core) (p : Part) : Option Part := k.parts.find? fun q => q.pairs == p.pairs && q.base == p.base ^^^ p.pairs

/-- The merged partition under the continuing context's registers (R126, R362). -/
def Core.merge (k : Core) (p q : Part) (owner : Option Nat) : Core :=
  let m := k.freshPart (min p.base q.base) (2 * p.pairs) owner { p with vporig := if p.vporig = 0#64 then q.vporig else p.vporig }
  { k with parts := (k.parts.filter fun x => x.base != p.base && x.base != q.base) ++ [m] }

/-- A waiting JOINL of another context completes as the lower half of a meeting (R126). -/
def State.joinOther (s : State) (c slot : Nat) : State :=
  let now := s.now
  s.updCtx c fun x => (x.setX (x.uword.extractLsb' 21 5) (Reg.clean (BitVec.ofNat 64 slot))).advance (now + 32)

/-- A meeting (R126): the owner of the lower base goes on with both halves, the other loses its stream endpoints (R208) and stops with reason JOINED. -/
def joinMeet (rd : XReg) (p q : Part) (other : Nat) (s : State) : Out :=
  let me := slotOf s.cur
  let ok := s.slotKey other
  if p.base < q.base then
    let s1 := (s.dropStreams ok q).updMyCore fun k => k.merge p q (some me)
    completeIn 32 s (((s1.haltCtx ok .joined).slotStopped ok .joined).writeRd rd (Reg.clean (BitVec.ofNat 64 other)))
  else
    let s1 := (s.dropStreams s.cur p).updMyCore fun k => k.merge q p (some other)
    .next (((s1.joinOther ok me).haltCtx s.cur .joined).slotStopped s.cur .joined)

/-- A takeover (R126): the caller owns both halves, and a former owner that is STOPPED loses its stream endpoints with its partition (R208). -/
def joinTake (rd : XReg) (p q : Part) (s : State) : Out :=
  let n := match q.owner with
    | some o => 16 + o
    | none => 32
  let was := s
  let s := match q.owner with
    | some o => s.dropStreams (s.slotKey o) q
    | none => s
  completeIn 32 was ((s.updMyCore fun k => k.merge p q (some (slotOf s.cur))).writeRd rd (Reg.clean (BitVec.ofNat 64 n)))

/-- What a JOINL finds at its buddy region once it has drained (R126). -/
def joinWith (rd : XReg) (p : Part) (s : State) (wait : Out) : Out :=
  match s.myCore.buddy p with
  | none => wait
  | some q =>
    match q.owner with
    | none => joinTake rd p q s
    | some o =>
      let x := s.ctx (s.slotKey o)
      match x.slot with
      | .running => if x.wait = .joinl then joinMeet rd p q o s else wait
      | _ => joinTake rd p q s

/-- JOINL (R126). -/
def execJoinl (rd : XReg) (s : State) : Out :=
  match s.myPart with
  | none => complete s (s.writeRd rd (Reg.clean (-1#64)))
  | some p =>
    if p.pairs = modePairs s.myCore.vmode then complete s (s.writeRd rd (Reg.clean (-1#64)))
    else drainThen s fun _ =>
      if s.atLastPc then raise .accessFault pastPc s else joinWith rd p s (waitOn .joinl s)

/-- JOINL_TAKEOVER: a waiting JOINL takes over a buddy region whose owner has stopped, or that is unowned (R126). -/
def execJoinlTakeover (s : State) : Out :=
  match s.me.wait, s.myPart with
  | .joinl, some p => joinWith (s.me.uword.extractLsb' 21 5) p s (.next s)
  | _, _ => .next s

/-- MOVH (R116). -/
def execMovh (hd : Sys2Proof.HReg) (rs1 : XReg) (s : State) : Out :=
  let v := s.x rs1
  complete s (s.updMyCore fun k => k.setHreg hd ((k.hreg hd).write s.now v))

/-- MOVFH (R116). -/
def execMovfh (rd : XReg) (hs : Sys2Proof.HReg) (s : State) : Out :=
  complete s (s.writeRd rd ((s.myCore.hreg hs).seen s.now))

end Sys2Proof.Machine
end

