-- ==== Sys2Proof/Machine/Waits.lean ====
section
/-! DEFINITION. Sys2Proof/Machine/Waits.lean: FENCE.Q (R94) and the ends of the waits on fences, drains and stream registers (R109, R129, R195, R196). -/

namespace Sys2Proof.Machine

/-- The vector entries that a context placed and that have not performed. -/
def State.vecStamps (s : State) (c : Nat) : List Nat := ((s.queueOf c).filter fun q => q.by_ == c).map fun q => q.stamp

/-- The engines of the tile of a context. -/
def State.engOf (s : State) (c : Nat) : Engines := (s.tile (tileOf c)).eng

def State.matStamps (s : State) (c : Nat) : List Nat := ((s.engOf c).mq.filter fun j => j.ctx == c).map fun j => j.stamp
def State.portStamps (s : State) (c : Nat) : List Nat := ((s.engOf c).pq.filter fun j => j.ctx == c).map fun j => j.stamp
def State.cellStamps (s : State) (c : Nat) : List Nat := ((s.engOf c).cq.filter fun j => j.ctx == c).map fun j => j.stamp

/-- What a context has placed in the queues that a mask names and that has not left them (R94): bit 1 VEC, 2 MAT, 3 PORT, 4 CELL. -/
def State.queued (s : State) (m : BitVec 5) : List Nat :=
  (if m.getLsbD 1 then s.vecStamps s.cur else []) ++ (if m.getLsbD 2 then s.matStamps s.cur else [])
    ++ (if m.getLsbD 3 then s.portStamps s.cur else []) ++ (if m.getLsbD 4 then s.cellStamps s.cur else [])

/-- The vector stores of a context that have left their queue and have not performed at TILE. -/
def State.heldStamps (s : State) (c : Nat) : List Nat :=
  (((s.core (coreOf c)).buf.filter fun w => w.by_ == c && !w.lanes.isEmpty).map fun w => w.stamp).dedup

/-- Whether a mask names an engine queue. -/
def namesEngine (m : BitVec 5) : Bool := m.getLsbD 2 || m.getLsbD 3 || m.getLsbD 4

/-- What the joins of a FENCE.Q without OWN name (R94): what is queued, and under VEC the vector stores that are not at TILE yet. -/
def State.named (s : State) (m : BitVec 5) : List Nat := s.queued m ++ (if m.getLsbD 1 then s.heldStamps s.cur else [])

/-- The markers that a FENCE.Q without OWN leaves in the named queues (R94): each entry named with the scope of the join, which is at least TILE where an engine is on either side; at SYSTEM scope one more, n, stands for the vector stores that are at TILE already. Joins that were made before give way. -/
def Ctx.mark (c : Ctx) (m : BitVec 5) (after live : List Nat) (n scope : Nat) : Ctx :=
  let add := fun (on : Bool) (old : List (Nat × Nat)) (sc : Nat) =>
    if on then
      old.filter (fun a => live.contains a.1 || a.2 == 3) ++ after.map (fun a => (a, sc))
        ++ (if scope = 3 ∧ m.getLsbD 1 then [(n, 3)] else [])
    else old
  { c with
    depVec := add (m.getLsbD 1) c.depVec scope
    depMat := add (m.getLsbD 2) c.depMat (max 2 scope)
    depPort := add (m.getLsbD 3) c.depPort (max 2 scope)
    depCell := add (m.getLsbD 4) c.depCell (max 2 scope) }

/-- Whether a FENCE.Q that names OWN has nothing more to wait for (R93, R94). -/
def State.fenceQDone (s : State) (m : BitVec 5) (scope : BitVec 2) : Bool :=
  if namesEngine m then (s.queued m).isEmpty
  else scope == 0#2 || !m.getLsbD 1 || s.vectorAccessesDone s.cur

/-- FENCE.Q (R94). -/
def execFenceQ (m : BitVec 5) (scope : BitVec 2) (s : State) : Out :=
  if m.getLsbD 0 then
    if s.fenceQDone m scope then complete s (s.performAt (if namesEngine m then max 2 scope.toNat else scope.toNat))
    else waitOn .fence s
  else complete s (s.tick.updMe fun c => c.mark m (s.named m) (s.named 0b11110#5) s.fresh scope.toNat)

/-- Whether the fence, the release or the arrival that waits has nothing more to wait for. -/
def State.fenceOver (s : State) : Bool :=
  let w := s.me.uword
  if w.extractLsb' 26 6 == 0x1D#6 && w.extractLsb' 8 3 == 1#3 then s.fenceQDone (w.extractLsb' 2 5) (w.extractLsb' 0 2)
  else s.vectorAccessesDone s.cur

/-- FENCE_WAIT_END: the earlier accesses have performed, so the waiting fence, release or arrival performs (R93, R87, R286). -/
def execFenceWaitEnd (s : State) : Out :=
  if (s.me.wait = .fence || s.me.wait = .release) && s.fenceOver then resume s else .next s

/-- The cause that a failed element left behind (R196). -/
def faultCause (code : BitVec 8) : Cause :=
  match code.toNat with
  | 3 => .misaligned
  | 4 => .pageFaultLoad
  | 5 => .pageFaultStore
  | 0x10 => .poison
  | _ => .accessFault

/-- DRAIN_END: the vector queue has drained. A draining instruction runs (R129); elements before a failed one have completed, and its trap is taken (R196); a context that stops has finished its queue (R111). -/
def execDrainEnd (s : State) : Out :=
  if !s.drained then .next s
  else match s.me.wait with
    | .drain => resume s
    | .vfault cause va f => .next (s.vectorTrap (faultCause cause) va f)
    | .stopping why => .next ((s.haltCtx s.cur why).slotStopped s.cur why)
    | _ => .next s

/-- STREAM_INDEX_WAIT_END: the stream register is full, or its channel closed, and the scalar phase goes on in this i-cycle (R195, R213). -/
def execStreamIndexWaitEnd (s : State) : Out :=
  match s.me.wait, s.myPart with
  | .streamIndex w, some p => if (p.stream w).full || (p.stream w).closed then resume s else .next s
  | _, _ => .next s

end Sys2Proof.Machine
end

