-- ==== Sys2Proof/Machine/Matrix.lean ====
section
/-! DEFINITION. Sys2Proof/Machine/Matrix.lean: the scalar phase of the matrix instructions of major 0x30 (R294 to R318) and MWAIT (R302). -/

namespace Sys2Proof.Machine

/-- Kslot of a format code (R294, R314). -/
def kslot (fmt : BitVec 2) : Nat := if fmt = 0#2 then 128 else if fmt = 3#2 then 512 else 256

/-- Element width in bits of a format code. -/
def matWidth (fmt : BitVec 2) : Nat := if fmt = 0#2 then 16 else if fmt = 3#2 then 4 else 8

/-- k-steps per a-cycle of a format code: R of R294. -/
def matRate (fmt : BitVec 2) : Nat := if fmt = 0#2 then 1 else if fmt = 3#2 then 4 else 2

/-- Format class of a format code: E4M3 and E5M2 are one (R311). -/
def matClass (fmt : BitVec 2) : Nat := if fmt = 0#2 then 0 else if fmt = 3#2 then 2 else 1

/-- The fields of a header (R314). -/
def hdrFmt (h : Word) : BitVec 2 := h.extractLsb' 0 2
def hdrN (h : Word) : Nat := bitsNat h 4 5
def hdrMsel (h : Word) : Nat := bitsNat h 9 2
def hdrM (h : Word) : Nat := 4 * 2 ^ hdrMsel h
def hdrCol (h : Word) : Bool := h.getLsbD 11
def hdrTrans (h : Word) : Bool := h.getLsbD 12
def hdrCount (h : Word) : Nat := bitsNat h 16 16
def hdrKlen (h : Word) : Nat := bitsNat h 32 16

/-- A header with its counts. -/
def hdrWith (h : Word) (klen count : Nat) : Word := (h &&& 0xFFFF#64) ||| BitVec.ofNat 64 (2 ^ 32 * klen + 65536 * count)

/-- A header read from memory with KLEN and COUNT resolved (R314). -/
def hdrResolve (h : Word) : Word :=
  let f := hdrFmt h
  let m := hdrM h
  let cap := min (kslot f * m / hdrN h) (4 * kslot f)
  let unit := if f = 3#2 then Nat.lcm m 32 else m
  let klen := if hdrKlen h = 0 then cap / unit * unit else hdrKlen h
  hdrWith h klen (if hdrCount h = 0 then klen * hdrN h / m else hdrCount h)

/-- The first of R316 reasons 0x01 to 0x07 that fails, for the header block of an MLDA of a format. -/
def hdrReason (block : List Byte) (h : Word) (fmt : BitVec 2) : Option Nat :=
  let r := hdrResolve h
  if bitsNat h 0 4 != fmt.toNat then some 1
  else if hdrMsel h = 3 then some 2
  else if hdrN h = 0 || hdrM h < hdrN h then some 3
  else if hdrKlen r % hdrM h != 0 || (fmt == 3#2 && hdrKlen r % 32 != 0) || 4 * kslot fmt < hdrKlen r then some 4
  else if hdrCount r != hdrKlen r * hdrN h / hdrM h || kslot fmt < hdrCount r then some 5
  else if hdrCol h && (!hdrTrans h || hdrKlen r != 128 || fmt == 3#2) then some 6
  else if h.getLsbD 13 || bitsNat h 14 2 != 0 || bitsNat h 48 16 != 0 || (block.drop 8).any fun b => b != 0#8 then some 7
  else none

/-- TRAPVAL of MATRIX_DETACHED, SLOT_STATE and SPARSE_HEADER (R298). -/
def matTrapval (w : Insn) (hi mid lo : Nat) : Word := BitVec.ofNat 64 (w.toNat * 2 ^ 32 + hi * 65536 + mid * 256 + lo)

/-- SLOT_STATE for a slot (R298). -/
def slotState (slot reason : Nat) (s : State) : Out := raise .slotState (matTrapval s.iw 0 slot reason) s

/-- SPARSE_HEADER (R316). -/
def sparseHeader (row group reason : Nat) (s : State) : Out := raise .sparseHeader (matTrapval s.iw group row reason) s

/-- The number of an attach state (R295). -/
def Attach.num : Attach → Nat
  | .detached => 0
  | .attached => 1
  | .detaching => 2

/-- Steps 1 and 2 of R298 after the gate of R371: registers clean, and the core attached. -/
def matrix (rs : List Reg) (s : State) (k : Unit → Out) : Out :=
  if s.myTile.mat then gatedLayer 2 s
  else needClean rs s fun _ =>
    if s.myCore.mstate = .attached then k () else raise .matrixDetached (matTrapval s.iw 0 0 s.myCore.mstate.num) s

/-- An operand slot of a tile. -/
def Engines.slot (g : Engines) (n : Nat) : OpSlot := g.slots.get n {}

/-- Change an operand slot of the tile that issues. -/
def State.updSlot (s : State) (n : Nat) (f : OpSlot → OpSlot) : State :=
  s.updTile (tileOf s.cur) fun t => { t with eng := { t.eng with slots := t.eng.slots.set n (f (t.eng.slot n)) } }

/-- An operand slot of the tile that issues. -/
def State.slot (s : State) (n : Nat) : OpSlot := s.myTile.eng.slot n

/-- Reasons 0x01 and 0x02 of a slot (R298). -/
def State.slotReason (s : State) (n : Nat) (read : Bool) : Option Nat :=
  if (s.slot n).claim ≠ .claimed s.k then some 1 else if read && (s.slot n).contents == .empty then some 2 else none

/-- Whether the matrix queue has no room for the core that issues (R299). -/
def State.matrixFull (s : State) : Bool :=
  let q := s.myTile.eng.mq
  decide (64 ≤ q.length) || decide (16 ≤ (q.filter fun j => j.core == s.k).length)

/-- Whether the core's job identifiers are exhausted (R299). -/
def State.matrixSpent (s : State) : Bool := decide (2 ^ 64 - 1 ≤ s.myCore.mjob)

/-- Enqueue a matrix job of the core that issues (R299). -/
def State.enqueueM (s : State) (op : MOpk) (lat : Nat) : State :=
  let id := s.myCore.mjob + 1
  let c := s.me
  let j : MJob := { core := s.k, id := id, ctx := s.cur, op := op, stamp := s.fresh, lat := lat, after := c.depMat }
  ((s.tick.updMyCore fun k => { k with mjob := id }).updTile (tileOf s.cur) fun t =>
    { t with eng := { t.eng with mq := t.eng.mq ++ [j] } }).updMe fun c => { c with mjoblast := BitVec.ofNat 64 id }

/-- Enqueue a job and go on, with a change of state that stands from the scalar phase on; a full queue is waited for (R299), and the checks of the slot table are then made in the i-cycle in which an entry frees (R305, log entry 71). -/
def queueM (op : MOpk) (lat : Nat) (f : State → State) (s s1 : State) : Out :=
  if s.matrixFull then waitOn (.queueFree .again) s1 else complete s (f (s1.enqueueM op lat))

/-- MATTACH (R303): it waits, without interruption, until its job has performed. -/
def execMattach (rd rs1 : XReg) (s : State) : Out :=
  let q := s.x rs1
  if s.myTile.mat then gatedLayer 2 s
  else needClean [q] s fun _ =>
    let n := q.val.toNat
    if n % 16 != 0 || n < 16 || 128 < n then completeIn 32 s (s.writeRd rd (Reg.clean (-5#64)))
    else if s.myCore.mstate = .attached then completeIn 32 s (s.writeRd rd (Reg.clean (-1#64)))
    else if s.matrixSpent then slotState 0xFF 7 s
    else if s.matrixFull then waitOn (.queueFree .again) s
    else if s.atLastPc then raise .accessFault pastPc s
    else .next ((s.enqueueM (.attach n) 0).updMe fun c => { c with wait := .job, uword := s.iw })

/-- MDETACH (R304). -/
def execMdetach (s : State) : Out :=
  if s.myTile.mat then gatedLayer 2 s
  else if s.myCore.mstate ≠ .attached then complete s s
  else if s.matrixSpent then slotState 0xFF 7 s
  else queueM .detach 0 (fun s => s.updMyCore fun k => { k with mstate := .detaching }) s s

/-- A slot becomes CLAIMED by the core, and EMPTY (R306). -/
def State.claimSlot (s : State) (n : Nat) : State := s.updSlot n fun _ => { claim := .claimed s.k }

/-- MCLAIM (R306). -/
def execMclaim (rd rs1 : XReg) (s : State) : Out :=
  let c := s.x rs1
  let done := fun (s1 : State) (v : Word) => completeIn 32 s (s1.writeRd rd (Reg.clean v))
  matrix [c] s fun _ =>
    let n := bitsNat c.val 0 5
    if n < 16 then
      match (s.slot n).claim with
      | .free => done (s.claimSlot n) (BitVec.ofNat 64 n)
      | .claimed k => done s (if k = s.k then -2#64 else -1#64)
      | .releasing _ => done s (-1#64)
    else if n = 16 then
      match (List.range 16).find? fun i => (s.slot i).claim == .free with
      | some i => done (s.claimSlot i) (BitVec.ofNat 64 i)
      | none => done s (-1#64)
    else done s (-5#64)

/-- MRELEASE (R306). -/
def execMrelease (os : Slot) (s : State) : Out :=
  matrix [] s fun _ =>
    match s.slotReason os.toNat false with
    | some r => slotState os.toNat r s
    | none =>
      if s.matrixSpent then slotState os.toNat 7 s
      else queueM (.release os.toNat) 0 (fun s => s.updSlot os.toNat fun o => { o with claim := .releasing s.k }) s s

/-- The 64-byte pieces of a run of bytes that starts at a multiple of 64. -/
def pieces (a : Word) (n : Nat) : List Word := (List.range ((n + 63) / 64)).map fun i => a + BitVec.ofNat 64 (64 * i)

/-- The pieces of rows that lie a stride apart. -/
def rowPieces (a stride : Word) (rows bytes : Nat) : List Word :=
  (List.range rows).flatMap fun i => pieces (a + BitVec.ofNat 64 i * stride) bytes

/-- Frames by virtual page, and the failure at the lowest address, if any. -/
structure Walked where
  fr   : Frames := []
  fail : Option VFault := none

/-- Keep the failure at the lower address (R308). -/
def Walked.note (w : Walked) (f : VFault) : Walked :=
  match w.fail with
  | some g => if f.va.toNat < g.va.toNat then { w with fail := some f } else w
  | none => { w with fail := some f }

/-- Check and translate the pieces of one part of an image (R308 step 3). -/
def State.walkPart (s : State) (kind : AccKind) (as : List Word) (w : Walked) : State × Walked :=
  as.foldl (fun x a =>
    match x.1.checkElem kind 1 a with
    | (s1, .inl pa) =>
      let pg := a.toNat / 65536
      (s1, if x.2.fr.any fun f => f.page == pg then x.2
        else { x.2 with fr := { page := pg, pa := pa / 65536 * 65536, big := s1.bigPage (coreOf s1.cur) a } :: x.2.fr })
    | (s1, .inr f) => (s1, x.2.note f)) (s, w)

/-- Check and translate parts in order; the first part that fails decides (R308 step 3). -/
def State.walkParts (s : State) (kind : AccKind) : List (List Word) → Walked → State × Walked
  | [], w => (s, w)
  | p :: ps, w =>
    match s.walkPart kind p w with
    | (s1, w1) => if w1.fail.isSome then (s1, w1) else State.walkParts s1 kind ps w1

/-- The trap of a failed part. -/
def partFault (f : VFault) (s : State) : Out := .next ((s.updMe fun c => c.noteXl f.xl).takeTrap f.cause f.va)

/-- The physical address of a virtual one under a job's frames (R308). -/
def frameAddr (fr : Frames) (va : Word) : Nat :=
  match fr.find? fun f => f.page == va.toNat / 65536 with
  | some f => f.pa + va.toNat % 65536
  | none => va.toNat % 65536

/-- Bytes at a virtual address as the caller's core reads them, through frames, and which are poisoned (R308 steps 2 and 4). -/
def State.readVa (s : State) (fr : Frames) (a : Word) (n : Nat) : State × List (Byte × Bool) :=
  let as := (List.range n).map fun i => frameAddr fr (a + BitVec.ofNat 64 i)
  let s := s.touchScalar s.k as
  let m := s.coreMem s.k
  (s, as.map fun p => (m.byte p, m.marked p))

/-- Whether queued vector accesses of the context touch a line of a run of bytes (R198). -/
def State.conflictVa (s : State) (fr : Frames) (as : List Word) : Bool := as.any fun a => s.vectorConflict (frameAddr fr a) 64

/-- Step 1 of R308: base and stride are multiples of 64. -/
def aligned64 (base stride : Word) (s : State) (k : Unit → Out) : Out :=
  if base.toNat % 64 != 0 then raise .misaligned base s
  else if stride.toNat % 64 != 0 then raise .misaligned (base + stride) s
  else k ()

/-- The parts of a dense image (R307). -/
def denseParts (isA : Bool) (fmt : BitVec 2) (base stride : Word) : List (List Word) :=
  let rows := if isA then 128 else kslot fmt
  let main := rowPieces base stride rows (if isA then 256 else 16 * matWidth fmt)
  let scales := pieces (base + BitVec.ofNat 64 rows * stride) 2048
  if fmt = 3#2 then [main, scales] else [main]

/-- The index nibbles of a sparse image by row (R307). -/
def indexRows (bs : List Byte) (count : Nat) : List (List Nat) :=
  (List.range 128).map fun m => (List.range count).map fun j =>
    let n := m * count + j
    (bs.getD (n / 2) 0#8).toNat / 16 ^ (n % 2) % 16

/-- The indices of a group of a row. -/
def groupOf (row : List Nat) (n g : Nat) : List Nat := (row.drop (g * n)).take n

/-- The first of R316 reasons 0x08 to 0x0A that fails, at its lowest row and group: reason, row, group. -/
def indexReason (h : Word) (idx : List (List Nat)) : Option (Nat × Nat × Nat) :=
  let n := hdrN h
  let m := hdrM h
  let groups := hdrKlen h / m
  let cells := (List.range 128).flatMap fun r => (List.range groups).map fun g => (r, g)
  let grp := fun (r g : Nat) => groupOf (idx.getD r []) n g
  match cells.find? fun x => (grp x.1 x.2).any fun i => m ≤ i with
  | some x => some (8, x.1, x.2)
  | none =>
    match cells.find? fun x => (grp x.1 x.2).dedup.length != (grp x.1 x.2).length with
    | some x => some (9, x.1, x.2)
    | none =>
      if hdrTrans h then
        match cells.find? fun x => x.1 % m == 0 && (List.range m).any fun c =>
            ((List.range m).filter fun i => (grp (x.1 + i) x.2).contains c).length != n with
        | some x => some (10, x.1, x.2)
        | none => none
      else none

/-- A dense MLDA or MLDB once its slot is right (R308). -/
def loadDense (slot : Nat) (isA : Bool) (fmt : BitVec 2) (base stride : Word) (s : State) : Out :=
  match s.walkParts .load (denseParts isA fmt base stride) {} with
  | (s1, { fail := some f, .. }) => partFault f s1
  | (s1, w) =>
    queueM (.load slot isA fmt none base stride w.fr) 0
      (fun s => s.updSlot slot fun o => { o with contents := if isA then .denseA fmt else .denseB fmt }) s s1

/-- The parts of a sparse image after its header: values, indices, scales (R307). -/
def sparseParts (fmt : BitVec 2) (base stride : Word) (klen count : Nat) : List (List Word) :=
  let body := base + 64#64
  let ix := body + 128#64 * stride
  let main := [rowPieces body stride 128 (count * matWidth fmt / 8), pieces ix (64 * count)]
  if fmt = 3#2 then main ++ [pieces (ix + BitVec.ofNat 64 (64 * count)) (4 * klen)] else main

/-- The rest of a sparse MLDA once its header is accepted: steps 3 and 4 of R308. -/
def loadSparse (slot : Nat) (fmt : BitVec 2) (base stride h : Word) (fr : Frames) (s s1 : State) : Out :=
  match s1.walkParts .load (sparseParts fmt base stride (hdrKlen h) (hdrCount h)) { fr := fr } with
  | (s2, { fail := some f, .. }) => partFault f s2
  | (s2, w) =>
    let ix := base + 64#64 + 128#64 * stride
    if s2.conflictVa w.fr (pieces ix (64 * hdrCount h)) then waitOn .vectorOrder s2
    else
      match s2.readVa w.fr ix (64 * hdrCount h) with
      | (s3, bs) =>
        match (bs.zipIdx).find? fun b => b.1.2 with
        | some b => raise .poison (ix + BitVec.ofNat 64 b.2) s3
        | none =>
          let idx := indexRows (bs.map fun b => b.1) (hdrCount h)
          match indexReason h idx with
          | some (r, row, g) => sparseHeader row g r s3
          | none =>
            queueM (.load slot true fmt (some (h, idx)) base stride w.fr) 0
              (fun s => s.updSlot slot fun o => { o with contents := .sparseA h }) s s3

/-- A sparse MLDA: the header block is checked, translated and read (R308 step 2). -/
def loadHeader (slot : Nat) (fmt : BitVec 2) (base stride : Word) (s : State) : Out :=
  match s.walkPart .load [base] {} with
  | (s1, { fail := some f, .. }) => partFault f s1
  | (s1, w) =>
    if s1.conflictVa w.fr [base] then waitOn .vectorOrder s1
    else
      match s1.readVa w.fr base 64 with
      | (s2, bs) =>
        if bs.any fun b => b.2 then raise .poison base s2
        else
          let block := bs.map fun b => b.1
          let h := BitVec.ofNat 64 (leNat (block.take 8))
          match hdrReason block h fmt with
          | some r => sparseHeader 0 0 r s2
          | none => loadSparse slot fmt base stride (hdrResolve h) w.fr s s2

/-- The slot of a load is the core's own (R298 step 3, R308). -/
def loadSlot (slot : Nat) (base stride : Reg) (s : State) (k : Unit → Out) : Out :=
  matrix [base, stride] s fun _ =>
    match s.slotReason slot false with
    | some r => slotState slot r s
    | none => if s.matrixSpent then slotState slot 7 s else aligned64 base.val stride.val s k

/-- MLDA (R307, R308). -/
def execMlda (os : Slot) (base rs : XReg) (sp : BitVec 1) (fmt : BitVec 2) (s : State) : Out :=
  loadSlot os.toNat (s.x base) (s.x rs) s fun _ =>
    if sp == 1#1 then loadHeader os.toNat fmt (s.x base).val (s.x rs).val s
    else loadDense os.toNat true fmt (s.x base).val (s.x rs).val s

/-- MLDB (R307, R308). -/
def execMldb (os : Slot) (base rs : XReg) (fmt : BitVec 2) (s : State) : Out :=
  loadSlot os.toNat (s.x base) (s.x rs) s fun _ => loadDense os.toNat false fmt (s.x base).val (s.x rs).val s

/-- MZERO (R309). -/
def execMzero (t : BitVec 2) (s : State) : Out :=
  matrix [] s fun _ =>
    if s.matrixSpent then slotState 0xFF 7 s else queueM (.zero t.toNat s.myCore.mrows) 0 id s s

/-- MTLD and MTST: alignment, then every row is translated (R309). -/
def tileMove (kind : AccKind) (bytes : Nat) (base stride : Reg) (op : Frames → MOpk) (s : State) : Out :=
  matrix [base, stride] s fun _ =>
    if s.matrixSpent then slotState 0xFF 7 s
    else aligned64 base.val stride.val s fun _ =>
      match s.walkPart kind (rowPieces base.val stride.val s.myCore.mrows bytes) {} with
      | (s1, { fail := some f, .. }) => partFault f s1
      | (s1, w) => queueM (op w.fr) 0 id s s1

/-- MTLD (R309). -/
def execMtld (t : BitVec 2) (base rs : XReg) (s : State) : Out :=
  tileMove .load 512 (s.x base) (s.x rs) (fun fr => .tld t.toNat s.myCore.mrows (s.x base).val (s.x rs).val fr) s

/-- MTST (R309). -/
def execMtst (t : BitVec 2) (base rs : XReg) (h : BitVec 1) (s : State) : Out :=
  tileMove .store (if h == 1#1 then 256 else 512) (s.x base) (s.x rs)
    (fun fr => .tst t.toNat s.myCore.mrows (s.x base).val (s.x rs).val (h == 1#1) fr) s

/-- The format of a slot's contents, for its class. -/
def Contents.fmt : Contents → BitVec 2
  | .empty => 0#2
  | .denseA f => f
  | .sparseA h => hdrFmt h
  | .denseB f => f

/-- Whether contents are a left-hand operand. -/
def Contents.isA : Contents → Bool
  | .denseA _ => true
  | .sparseA _ => true
  | _ => false

/-- Whether contents are a right-hand operand. -/
def Contents.isB : Contents → Bool
  | .denseB _ => true
  | _ => false

/-- The header of sparse contents. -/
def Contents.header : Contents → Option Word
  | .sparseA h => some h
  | _ => none

/-- Reasons 0x01 to 0x03 of a slot in a role (R311). -/
def State.roleReason (s : State) (n : Nat) (role : Contents → Bool) : Option Nat :=
  match s.slotReason n true with
  | some r => some r
  | none => if role (s.slot n).contents then none else some 3

/-- The first slot of a run whose role fails (R311 step 3). -/
def State.runReason (s : State) : List Nat → Option (Nat × Nat)
  | [] => none
  | n :: ns => match s.roleReason n Contents.isB with
    | some r => some (n, r)
    | none => State.runReason s ns

/-- MOP (R311, R313). -/
def execMop (t : BitVec 2) (osa osb : Slot) (rs : XReg) (z : BitVec 1) (s : State) : Out :=
  let c := s.x rs
  matrix [c] s fun _ =>
    match s.roleReason osa.toNat Contents.isA with
    | some r => slotState osa.toNat r s
    | none =>
      let a := (s.slot osa.toNat).contents
      let ks := kslot a.fmt
      let nb := match a.header with
        | some h => (hdrKlen h + ks - 1) / ks
        | none => 1
      if 16 < osb.toNat + nb then slotState 0xFF 6 s
      else
        let bs := (List.range nb).map fun i => osb.toNat + i
        match s.runReason bs with
        | some (n, r) => slotState n r s
        | none =>
          match bs.find? fun n => matClass (s.slot n).contents.fmt != matClass a.fmt with
          | some n => slotState n 4 s
          | none =>
            let rows := bitsNat c.val 0 8
            let cols := bitsNat c.val 8 8
            let kl := bitsNat c.val 16 12
            if s.myCore.mrows < rows || 128 < cols || (match a.header with
              | some _ => kl != 0
              | none => decide (ks < kl)) then slotState 0xFF 5 s
            else if s.matrixSpent then slotState 0xFF 7 s
            else
              let klen := match a.header with
                | some h => hdrKlen h
                | none => if kl = 0 then ks else kl
              let count := match a.header with
                | some h => hdrCount h
                | none => klen
              let lat := if rows = 0 ∨ cols = 0 then 1 else (count + matRate a.fmt - 1) / matRate a.fmt
              queueM (.mop t.toNat osa.toNat osb.toNat rows cols klen (z == 1#1) 0) lat id s s

/-- The VCONFIG reasons of MTMV and MVTM, and an odd register under SEW 32 (R310). -/
def sliceReasons (v : VReg) (p : Part) : List (Nat × Bool) :=
  [(5, !((vtSew p.vtype == 5 && vtFmt p.vtype == 4) || (vtSew p.vtype == 4 && (vtFmt p.vtype == 2 || vtFmt p.vtype == 3)))),
   (6, vtSew p.vtype == 5 && v.toNat % 2 == 1)]

/-- A tile-slice move: VCONFIG before SLOT_STATE (R298, R310). -/
def sliceMove (v : VReg) (slice : Reg) (op : Nat → VOp) (s : State) : Out :=
  matrix [slice] s fun _ =>
    vguard (sliceReasons v) s fun p =>
      let w := bitsNat slice.val 16 8
      let row0 := bitsNat slice.val 0 8
      if w = 0 || 128 < bitsNat slice.val 8 8 + w || (0 < p.vl && s.myCore.mrows < row0 + (p.vl + w - 1) / w) then slotState 0xFF 5 s
      else queueV (op (bitsNat slice.val 0 24)) [] s

/-- MTMV (R310). -/
def execMtmv (vd : VReg) (t : BitVec 2) (rs : XReg) (mk : VMask) (s : State) : Out := sliceMove vd (s.x rs) (fun sl => .mtmv vd t sl mk) s

/-- MVTM (R310). -/
def execMvtm (t : BitVec 2) (vs : VReg) (rs : XReg) (mk : VMask) (s : State) : Out := sliceMove vs (s.x rs) (fun sl => .mvtm t vs sl mk) s

/-- The header that a dense slot shows (R317). -/
def denseHeader (fmt : BitVec 2) : Word := BitVec.ofNat 64 (2 ^ 32 * kslot fmt + 65536 * kslot fmt + 2 ^ 13 + fmt.toNat)

/-- MHDR (R317). -/
def execMhdr (rd : XReg) (os : Slot) (l : BitVec 1) (s : State) : Out :=
  matrix [] s fun _ =>
    match s.slotReason os.toNat true with
    | some r => slotState os.toNat r s
    | none =>
      let c := (s.slot os.toNat).contents
      let n := match c.header with
        | some h => hdrCount h
        | none => kslot c.fmt
      let v := if l == 1#1 then BitVec.ofNat 64 ((n + matRate c.fmt - 1) / matRate c.fmt) else (c.header).getD (denseHeader c.fmt)
      complete s (s.writeRd rd (Reg.clean v))

/-- The header that MPRUNE gives its destination (R318). -/
def pruneHeader (ctl : Word) (fmt : BitVec 2) : Word :=
  let h := (ctl &&& 0x1FF0#64) ||| fmt.zeroExtend 64
  hdrWith h (kslot fmt) (kslot fmt * hdrN h / hdrM h)

/-- MPRUNE (R318). -/
def execMprune (osd oss : Slot) (rs : XReg) (s : State) : Out :=
  let c := s.x rs
  matrix [c] s fun _ =>
    match s.slotReason osd.toNat true with
    | some r => slotState osd.toNat r s
    | none =>
      match s.slotReason oss.toNat true with
      | some r => slotState oss.toNat r s
      | none =>
        let src := (s.slot oss.toNat).contents
        match src with
        | .denseA fmt =>
          if osd = oss then slotState 0xFF 6 s
          else if s.matrixSpent then slotState 0xFF 7 s
          else
            let h := pruneHeader c.val fmt
            if hdrMsel h = 3 then sparseHeader 0 0 2 s
            else if hdrN h = 0 || hdrM h < hdrN h then sparseHeader 0 0 3 s
            else if hdrCol h && (!hdrTrans h || kslot fmt != 128 || fmt == 3#2) then sparseHeader 0 0 6 s
            else queueM (.prune osd.toNat oss.toNat h) 0 (fun s => s.updSlot osd.toNat fun o => { o with contents := .sparseA h }) s s
        | _ => slotState oss.toNat 3 s

/-- Whether a matrix job of a core has not completed. -/
def State.matrixLive (s : State) (core id : Nat) : Bool := (s.tile (tileOfCore core)).eng.mq.any fun j => j.core == core && j.id == id

/-- MWAIT (R302). -/
def execMwait (rd rs1 : XReg) (s : State) : Out :=
  let j := s.x rs1
  if s.myTile.mat then gatedLayer 2 s
  else needClean [j] s fun _ =>
    if s.myCore.mjob < j.val.toNat then complete s (s.writeRd rd (Reg.clean (-1#64)))
    else if s.matrixLive s.k j.val.toNat then waitOn .job s
    else complete s (s.writeRd rd (Reg.clean 0#64))

end Sys2Proof.Machine
end

