-- ==== Sys2Proof/Machine/MatrixJobs.lean ====
section
/-! DEFINITION. Sys2Proof/Machine/MatrixJobs.lean: the matrix engine of a tile performs the job at the head of its queue (R300, R303 to R309, R312, R318, R319) under its issue governor (R320), and the ends of job waits (R302, R328, R348). -/

namespace Sys2Proof.Machine

/-- Change the engines of a tile. -/
def State.updEng (s : State) (t : Nat) (f : Engines → Engines) : State := s.updTile t fun x => { x with eng := f x.eng }

/-- Whether a tile-slice move that a core enqueued before a stamp has not completed (R300). -/
def State.movesBefore (s : State) (core stamp : Nat) : Bool :=
  (s.core core).parts.any fun p => p.pending.any fun e => decide (e.stamp < stamp) && (match e.op with
    | .mtmv _ _ _ _ => true
    | .mvtm _ _ _ _ => true
    | _ => false)

/-- The job at the head of a tile's matrix queue, when the engine runs and the job waits for nothing (R300, R94). -/
def State.matrixHead (s : State) (t : Nat) : Option MJob :=
  match (s.tile t).eng.mq with
  | [] => none
  | j :: _ => if s.clocked (8 * t) && !s.movesBefore j.core j.stamp && s.joined t j.after then some j else none

/-- A job has performed: it leaves the queue (R299). -/
def State.matrixDone (s : State) (t : Nat) : State := s.updEng t fun g => { g with mq := g.mq.drop 1 }

/-- Run the head of a tile's queue when a function gives it an effect; what FENCE.Q joins it to is seen to first (R94). -/
def runJob (t : Nat) (f : MJob → State → Option State) (s : State) : Out :=
  match s.matrixHead t with
  | none => .next s
  | some j => match f j (s.joinAt t j.ctx j.after) with
    | some s1 => .next s1
    | none => .next s

/-- Drop the accumulator rows of a core: an unlisted row is +0 (R303, R304). -/
def Engines.clearRows (g : Engines) (core : Nat) : Engines :=
  { g with acc := g.acc.filter fun kv => kv.1 / 512 != core % 8 }

/-- Rows held by the other cores of a tile (R303). -/
def State.rowsElsewhere (s : State) (core : Nat) : Nat :=
  ((tileCores (tileOfCore core)).map fun k => if k = core then 0 else (s.core k).mrows).sum

/-- The attach job (R303). -/
def State.attachCore (s : State) (core q : Nat) : State :=
  let g := min q (16 * ((256 - s.rowsElsewhere core) / 16))
  if 16 ≤ g then (s.updCore core fun k => { k with mstate := .attached, mrows := g }).updEng (tileOfCore core) fun e => e.clearRows core
  else s.updCore core fun k => { k with mstate := .detached, mrows := 0 }

/-- ATTACH_JOB (R303). -/
def execAttachJob (t : Nat) (s : State) : Out :=
  runJob t (fun j s => match j.op with
    | .attach q => some ((s.attachCore j.core q).matrixDone t)
    | _ => none) s

/-- Whether a claim is a core's. -/
def Claim.ofCore (c : Claim) (core : Nat) : Bool := c == .claimed core || c == .releasing core

/-- The detach job (R304). -/
def State.detachCore (s : State) (core : Nat) : State :=
  (s.updCore core fun k => { k with mstate := .detached, mrows := 0 }).updEng (tileOfCore core) fun g =>
    { g.clearRows core with slots := g.slots.filter fun kv => !kv.2.claim.ofCore core }

/-- DETACH_JOB (R304). -/
def execDetachJob (t : Nat) (s : State) : Out :=
  runJob t (fun j s => match j.op with
    | .detach => some ((s.detachCore j.core).matrixDone t)
    | _ => none) s

/-- SLOT_RELEASE_JOB (R306). -/
def execSlotReleaseJob (t : Nat) (s : State) : Out :=
  runJob t (fun j s => match j.op with
    | .release n => some ((s.updEng t fun g => { g with slots := g.slots.erase n }).matrixDone t)
    | _ => none) s

/-- Bytes at a virtual address through a job's frames, as the tile home has them, with their poison (R301, R308). -/
def Memory.frameBytes (m : Memory) (fr : Frames) (a : Word) (n : Nat) : List (Byte × Bool) :=
  (List.range n).map fun i => let p := frameAddr fr (a + BitVec.ofNat 64 i); (m.byte p, m.marked p)

/-- The elements of w bits in a run of bytes, low end first (R307). -/
def elementsOf (bs : List (Byte × Bool)) (w n : Nat) : List OpEl :=
  (List.range n).map fun i =>
    if w = 4 then
      let b := bs.getD (i / 2) (0#8, false)
      (b.1.toNat / 16 ^ (i % 2) % 16, b.2)
    else
      let ps := (List.range (w / 8)).map fun k => bs.getD (i * (w / 8) + k) (0#8, false)
      (leNat (ps.map fun p => p.1), ps.any fun p => p.2)

/-- The scales in a run of bytes. -/
def scaleBytes (bs : List (Byte × Bool)) : List OpEl := bs.map fun b => (b.1.toNat, b.2)

/-- A run of pages' addresses that a job touches, for the discovery of errors (R360). -/
def frameAddrs (fr : Frames) (as : List Word) : List Nat := as.map (frameAddr fr)

/-- The rows of an image (R307). -/
def imageRows (m : Memory) (fr : Frames) (a stride : Word) (rows w n : Nat) : List (List OpEl) :=
  (List.range rows).map fun i => elementsOf (m.frameBytes fr (a + BitVec.ofNat 64 i * stride) (n * w / 8)) w n

/-- What a load job installs in a slot (R307, R308). -/
def loadedSlot (m : Memory) (o : OpSlot) (isA : Bool) (fmt : BitVec 2) (sparse : Option (Word × List (List Nat))) (base stride : Word)
    (fr : Frames) : OpSlot :=
  let w := matWidth fmt
  match sparse with
  | some (h, idx) =>
    let body := base + 64#64
    let sc := body + 128#64 * stride + BitVec.ofNat 64 (64 * hdrCount h)
    let nb := hdrKlen h / 32
    { o with
      held := .sparseA h, idx := idx
      els := imageRows m fr body stride 128 w (hdrCount h)
      scales := if fmt = 3#2 then (List.range 128).map fun r => scaleBytes (m.frameBytes fr (sc + BitVec.ofNat 64 (r * nb)) nb) else [] }
  | none =>
    if isA then
      let sc := base + 128#64 * stride
      { o with
        held := .denseA fmt, idx := []
        els := imageRows m fr base stride 128 w (kslot fmt)
        scales := if fmt = 3#2 then (List.range 128).map fun r => scaleBytes (m.frameBytes fr (sc + BitVec.ofNat 64 (16 * r)) 16) else [] }
    else
      let sc := base + BitVec.ofNat 64 (kslot fmt) * stride
      { o with
        held := .denseB fmt, idx := []
        els := imageRows m fr base stride (kslot fmt) w 128
        scales := if fmt = 3#2 then (List.range 16).map fun b => scaleBytes (m.frameBytes fr (sc + BitVec.ofNat 64 (128 * b)) 128) else [] }

/-- The image pieces that a load job reads (R307, R308). -/
def loadPieces (isA : Bool) (fmt : BitVec 2) (sparse : Option (Word × List (List Nat))) (base stride : Word) : List Word :=
  match sparse with
  | some (h, _) =>
    let body := base + 64#64
    let sc := body + 128#64 * stride + BitVec.ofNat 64 (64 * hdrCount h)
    rowPieces body stride 128 (hdrCount h * matWidth fmt / 8) ++ (if fmt = 3#2 then pieces sc (4 * hdrKlen h) else [])
  | none => (denseParts isA fmt base stride).flatten

/-- The lines that a job reads (R260, R307 to R309). -/
def MOpk.readLines : MOpk → List Nat
  | .load _ isA fmt sp base stride fr => linesOf (frameAddrs fr (loadPieces isA fmt sp base stride))
  | .tld _ g base stride fr => linesOf (frameAddrs fr (rowPieces base stride g 512))
  | _ => []

/-- Memory as a job reads it: the lines that it has read ahead as they were then (R260). -/
def Memory.withLines (m : Memory) (got : AMap Line) : Memory := got.foldl (fun m x => m.putLine x.1 x.2) m

/-- A job reads what it has not yet read of its lines, through the home (R247, R260). -/
def State.readLines (s : State) (t : Nat) (ls : List Nat) (got : AMap Line) : State × Memory :=
  let s := s.touchHome t ((ls.filter fun l => (got.find l).isNone).map fun l => 64 * l)
  (s, (s.tile t).mem.withLines got)

/-- OPERAND_LOAD_JOB (R308). -/
def execOperandLoadJob (t : Nat) (s : State) : Out :=
  runJob t (fun j s => match j.op with
    | .load n isA fmt sp base stride fr =>
      let (s, m) := s.readLines t j.op.readLines j.got
      some ((s.updEng t fun g => { g with slots := g.slots.set n (loadedSlot m (g.slot n) isA fmt sp base stride fr) }).matrixDone t)
    | _ => none) s

/-- MZERO and MTLD: rows of a tile are written (R309). -/
def Engines.setRow (g : Engines) (core t i : Nat) (row : List (BitVec 32 × Bool)) : Engines := { g with acc := g.acc.set (accKey core t i) row }

/-- The 128 FP32 words of a row in memory (R309). -/
def rowWords (m : Memory) (fr : Frames) (a : Word) : List (BitVec 32 × Bool) :=
  (elementsOf (m.frameBytes fr a 512) 32 128).map fun e => (BitVec.ofNat 32 e.1, e.2)

/-- The bytes that a row stores: FP32 words, or BF16 half-words rounded under RNE (R309). -/
def rowStore (g : Engines) (core t i : Nat) (a : Word) (half : Bool) (fr : Frames) : List WByte :=
  (List.range 128).flatMap fun j =>
    let x := g.accAt core t i j
    if half then
      wbytes (frameAddr fr (a + BitVec.ofNat 64 (2 * j))) (leBytes 2 (fmtBF16.round .rne (fmtF32.decode x.1.toNat) false 0).1) x.2
    else wbytes (frameAddr fr (a + BitVec.ofNat 64 (4 * j))) (leBytes 4 x.1.toNat) x.2

/-- The bytes that a job stores (R309). -/
def MJob.stores (j : MJob) (e : Engines) : List WByte :=
  match j.op with
  | .tst n g base stride half fr => (List.range g).flatMap fun i => rowStore e j.core n i (base + BitVec.ofNat 64 i * stride) half fr
  | _ => []

/-- One line access of the job at the head of a tile's matrix queue, ahead of its end (R260): the n-th line that it reads, or that it stores. -/
def State.matrixLine (s : State) (t n : Nat) : State :=
  match s.matrixHead t with
  | none => s
  | some j =>
    let s := s.joinAt t j.ctx j.after
    let head := fun (s : State) (j : MJob) => s.updEng t fun g => { g with mq := j :: g.mq.drop 1 }
    match j.op.readLines[n]? with
    | some l =>
      if (j.got.find l).isSome then s
      else
        let s := s.touchHome t [64 * l]
        head s { j with got := j.got.set l ((s.tile t).mem.line l), after := [] }
    | none =>
      let ws := j.stores (s.tile t).eng
      match (linesOf (ws.map fun w => w.1))[n]? with
      | some l => if j.put.contains l then s else head (s.writeEngine t (ws.filter fun w => w.1 / 64 == l)) { j with put := l :: j.put, after := [] }
      | none => s

/-- ACCUMULATOR_JOB: MZERO, MTLD or MTST (R309). -/
def execAccumulatorJob (t : Nat) (s : State) : Out :=
  runJob t (fun j s => match j.op with
    | .zero n g => some ((s.updEng t fun e => { e with acc := (List.range g).foldl (fun a i => a.erase (accKey j.core n i)) e.acc }).matrixDone t)
    | .tld n g base stride fr =>
      let (s, m) := s.readLines t j.op.readLines j.got
      some ((s.updEng t fun e => (List.range g).foldl (fun e i =>
        e.setRow j.core n i (rowWords m fr (base + BitVec.ofNat 64 i * stride))) e).matrixDone t)
    | .tst _ _ _ _ _ _ => some ((s.writeEngine t ((j.stores (s.tile t).eng).filter fun w => !j.put.contains (w.1 / 64))).matrixDone t)
    | _ => none) s

/-- The floating format of a code (R314). -/
def matFmt (fmt : BitVec 2) : Fmt := if fmt = 0#2 then fmtBF16 else if fmt = 1#2 then fmtE4M3 else if fmt = 2#2 then fmtE5M2 else fmtE2M1

/-- A value times 2^(s - 127); scale code 0xFF makes it NaN (R312). -/
def scaled (v : FV) (code : Nat) : FV :=
  if code = 0xFF then .nan
  else match v with
    | .fin s m e => .fin s m (e + code - 127)
    | x => x

/-- An element with its scale: value and poison (R312). -/
def slotValue (fmt : BitVec 2) (e : OpEl) (sc : OpEl) : FV × Bool :=
  let v := (matFmt fmt).decode e.1
  if fmt = 3#2 then (scaled v sc.1, e.2 || sc.2) else (v, e.2)

/-- The kept elements of a row of A, in ascending k: k and value (R307, R311, R312). -/
def OpSlot.keptRow (o : OpSlot) (i klen : Nat) : List (Nat × FV × Bool) :=
  let fmt := o.held.fmt
  let row := o.els.getD i []
  let sc := o.scales.getD i []
  match o.held.header with
  | some h =>
    let n := hdrN h
    let m := hdrM h
    let ix := o.idx.getD i []
    let at_ := fun (j : Nat) => m * (j / n) + ix.getD j 0
    let vals := (List.range (hdrCount h)).map fun j => (at_ j, slotValue fmt (row.getD j (0, false)) (sc.getD (at_ j / 32) (0, false)))
    (List.range (hdrKlen h)).filterMap fun k => vals.find? fun v => v.1 == k
  | none => (List.range klen).map fun k => (k, slotValue fmt (row.getD k (0, false)) (sc.getD (k / 32) (0, false)))

/-- Element (k, j) of the slots from osb onwards (R312). -/
def Engines.bValue (g : Engines) (osb k j : Nat) : FV × Bool :=
  let ks := kslot (g.slot osb).held.fmt
  let o := g.slot (osb + k / ks)
  let k' := k % ks
  slotValue o.held.fmt ((o.els.getD k' []).getD j (0, false)) ((o.scales.getD (k' / 32) []).getD j (0, false))

/-- One element of T after some k-steps: acc + p, rounded once per k (R312). -/
def mopElement (g : Engines) (osb j : Nat) (ks : List (Nat × FV × Bool)) (acc : BitVec 32 × Bool) : BitVec 32 × Bool :=
  ks.foldl (fun a k =>
    let b := g.bValue osb k.1 j
    let r := (FV.fma .rne (fmtF32.decode a.1.toNat) k.2.1 b.1).round fmtF32 .rne 0
    (BitVec.ofNat 32 r.1, a.2 || k.2.2 || b.2)) acc

/-- Issues that the governor lets pass now (R320). -/
def Governor.room (v : Governor) : Nat := min 256 (min (v.budget.toNat + 1) (v.last + v.ramp.toNat + 1)) - v.this

/-- Perform issues step .. step+n-1 of a MOP (R312). -/
def Engines.runMop (g : Engines) (core t a b rows cols klen : Nat) (z : Bool) (step n : Nat) : Engines :=
  let r := matRate (g.slot a).held.fmt
  (List.range rows).foldl (fun e i =>
    let ks := (((g.slot a).keptRow i klen).drop (step * r)).take (n * r)
    let row := (List.range 128).map fun j =>
      let x := g.accAt core t i j
      if j < cols then mopElement g b j ks (if z && step == 0 then (0#32, false) else x) else x
    e.setRow core t i row) g

/-- MOP_JOB: as many issues as the governor's window leaves room for (R312, R320). -/
def execMopJob (t : Nat) (s : State) : Out :=
  runJob t (fun j s => match j.op with
    | .mop n a b rows cols klen z step =>
      if rows = 0 ∨ cols = 0 then some (s.matrixDone t)
      else
        let g := (s.tile t).eng
        let k := min (j.lat - step) g.gov.room
        let s := s.updEng t fun g => { g.runMop j.core n a b rows cols klen z step k with gov := { g.gov with this := g.gov.this + k } }
        if j.lat ≤ step + k then some (s.matrixDone t)
        else some (s.updEng t fun g => { g with mq := { j with op := .mop n a b rows cols klen z (step + k) } :: g.mq.drop 1 })
    | _ => none) s

/-- GOVERNOR_WINDOW: a window ends and the next begins under the power block's limits (R320, R398). held is for how many a-cycles of it a limit kept the next k-step of a MOP from issuing: none while the MOP may issue or waits for something else, and no more than the window has left beside its issues. -/
def execGovernorWindow (t held : Nat) (s : State) : Out :=
  if s.clocked (8 * t) then
    let p := s.pwr t
    let limited := (match s.matrixHead t with
      | some { op := .mop _ _ _ _ _ _ _ _, .. } => true
      | _ => false) && (s.tile t).eng.gov.room == 0
    .next (s.updEng t fun g => { g with gov :=
      { this := 0, last := g.gov.this, ramp := p.ramp, budget := p.budget
        stalls := if limited then min (g.gov.stalls + min held (256 - g.gov.this)) (2 ^ 32 - 1) else g.gov.stalls } })
  else .next s

/-- An element's rank (R319): whether it is a NaN, its magnitude, its k. -/
structure Rank where
  nan : Bool
  mag : FV
  k   : Nat

/-- The magnitude of a value. -/
def FV.abs : FV → FV
  | .fin _ m e => .fin false m e
  | .inf _ => .inf false
  | .nan => .nan

/-- The order of ranks, highest first (R319). -/
def Rank.cmp (a b : Rank) : Ordering :=
  if a.nan != b.nan then (if a.nan then .gt else .lt)
  else
    let c := if a.nan then .eq else a.mag.cmp b.mag
    match c with
    | .eq => compare b.k a.k
    | o => o

/-- Put a rank into a list that falls from highest to lowest. -/
def insertRank {α : Type} (key : α → Rank) (x : α) : List α → List α
  | [] => [x]
  | y :: ys => if Rank.cmp (key y) (key x) == .lt then x :: y :: ys else y :: insertRank key x ys

/-- A list sorted from the highest rank to the lowest. -/
def sortRank {α : Type} (key : α → Rank) (xs : List α) : List α := xs.foldr (insertRank key) []

/-- Lexicographic comparison of keys (R319). -/
def cmpKey : List Rank → List Rank → Ordering
  | [], [] => .eq
  | [], _ => .lt
  | _, [] => .gt
  | a :: as, b :: bs => match Rank.cmp a b with
    | .eq => cmpKey as bs
    | o => o

/-- The rank of element (i, k) of a dense A slot. -/
def OpSlot.rank (o : OpSlot) (i k : Nat) : Rank :=
  let v := (slotValue o.held.fmt ((o.els.getD i []).getD k (0, false)) ((o.scales.getD i []).getD (k / 32) (0, false))).1
  { nan := v.isNan, mag := v.abs, k := k }

/-- The N diagonals that the greedy pass takes of a block, in the order taken (R319). -/
def takeDiagonals (keys : List (Nat × List Rank)) : Nat → List Nat
  | 0 => []
  | n + 1 =>
    match keys with
    | [] => []
    | k :: ks =>
      let best := ks.foldl (fun b x => if cmpKey x.2 b.2 == .gt then x else b) k
      best.1 :: takeDiagonals (keys.filter fun x => x.1 != best.1) n

/-- The positions that a block row keeps of its group, ascending (R319): i is the row, g the group. -/
def OpSlot.keptGroup (o : OpSlot) (h : Word) (i g : Nat) : List Nat :=
  let n := hdrN h
  let m := hdrM h
  if hdrTrans h then
    let b := i / m * m
    let keys := (List.range m).map fun d =>
      (d, sortRank id ((List.range m).map fun r => o.rank (b + r) (g * m + (r + d) % m)))
    let ds := takeDiagonals keys n
    (List.range m).filter fun c => ds.any fun d => (i % m + d) % m == c
  else
    let top := (sortRank (fun c => o.rank i (g * m + c)) (List.range m)).take n
    (List.range m).filter fun c => top.contains c

/-- The kept positions of every row and group of the pattern. -/
def OpSlot.pattern (o : OpSlot) (h : Word) : List (List (List Nat)) :=
  (List.range 128).map fun i => (List.range (hdrKlen h / hdrM h)).map fun g => o.keptGroup h i g

/-- What MPRUNE writes into its destination (R318, R319): rows of the pattern, or its columns under ORIENT = COL. -/
def OpSlot.pruned (dst src : OpSlot) (h : Word) : OpSlot :=
  let m := hdrM h
  let pat := src.pattern h
  let el := fun (i k : Nat) => (src.els.getD i []).getD k (0, false)
  let groups := hdrKlen h / m
  let rowIdx := fun (r g : Nat) =>
    if hdrCol h then (List.range m).filter fun c => (((pat.getD (g * m + c) []).getD (r / m) [])).contains (r % m)
    else (pat.getD r []).getD g []
  let val := fun (r g c : Nat) => if hdrCol h then el (g * m + c) r else el r (g * m + c)
  { dst with
    held := .sparseA h
    idx := (List.range 128).map fun r => (List.range groups).flatMap fun g => rowIdx r g
    els := (List.range 128).map fun r => (List.range groups).flatMap fun g => (rowIdx r g).map fun c => val r g c
    scales := src.scales }

/-- PRUNE_JOB (R319). -/
def execPruneJob (t : Nat) (s : State) : Out :=
  runJob t (fun j s => match j.op with
    | .prune d o h => some ((s.updEng t fun g => { g with slots := g.slots.set d ((g.slot d).pruned (g.slot o) h) }).matrixDone t)
    | _ => none) s

/-- Run the job at the head of a tile's matrix queue, whatever it is. -/
def execMatrixHead (t : Nat) (s : State) : Out :=
  match (s.tile t).eng.mq with
  | [] => .next s
  | j :: _ =>
    match j.op with
    | .attach _ => execAttachJob t s
    | .detach => execDetachJob t s
    | .release _ => execSlotReleaseJob t s
    | .load _ _ _ _ _ _ _ => execOperandLoadJob t s
    | .zero _ _ => execAccumulatorJob t s
    | .mop _ _ _ _ _ _ _ _ => execMopJob t s
    | .tld _ _ _ _ _ => execAccumulatorJob t s
    | .tst _ _ _ _ _ _ => execAccumulatorJob t s
    | .prune _ _ _ => execPruneJob t s

end Sys2Proof.Machine
end

