-- ==== Sys2Proof/Machine/Channels.lean ====
section
/-! DEFINITION. Sys2Proof/Machine/Channels.lean: the channel instructions of major 0x22 but for the block transfers (R204 to R218). -/

namespace Sys2Proof.Machine

/-- The endpoint that an operand names: bits [9:0] (R204). -/
def epArg (v : Word) : Nat := bitsNat v 0 10

/-- CHANNEL with a reason (R205). -/
def channelTrap (reason guard ep : Nat) (s : State) : Out := raise .channel (channelValue s.iw reason guard ep) s

/-- The connected endpoint of the caller's process with a number (R202). -/
def State.myEp (s : State) (e : Nat) : Option Endpoint := (s.procOf s.cur).bind fun l => s.ep l e

/-- The reason of R205 item 2, if a transfer may not name an endpoint; a sink is held by the channel unit (R241). -/
def State.epReason (s : State) (e : Nat) : Option Nat :=
  match s.myEp e with
  | none => some 1
  | some p =>
    if p.sink.isSome then some 2
    else match p.st with
    | .unbound => some 1
    | .bound c => if c = s.cur then none else some 2
    | .stream c _ => if c = s.cur then some 4 else some 2
    | .closed (some c) => if c = s.cur then none else some 2
    | .closed none => some 1

/-- Whether the process of the context that issues lies on several modules (R417). -/
def State.spread (s : State) : Bool :=
  match (s.procOf s.cur).bind fun l => s.entry l with
  | some e => 1 < e.rec_.modules
  | none => false

/-- The status of CHBIND (R206): 0 when it takes effect. A sink is held by the channel unit (R241); that a context on another module of the launch holds the endpoint is a free value, for no message tells of it (log entry 33). -/
def State.bindStatus (s : State) (v : Word) : Nat :=
  match s.myEp (epArg v) with
  | none => 1
  | some p =>
    if p.sink.isSome || (match p.st.holder with
      | some c => c != s.cur
      | none => s.spread && p.st == .unbound && Config.heldElsewhere s.fresh) then 2
    else match p.st with
      | .closed _ => 3
      | st =>
        if v.getLsbD 16 && (match s.myPart with
          | none => true
          | some q => (q.stream (v.getLsbD 17)).bound) then 4
        else if st.holder = some s.cur then 5
        else 0

/-- The effect of CHBIND (R206). A new binding starts a stream register that is not closed. -/
def State.bindEp (s : State) (ltag : Word) (v : Word) : State :=
  let e := epArg v
  if v.getLsbD 16 then
    (s.updMyPart fun q => q.updStream (v.getLsbD 17) fun t => { t with bound := true, closed := false, ep := BitVec.ofNat 10 e }).updEp
      ltag e fun p => { p with st := .stream s.cur (v.getLsbD 17) }
  else s.updEp ltag e fun p => { p with st := .bound s.cur }

/-- CHBIND (R206). -/
def execChbind (rd rs1 : XReg) (s : State) : Out :=
  let v := s.x rs1
  needClean [v] s fun _ =>
    let n := s.bindStatus v.val
    let s0 := if s.spread then s.tick else s
    let s1 := match s.procOf s.cur with
      | some l => if n = 0 then s0.bindEp l v.val else s0
      | none => s0
    completeIn 32 s (s1.writeRd rd (Reg.clean (BitVec.ofNat 64 n)))

/-- CHUNBIND and CHCLOSE: status 1 unless the caller holds the endpoint (R207). -/
def releaseEp (act : State → Word → Nat → State) (rd rs1 : XReg) (s : State) : Out :=
  let v := s.x rs1
  needClean [v] s fun _ =>
    let e := epArg v.val
    match s.procOf s.cur, s.myEp e with
    | some l, some p =>
      if p.st.holder = some s.cur then completeIn 32 s ((act s l e).writeRd rd (Reg.clean 0#64))
      else completeIn 32 s (s.writeRd rd (Reg.clean 1#64))
    | _, _ => completeIn 32 s (s.writeRd rd (Reg.clean 1#64))

/-- CHUNBIND (R207). -/
def execChunbind (rd rs1 : XReg) (s : State) : Out := releaseEp State.unbindEp rd rs1 s

/-- CHCLOSE (R207, R218). -/
def execChclose (rd rs1 : XReg) (s : State) : Out := releaseEp State.closeEp rd rs1 s

/-- Items 1 and 2 of R205. -/
def transferOn (v : Reg) (s : State) (k : Unit → Out) : Out :=
  needClean [v] s fun _ =>
    match s.epReason (epArg v.val) with
    | some r => channelTrap r 0xFF (epArg v.val) s
    | none => k ()

/-- Offer and wait (R217); an instruction that cannot fall through traps first (R67). -/
def offerAndWait (op : ChOp) (offers : List Offer) (s : State) : Out :=
  if s.atLastPc then raise .accessFault pastPc s else .next (s.offer s.cur op offers)

/-- CHSEND (R211): a release, then the offer of the word. -/
def execChsend (rd rs1 rs2 : XReg) (s : State) : Out :=
  let d := s.x rs2
  transferOn (s.x rs1) s fun _ => needClean [d] s fun _ =>
    releaseThen 1#1 s fun s => offerAndWait (.send rd) [{ ep := epArg (s.x rs1).val, send := true, kind := .word, data := d.val }] s

/-- CHRECV (R211). -/
def execChrecv (rd rt rs1 : XReg) (s : State) : Out :=
  transferOn (s.x rs1) s fun _ =>
    offerAndWait (.recv rd rt) [{ ep := epArg (s.x rs1).val, send := false, kind := .word, reg := rd }] s

/-- The parity of a whole register is checked before a channel unit reads it (R366). -/
def State.checkRegister (s : State) (p : Part) (r : VReg) : State :=
  s.checkTouches (coreOf s.cur) p [VReg.at_ r 16 (List.range (128 * p.svc.length))] []

/-- Whether a register has a poisoned row in a lane in service (R212). -/
def State.rowsPoisoned (s : State) (p : Part) (r : VReg) : Bool :=
  (List.range (128 * p.svc.length)).any fun l => (s.myCore.rows r.toNat (p.phys l)).psn != 0#16

/-- A drained sender's register is clean, or POISON is raised (R212). -/
def vectorClean (r : VReg) (s : State) (k : State → Out) : Out :=
  match s.myPart with
  | none => k s
  | some p =>
    let s1 := s.checkRegister p r
    match s1.myPart with
    | none => k s1
    | some q => if s1.rowsPoisoned q r then raise .poison q.origin s1 else k s1

/-- CHSENDV (R212). -/
def execChsendv (rd rs1 : XReg) (vs : VReg) (s : State) : Out :=
  let e := epArg (s.x rs1).val
  transferOn (s.x rs1) s fun _ =>
    if s.myPart.isNone then channelTrap 6 0xFF e s
    else drainThen s fun _ => vectorClean vs s fun s =>
      releaseThen 1#1 s fun s => offerAndWait (.sendv rd) [{ ep := e, send := true, kind := .vector, reg := vs }] s

/-- CHRECVV (R212). -/
def execChrecvv (vd : VReg) (rt rs1 : XReg) (s : State) : Out :=
  let e := epArg (s.x rs1).val
  transferOn (s.x rs1) s fun _ =>
    if s.myPart.isNone then channelTrap 6 0xFF e s
    else drainThen s fun _ => offerAndWait (.recvv rt) [{ ep := e, send := false, kind := .vector, reg := vd }] s

/-- Read one word of a list as a plain load (R214, R81, R198). -/
def readWord (va : Word) (s : State) (k : State → Nat → Out) : Out :=
  withAddr va 4 .load s fun s loc =>
    match loc with
    | .tile pa =>
      if s.vectorConflict pa 4 then waitOn .vectorOrder s
      else match s.readOwn pa 4 with
        | (s1, bs, p) => if p then raise .poison (wordOrigin va) s1 else k s1 (leNat bs)
    | .keeper _ => illegal s

/-- Read n words of a list, at ascending addresses. -/
def readWords : Nat → Word → List Nat → State → (State → List Nat → Out) → Out
  | 0, _, acc, s, k => k s acc.reverse
  | n + 1, va, acc, s, k => readWord va s fun s1 w => readWords n (va + 4#64) (w :: acc) s1 k

/-- A guard of SELECT (R214): its index and its word. -/
structure Guard where
  i : Nat
  w : BitVec 32

def Guard.vec (g : Guard) : Bool := g.w.getLsbD 25
def Guard.send (g : Guard) : Bool := g.w.getLsbD 24
def Guard.reg (g : Guard) : BitVec 5 := g.w.extractLsb' 15 5
def Guard.ep (g : Guard) : Nat := (g.w.extractLsb' 0 10).toNat

/-- Whether a guard's predicate holds (R215). -/
def Guard.holds (g : Guard) (c : Ctx) : Bool := c.getP (g.w.extractLsb' 20 3) != g.w.getLsbD 23

/-- CheckGuard (R215): the trap of a guard, if it has one. A vector send guard's register is read for poison, so its parity is checked (R366). -/
def Guard.check (g : Guard) (s : State) : State × Option (Cause × Word) :=
  let ch := fun (r : Nat) => (s, some (Cause.channel, channelValue s.iw r g.i g.ep))
  match s.epReason g.ep with
  | some r => ch r
  | none =>
    if g.vec && s.myPart.isNone then ch 6
    else if g.vec && decide (28 ≤ g.reg.toNat) then ch 7
    else if g.send then
      if g.vec then
        match s.myPart with
        | some p =>
          let s1 := s.checkRegister p g.reg
          (s1, match s1.myPart with
            | some q => if s1.rowsPoisoned q g.reg then some (Cause.poison, q.origin) else none
            | none => none)
        | none => (s, none)
      else (s, (s.x g.reg).psn.map fun o => (Cause.poison, o))
    else (s, none)

/-- The first guard that traps. -/
def firstGuard : List Guard → State → State × Option (Cause × Word)
  | [], s => (s, none)
  | g :: gs, s => match g.check s with
    | (s, some t) => (s, some t)
    | (s, none) => firstGuard gs s

/-- The offer of a guard (R215). -/
def Guard.offer (g : Guard) (s : State) : Offer :=
  { ep := g.ep, send := g.send, kind := if g.vec then .vector else .word
    data := if g.send && !g.vec then (s.x g.reg).val else 0#64, reg := g.reg, guard := g.i }

/-- Once drained, the vector send guards find their registers clean (R212, R363): an entry that was queued may have poisoned one since its check. -/
def sendsClean : List Guard → State → (State → Out) → Out
  | [], s, k => k s
  | g :: gs, s, k => if g.vec && g.send then vectorClean g.reg s fun s => sendsClean gs s k else sendsClean gs s k

/-- SELECT with its true guards (R215). -/
def selectGuards (rd rt : XReg) (gs : List Guard) (s : State) : Out :=
  if gs.isEmpty then complete s ((s.setX rt (Reg.clean 0#64)).setX rd (Reg.clean (-1#64)))
  else match firstGuard gs s with
    | (s, some (cause, v)) => raise cause v s
    | (s, none) =>
      let go := fun (s : State) => sendsClean gs s fun s =>
        releaseThen (if gs.any Guard.send then 1#1 else 0#1) s fun s =>
          offerAndWait (.select rd rt) (gs.map fun g => g.offer s) s
      if gs.any Guard.vec then drainThen s fun _ => go s else go s

/-- SELECT (R214, R215). -/
def execSelect (rd rt rs1 : XReg) (s : State) : Out :=
  let b := s.x rs1
  needClean [b] s fun _ =>
    readWord b.val s fun s h =>
      let n := h % 32
      if n = 0 || 16 < n || h / 32 != 0 then channelTrap 5 0xFF 0 s
      else readWords n (b.val + 4#64) [] s fun s ws =>
        let gs := (ws.zipIdx).map fun x => ({ i := x.2, w := BitVec.ofNat 32 x.1 } : Guard)
        if gs.any fun g => g.w.extractLsb' 26 6 != 0#6 || g.w.extractLsb' 10 5 != 0#5 then channelTrap 5 0xFF 0 s
        else selectGuards rd rt (gs.filter fun g => g.holds s.me) s

end Sys2Proof.Machine
end

