-- ==== Sys2Proof/Machine/Porter.lean ====
section
/-! DEFINITION. Sys2Proof/Machine/Porter.lean: the Porter instructions, the block transfers and their jobs (R322 to R334). -/

namespace Sys2Proof.Machine

/-- What an operation uses of a descriptor (R323, R333). -/
structure DescUse where
  src  : Bool
  dst  : Bool
  fill : Bool
  bar  : Bool

/-- NDIM of a descriptor (R323). -/
def descDims (bs : List Byte) : Nat := field bs 4 1

/-- Whether a reserved or unused field of a descriptor is non-zero (R323, R326 status -3). -/
def descReserved (u : DescUse) (bs : List Byte) : Bool :=
  let flags := field bs 5 1
  let bar := flags / 2 % 2 == 1
  let other := field bs 6 1 / 128 == 1
  flags / 4 != 0 || (bar && !u.bar) || (!bar && field bs 6 2 != 0) || field bs 7 1 / 8 != 0 || (bar && !other && field bs 7 1 != 0)
    || (!u.src && field bs 8 8 != 0) || (!u.dst && field bs 16 8 != 0) || (!u.fill && (field bs 0x18 8 != 0 || field bs 0x20 1 != 0))
    || field bs 0x21 7 != 0 || field bs 0x30 16 != 0
    || (List.range (descDims bs)).any fun d =>
      ((d == 0 || !u.src) && field bs (0x48 + 24 * d) 8 != 0) || ((d == 0 || !u.dst) && field bs (0x50 + 24 * d) 8 != 0)

/-- The descriptor that a block of bytes gives (R323); core is the core that reads it. -/
def descOf (core : Nat) (bs : List Byte) : Desc :=
  let n := descDims bs
  let w := fun (off : Nat) => BitVec.ofNat 64 (field bs off 8)
  let flags := field bs 5 1
  let b := field bs 6 1
  { size := (List.range n).map fun d => field bs (0x40 + 24 * d) 8
    ss := (List.range n).map fun d => w (0x48 + 24 * d)
    ds := (List.range n).map fun d => w (0x50 + 24 * d)
    src := w 8, dst := w 16, pattern := w 0x18, patlen := field bs 0x20 1, start := field bs 0x28 8
    irq := flags % 2 == 1
    bar := if flags / 2 % 2 = 1 then some (if b / 128 = 1 then field bs 7 1 % 8 else core % 8, b % 128) else none }

/-- The status of R326 step 4, as k of 2^64 - k; none when the descriptor is good. -/
def State.descStatus (s : State) (u : DescUse) (bs : List Byte) : Option Nat :=
  let n := descDims bs
  let d := descOf s.k bs
  if n = 0 || 16 < n || field bs 0 4 != 64 + 24 * n then some 2
  else if descReserved u bs then some 3
  else if d.size.any (fun x => x == 0) || 2 ^ 40 < d.total || d.total ≤ d.start
      || (u.fill && !(d.patlen == 1 || d.patlen == 2 || d.patlen == 4 || d.patlen == 8)) then some 4
  else if (match d.bar with
      | some (c, i) =>
        let k := 8 * (s.k / 8) + c
        let b := (s.core k).barrier i
        !b.init || (k != s.k && b.scope == 1#2)
      | none => false) then some 5
  else if 2 ^ 64 - 1 ≤ s.myCore.pjob then some 6
  else none

/-- Read n bytes of one line as a plain load; a poisoned byte raises POISON with its address (R326). -/
def readLine (va : Word) (n : Nat) (s : State) (k : State → List Byte → Out) : Out :=
  withAddr va 1 .load s fun s loc =>
    match loc with
    | .tile pa =>
      if s.vectorConflict pa n then waitOn .vectorOrder s
      else
        let s := s.touchScalar s.k [pa]
        let m := s.coreMem s.k
        match (List.range n).find? fun i => m.marked (pa + i) with
        | some i => raise .poison (va + BitVec.ofNat 64 i) s
        | none => k s (m.bytes pa n)
    | .keeper _ => illegal s

/-- Read n bytes from a line boundary, line by line; fuel bounds the lines. -/
def readLines : Nat → Word → Nat → List Byte → State → (State → List Byte → Out) → Out
  | 0, _, _, acc, s, k => k s acc
  | f + 1, va, n, acc, s, k =>
    if n = 0 then k s acc
    else readLine va (min 64 n) s fun s1 bs => readLines f (va + 64#64) (n - min 64 n) (acc ++ bs) s1 k

/-- Steps 1 to 3 of R326: the descriptor is read. -/
def readDesc (a : Reg) (s : State) (k : State → List Byte → Out) : Out :=
  needClean [a] s fun _ =>
    if a.val.toNat % 64 != 0 then raise .misaligned a.val s
    else readLine a.val 64 s fun s1 bs =>
      let dlen := field bs 0 4
      if 88 ≤ dlen ∧ dlen ≤ 448 then readLines 8 (a.val + 64#64) (dlen - 64) bs s1 k else k s1 bs

/-- Whether the Porter queue has no room for the core that issues, reservations counted (R322, R334). -/
def State.porterFull (s : State) : Bool :=
  let e := s.myTile.eng
  let mine := (e.pq.filter fun j => j.core == s.k).length + e.pres.get s.k 0
  decide (128 ≤ mine) || decide (1024 ≤ e.pq.length + (e.pres.map fun kv => kv.2).sum)

/-- Take a completion place when the descriptor asks for one (R331). -/
def State.takePlace (s : State) (d : Desc) : State := if d.irq then s.updMe fun c => { c with places := c.places + 1 } else s

/-- Enqueue a copy or fill (R326). -/
def State.enqueueP (s : State) (kind : PKind) (d : Desc) : State :=
  match s.nextPJob s.k with
  | (s, id) =>
    let c := s.me
    let j : PJob := { core := s.k, id := id, ctx := s.cur, priv := c.priv, kind := kind, desc := d, pos := d.start, stamp := s.fresh, after := c.depPort }
    ((s.tick.updEng (tileOf s.cur) fun g => { g with pq := g.pq ++ [j] }).updMe fun c =>
      { c with pjoblast := BitVec.ofNat 64 id }).takePlace d

/-- The scalar phase of a copy, fill or block offer is over: it is placed, or waits for a completion place under IRQ and for an entry of the queue; a sending offer waits for its release besides (R322, R326, R331, R334). What was read is not read again. -/
def placePorter (cost : Nat) (p : Pended) (d : Desc) (s : State) : Out :=
  if d.irq && decide (128 ≤ s.me.places) then waitOn (.place p) s
  else if s.porterFull then waitOn (.queueFree p) s
  else match p with
    | .port kind d rd =>
      if 2 ^ 64 - 1 ≤ s.myCore.pjob then completeIn cost s (s.writeRd rd (barStatus 6))
      else completeIn cost s ((s.enqueueP kind d).writeRd rd (Reg.clean (BitVec.ofNat 64 (s.myCore.pjob + 1))))
    | .block send e d rd =>
      if send && !s.vectorAccessesDone s.cur then waitOn (.queueFree p) s
      else
        let s := if send then s.drainCore s.k else s
        let s := (s.takePlace d).updEng (tileOf s.cur) fun g => { g with pres := g.pres.set s.k (g.pres.get s.k 0 + 1) }
        .next (s.offer s.cur (.block rd send d s.me.priv) [{ ep := e, send := send, kind := .block }])
    | _ => .next s

/-- R67 is checked before an instruction is placed or waits to be. -/
def startPorter (p : Pended) (d : Desc) (s : State) : Out :=
  if s.atLastPc then raise .accessFault pastPc s else placePorter 16 p d s

/-- PCOPY and PFILL (R326). -/
def porterJob (kind : PKind) (u : DescUse) (rd rs1 : XReg) (s : State) : Out :=
  readDesc (s.x rs1) s fun s bs =>
    match s.descStatus u bs with
    | some e => complete s (s.writeRd rd (barStatus e))
    | none => startPorter (.port kind (descOf s.k bs) rd) (descOf s.k bs) s

def execPcopy (rd rs1 : XReg) (s : State) : Out := porterJob .copy { src := true, dst := true, fill := false, bar := true } rd rs1 s
def execPfill (rd rs1 : XReg) (s : State) : Out := porterJob .fill { src := false, dst := true, fill := true, bar := true } rd rs1 s

/-- What a core knows of a Porter or Cellar job (R328). -/
inductive JobView where
  | zero
  | unknown
  | expired
  | live
  | ended (e : JobEnd)

/-- A job as PWAIT, PPOLL and PCANCEL see it (R328). -/
def jobView (last : Nat) (live : Bool) (ends : List JobEnd) (j : Nat) : JobView :=
  if j = 0 then .zero
  else if last < j then .unknown
  else if j + 256 ≤ last then .expired
  else if live then .live
  else match ends.find? fun e => e.id == j with
    | some e => .ended e
    | none => .expired

/-- The Porter job that an operand names. -/
def State.porterView (s : State) (j : Nat) : JobView := jobView s.myCore.pjob (s.pjob s.k j).isSome s.myCore.pended j

/-- PFSTAT and PFADDR receive the detail of a cancelled or faulted job (R328). -/
def Ctx.noteEnd (c : Ctx) (e : JobEnd) : Ctx :=
  if e.status = 2 ∨ e.status = 3 then { c with pfstat := e.detail, pfaddr := e.addr } else c

/-- Give an ended job's status (R328). -/
def jobEnded (cost : Nat) (rd : XReg) (e : JobEnd) (s : State) : Out :=
  completeIn cost s ((s.updMe fun c => c.noteEnd e).writeRd rd (Reg.clean (BitVec.ofNat 64 e.status)))

/-- A fixed result. -/
def jobValue (cost : Nat) (rd : XReg) (v : Word) (s : State) : Out := completeIn cost s (s.writeRd rd (Reg.clean v))

/-- PWAIT (R328). -/
def execPwait (rd rs1 : XReg) (s : State) : Out :=
  needClean [s.x rs1] s fun _ =>
    match s.porterView (s.x rs1).val.toNat with
    | .zero => jobValue 16 rd 0#64 s
    | .unknown => jobValue 16 rd (-1#64) s
    | .expired => jobValue 16 rd 4#64 s
    | .live => waitOn .job s
    | .ended e => jobEnded 16 rd e s

/-- PPOLL (R328). -/
def execPpoll (rd rs1 : XReg) (s : State) : Out :=
  needClean [s.x rs1] s fun _ =>
    match s.porterView (s.x rs1).val.toNat with
    | .zero => jobValue 16 rd 0#64 s
    | .unknown => jobValue 16 rd (-1#64) s
    | .expired => jobValue 16 rd 4#64 s
    | .live => jobValue 16 rd 1#64 s
    | .ended e => jobEnded 16 rd e s

/-- PCANCEL (R328): a job stops at the position it has reached. -/
def execPcancel (rd rs1 : XReg) (s : State) : Out :=
  needClean [s.x rs1] s fun _ =>
    match s.porterView (s.x rs1).val.toNat with
    | .zero => jobValue 32 rd (-1#64) s
    | .unknown => jobValue 32 rd (-1#64) s
    | .expired => jobValue 32 rd 4#64 s
    | .ended e => jobEnded 32 rd e s
    | .live =>
      if s.atLastPc then raise .accessFault pastPc s
      else match s.pjob s.k (s.x rs1).val.toNat with
        | none => jobValue 32 rd (-1#64) s
        | some j =>
          let s1 := s.cancelPJob j
          match s1.porterView j.id with
          | .ended e => jobEnded 32 rd e s1
          | _ => jobValue 32 rd 2#64 s1

/-- CHSENDB and CHRECVB (R333, R334). -/
def blockOffer (send : Bool) (rd rs1 rs2 : XReg) (s : State) : Out :=
  let e := epArg (s.x rs1).val
  transferOn (s.x rs1) s fun _ =>
    readDesc (s.x rs2) s fun s bs =>
      match s.descStatus { src := send, dst := !send, fill := false, bar := !send } bs with
      | some 6 => complete s (s.writeRd rd (Reg.clean 5#64))
      | some _ => complete s (s.writeRd rd (Reg.clean 4#64))
      | none => startPorter (.block send e (descOf s.k bs) rd) (descOf s.k bs) s

def execChsendb (rd rs1 rs2 : XReg) (s : State) : Out := blockOffer true rd rs1 rs2 s
def execChrecvb (rd rs1 rs2 : XReg) (s : State) : Out := blockOffer false rd rs1 rs2 s

/-- The index sum of a traversal position over the strides of one side (R324): sizes and strides from dimension 0 up. -/
def traverse : List Nat → List Word → Nat → Word
  | [], _, _ => 0#64
  | _, [], _ => 0#64
  | n :: ns, st :: sts, p => BitVec.ofNat 64 (p % n) * st + traverse ns sts (p / n)

/-- SrcAddr and DstAddr (R324): dimension 0 is a run of bytes. -/
def Desc.addr (d : Desc) (base : Word) (strides : List Word) (p : Nat) : Word := base + traverse d.size (1#64 :: strides.drop 1) p

def Desc.srcAddr (d : Desc) (p : Nat) : Word := d.addr d.src d.ss p
def Desc.dstAddr (d : Desc) (p : Nat) : Word := d.addr d.dst d.ds p

/-- FillByte (R324). -/
def Desc.fillByte (d : Desc) (p : Nat) : Byte := d.pattern.extractLsb' (8 * (p % d.patlen)) 8

/-- A failure of one side of a job: cause, level and reason as XLSTAT [7:0], and the address (R327). -/
structure PFault where
  cause : Nat
  xl    : Nat
  addr  : Word

/-- Translate one address for a job (R324, R327). -/
def State.porterWalk (s : State) (t : Nat) (priv : BitVec 2) (kind : AccKind) (a : Word) : State × (Nat ⊕ PFault) :=
  if !canonical a then (s, .inr { cause := 7, xl := 0, addr := a })
  else
    let c := if kind = .store then 5 else 4
    match s.walkEngine t priv a kind with
    | (s, .ok pa) => (s, .inl pa)
    | (s, .fault l r) => (s, .inr { cause := c, xl := 16 * l + r, addr := a })
    | (s, _) => (s, .inr { cause := c, xl := 5, addr := a })

/-- A side that a job does not have. -/
def noSide (s : State) (_p : Nat) : State × (Nat ⊕ PFault) := (s, .inl 0)

/-- Positions of a job translated on the sides it has, source first, up to a failure: pairs of source and destination addresses. The flag of a failure says that the destination failed. -/
def walkPositions (src dst : State → Nat → State × (Nat ⊕ PFault)) :
    Nat → Nat → List (Nat × Nat) → State → State × List (Nat × Nat) × Option (Bool × PFault)
  | 0, _, acc, s => (s, acc.reverse, none)
  | n + 1, p, acc, s =>
    match src s p with
    | (s, .inr f) => (s, acc.reverse, some (false, f))
    | (s, .inl a) => match dst s p with
      | (s, .inr f) => (s, acc.reverse, some (true, f))
      | (s, .inl b) => walkPositions src dst n (p + 1) ((a, b) :: acc) s

/-- The barrier of a job is decremented for bytes that have landed (R287, R327). -/
def State.payBarrier (s : State) (j : PJob) (n : Nat) : State :=
  match j.desc.bar with
  | some (c, i) => if n = 0 then s else s.updBarrier (8 * tileOfCore j.core + c) i fun b => b.dec n
  | none => s

/-- Change a Porter job that has not ended. -/
def State.updPJob (s : State) (j : PJob) (f : PJob → PJob) : State :=
  s.updEng (tileOfCore j.core) fun g => { g with pq := g.pq.map fun q => if q.core = j.core ∧ q.id = j.id then f q else q }

/-- Positions that an event asks for: 0 stands for all that remain. -/
def chunk (n left : Nat) : Nat := if n = 0 then left else min n left

/-- The end of an event of a copy or fill: landed bytes, then DONE, FAULT or more to do (R327). -/
def State.advanceJob (s : State) (j : PJob) (ws : List WByte) (f : Option PFault) : State :=
  let k := ws.length
  let s := (s.writeEngine (tileOfCore j.core) ws j.wrote).payBarrier j k
  match f with
  | some x => s.endPJob j 3 (j.pos + k) x.xl x.cause x.addr
  | none =>
    if j.desc.total ≤ j.pos + k then s.endPJob j 0 j.desc.total 0 0 0#64
    else s.updPJob j fun q => { q with pos := q.pos + k, wrote := q.wrote ++ ws }

/-- Whether a Porter job may perform: nothing stands ahead of it in its queue but the other half of its transfer, and FENCE.Q holds it back no more (R267, R94). -/
def State.porterReady (s : State) (j : PJob) : Bool :=
  let t := tileOfCore j.core
  let other := s.partnerOf j
  s.clocked (8 * t) && s.joined t j.after &&
    ((s.tile t).eng.pq.takeWhile fun q => !(q.core == j.core && q.id == j.id)).all fun q => match other with
      | some o => q.core == o.core && q.id == o.id
      | none => false

/-- PORTER_JOB: the job at the head of a tile's queue copies or fills n positions (R327). -/
def execPorterJob (t n : Nat) (s : State) : Out :=
  match (s.tile t).eng.pq with
  | [] => .next s
  | j :: _ =>
    if !s.porterReady j then .next s
    else
      let s := s.joinAt t j.ctx j.after
      let k := chunk n (j.desc.total - j.pos)
      let dst := fun (s : State) (p : Nat) => s.porterWalk t j.priv .store (j.desc.dstAddr p)
      match j.kind with
      | .copy =>
        let (s, ps, f) := walkPositions (fun s p => s.porterWalk t j.priv .load (j.desc.srcAddr p)) dst k j.pos [] s
        let s := s.touchHome t (ps.map fun p => p.1)
        let m := (s.tile t).mem
        .next (s.advanceJob j (ps.map fun p => (p.2, m.byte p.1, m.marked p.1)) (f.map fun x => x.2))
      | .fill =>
        let (s, ps, f) := walkPositions noSide dst k j.pos [] s
        .next (s.advanceJob j ((ps.zipIdx).map fun p => (p.1.2, j.desc.fillByte (j.pos + p.2), false)) (f.map fun x => x.2))
      | _ => .next s

/-- Both halves of a transfer on this module move n positions (R334). -/
def State.moveBlock (s : State) (a b : PJob) (n : Nat) : State :=
  let ta := tileOfCore a.core
  let tb := tileOfCore b.core
  let s := (s.joinAt ta a.ctx a.after).joinAt tb b.ctx b.after
  let k := chunk n (a.desc.total - a.pos)
  let (s, ps, f) := walkPositions (fun s p => s.porterWalk ta a.priv .load (a.desc.srcAddr p))
    (fun s p => s.porterWalk tb b.priv .store (b.desc.dstAddr p)) k a.pos [] s
  let s := s.touchHome ta (ps.map fun p => p.1)
  let m := (s.tile ta).mem
  let ws := ps.map fun p => (p.2, m.byte p.1, m.marked p.1)
  let s := (s.writeEngine tb ws b.wrote).payBarrier b ws.length
  let pos := a.pos + ws.length
  match f with
  | some (far, x) =>
    if far then (s.endPJob a 3 pos 0 0 0#64).endPJob b 3 pos x.xl x.cause x.addr
    else (s.endPJob a 3 pos x.xl x.cause x.addr).endPJob b 3 pos 0 0 0#64
  | none =>
    if a.desc.total ≤ pos then (s.endPJob a 0 pos 0 0 0#64).endPJob b 0 pos 0 0 0#64
    else (s.updPJob a fun q => { q with pos := pos }).updPJob b fun q => { q with pos := pos, wrote := q.wrote ++ ws }

/-- The body of a DATA message (R415). -/
def dataBody (oid off : Nat) (bs : List Byte) : List Byte := leBytes 4 oid ++ leBytes 4 0 ++ leBytes 8 off ++ bs

/-- The sending half of a transfer to another module reads and sends n positions, at most 4,096 in one message, poisoned bytes as poisoned (R334, R416). No message tells the other module of a fault or a cancel (log entry 79). -/
def State.sendBlock (s : State) (a : PJob) (m oid n : Nat) : State :=
  let ta := tileOfCore a.core
  let s := s.joinAt ta a.ctx a.after
  let k := chunk n (min 4096 (a.desc.total - a.pos))
  let (s, ps, f) := walkPositions (fun s p => s.porterWalk ta a.priv .load (a.desc.srcAddr p)) noSide (min k 4096) a.pos [] s
  let s := s.touchHome ta (ps.map fun p => p.1)
  let mem := (s.tile ta).mem
  let poisoned := ((ps.zipIdx).filter fun x => mem.marked x.1.1).map fun x => 16 + x.2
  let s := if ps.isEmpty then s
    else s.sendMarked m { kind := 1, body := dataBody oid (a.pos - a.desc.start) (ps.map fun p => mem.byte p.1), marks := poisoned }
  let pos := a.pos + ps.length
  match f with
  | some (_, x) => s.endPJob a 3 pos x.xl x.cause x.addr
  | none => if a.desc.total ≤ pos then s.endPJob a 0 pos 0 0 0#64 else s.updPJob a fun q => { q with pos := pos }

/-- The receiving half of a transfer from another module writes what has arrived (R334, R416). -/
def State.landBlock (s : State) (b : PJob) (n : Nat) : State :=
  let tb := tileOfCore b.core
  let s := s.joinAt tb b.ctx b.after
  let k := min (chunk n b.got.length) (b.desc.total - b.pos)
  let (s, ps, f) := walkPositions noSide (fun s p => s.porterWalk tb b.priv .store (b.desc.dstAddr p)) k b.pos [] s
  let ws := (ps.zip b.got).map fun x => (x.1.2, x.2.1, x.2.2)
  (s.updPJob b fun q => { q with got := q.got.drop ws.length }).advanceJob b ws (f.map fun x => x.2)

/-- BLOCK_TRANSFER: the transfer at the head of a tile's Porter queue carries n positions (R334). -/
def execBlockTransfer (t n : Nat) (s : State) : Out :=
  match (s.tile t).eng.pq with
  | [] => .next s
  | j :: _ =>
    if !s.porterReady j then .next s
    else match j.kind, s.partnerOf j with
      | .send (.here _), some b => if s.porterReady b then .next (s.moveBlock j b n) else .next s
      | .recv (.here _), some a => if s.porterReady a then .next (s.moveBlock a j n) else .next s
      | .send (.module m oid), _ => .next (s.sendBlock j m oid n)
      | .recv (.module _ _), _ => if j.got.isEmpty then .next s else .next (s.landBlock j n)
      | _, _ => .next s

end Sys2Proof.Machine
end

