-- ==== Sys2Proof/Machine/Cellar.lean ====
section
/-! DEFINITION. Sys2Proof/Machine/Cellar.lean: the Cellar instructions (R335 to R339, R343, R348), the jobs of the unit (R338, R344 to R347), and the ends of the waits for a job (R302, R328, R348), for an entry of a queue (R127) and for a completion place (R331). -/

namespace Sys2Proof.Machine

/-- CELLAR with a table and a reason (R337). -/
def cellarTrap (table reason : Nat) (s : State) : Out :=
  raise .cellar (BitVec.ofNat 64 (s.iw.toNat * 2 ^ 32 + table % 256 * 256 + reason)) s

/-- The gate of the Cellar layer, then the registers that must be clean (R335, R363). -/
def cellar (rs : List Reg) (s : State) (k : Unit → Out) : Out :=
  if s.myTile.cell then gatedLayer 4 s else needClean rs s k

/-- Whether the Cellar queue has no room for the core that issues (R335). -/
def State.cellarFull (s : State) : Bool :=
  let q := s.myTile.eng.cq
  decide (64 ≤ q.length) || decide (16 ≤ (q.filter fun j => j.core == s.k).length)

/-- Whether the core's Cellar identifiers are exhausted (R335). -/
def State.cellarSpent (s : State) : Bool := decide (2 ^ 64 - 1 ≤ s.myCore.cjob)

/-- Enqueue a Cellar job of the core that issues (R335). -/
def State.enqueueC (s : State) (kind : CKind) : State :=
  let id := s.myCore.cjob + 1
  let c := s.me
  let j : CJob := { core := s.k, id := id, ctx := s.cur, kind := kind, stamp := s.fresh, after := c.depCell }
  ((s.tick.updMyCore fun k => { k with cjob := id }).updEng (tileOf s.cur) fun g => { g with cq := g.cq ++ [j] }).updMe fun c =>
    { c with cjoblast := BitVec.ofNat 64 id }

/-- The tables as a job leaves them from its enqueue on (R335, R338). -/
def Engines.noteC (g : Engines) : CKind → Engines
  | .load table ew len _ _ => { g with tabs := g.tabs.set table { ew := ew, len := len } }
  | .kernel _ => g

/-- The table that a Cellar job names. -/
def CKind.table : CKind → Nat
  | .load table _ _ _ _ => table
  | .kernel k => k.code

/-- A Cellar job is enqueued, and its identifier given; a full queue is waited for, and the job is then placed as it is (R335, R127). -/
def placeCellar (cost : Nat) (kind : CKind) (rd : XReg) (s : State) : Out :=
  if s.cellarFull then waitOn (.queueFree (.cell kind rd)) s
  else if s.cellarSpent then cellarTrap kind.table 6 s
  else completeIn cost s (((s.enqueueC kind).updEng (tileOf s.cur) fun g => g.noteC kind).writeRd rd (Reg.clean (BitVec.ofNat 64 (s.myCore.cjob + 1))))

/-- The scalar phase of a Cellar job is over; R67 is checked before it is placed. -/
def queueC (rd : XReg) (kind : CKind) (s : State) : Out :=
  if s.atLastPc then raise .accessFault pastPc s else placeCellar 16 kind rd s

/-- CLLOAD (R338). -/
def execClload (rd rs1 rs2 : XReg) (s : State) : Out :=
  let w := s.x rs1
  let src := s.x rs2
  cellar [w, src] s fun _ =>
    let table := bitsNat w.val 0 6
    let ew := bitsNat w.val 8 2
    let len := bitsNat w.val 16 12
    if ew = 3 || len = 0 || 2048 < len || len % 2 ^ ew != 0 then cellarTrap table 1 s
    else if s.cellarSpent then cellarTrap table 6 s
    else if src.val.toNat % 64 != 0 then raise .misaligned src.val s
    else match s.walkPart .load (pieces src.val len) {} with
      | (s1, { fail := some f, .. }) => partFault f s1
      | (s1, w) => queueC rd (.load table ew len src.val w.fr) s1

/-- Whether a table's entries fit a query under VTYPE (R339 step 5). -/
def queryFits (v : BitVec 18) (interp : Bool) (ew : Nat) : Bool :=
  let bytes := sewBits (vtSew v) / 8
  if isArithFlt (vtFmt v) then 2 ^ ew == bytes else !interp && isIntFmt (vtFmt v) && decide (2 ^ ew ≤ bytes)

/-- CLQUERY (R339). -/
def execClquery (vd vi : VReg) (rs1 : XReg) (s : State) : Out :=
  let w := s.x rs1
  cellar [w] s fun _ =>
    vguard (fun p => [(5, !(vtSew p.vtype == 3 || vtSew p.vtype == 4 || vtSew p.vtype == 5))]) s fun p =>
      let ctl := bitsNat w.val 0 19
      let table := ctl % 64
      let interp := w.val.getLsbD 8
      let iw := if w.val.getLsbD 9 then 16 else 8
      let fb := bitsNat w.val 12 4
      let sew := sewBits (vtSew p.vtype)
      let mask := if w.val.getLsbD 16 then [24 + bitsNat w.val 17 2] else []
      match s.myTile.eng.tabs.find table with
      | none => cellarTrap table 2 s
      | some t =>
        if !queryFits p.vtype interp t.ew then cellarTrap table 3 s
        else if iw ≤ fb || (fb != 0 && !interp) then cellarTrap table 4 s
        else if sew = 32 && badPair vd then vconfig 6 s
        else if overlap (regsAt vd sew) (regsAt vi iw ++ mask) then vconfig 9 s
        else if p.lanes * slotsOf (max iw sew) < p.vl then vconfig 8 s
        else queueV (.clquery vd vi ctl t.ew t.len) [] s

/-- NPAGES of a parameter block (R342). -/
def blockPages (bs : List Byte) : Nat := field bs 5 1

/-- PAGE[j] of a parameter block (R342). -/
def blockPage (bs : List Byte) (j : Nat) : Word := BitVec.ofNat 64 (field bs (0x40 + 8 * j) 8)

/-- The page list of a parameter block. -/
def blockList (bs : List Byte) : List Word := (List.range (blockPages bs)).map (blockPage bs)

/-- Whether NPAGES and PLEN agree with R342. -/
def blockSized (bs : List Byte) : Bool :=
  decide (1 ≤ blockPages bs) && decide (blockPages bs ≤ 64) && field bs 0 4 == 64 + 8 * blockPages bs

/-- Whether the rest of a parameter block breaks R342, ENTRY apart. -/
def blockBad (bs : List Byte) : Bool :=
  !blockSized bs || field bs 8 4 == 0 || field bs 0x0C 4 != 0 || field bs 0x30 16 != 0
    || (blockList bs).any fun w => bitsNat w 1 15 != 0 || !canonical (w &&& ~~~0xFFFF#64)

/-- Steps 2 and 3 of R343: a parameter block is read, its first 64 bytes first. -/
def readBlock (a : Word) (s : State) (k : State → List Byte → Out) : Out :=
  readLine a 64 s fun s1 bs =>
    if blockSized bs then readLines 8 (a + 64#64) (8 * blockPages bs) bs s1 k else k s1 bs

/-- Step 4 of R343 up to CELLAR 0x03: the block, then its code table. -/
def checkBlock (bs : List Byte) (s : State) (k : Unit → Out) : Out :=
  let code := field bs 4 1
  if blockBad bs then cellarTrap 0xFF 5 s
  else match s.myTile.eng.tabs.find code with
    | none => cellarTrap code 2 s
    | some t =>
      if t.len / 4 ≤ field bs 6 2 then cellarTrap 0xFF 5 s
      else if t.ew ≠ 2 then cellarTrap code 3 s
      else k ()

/-- Step 5 of R343: each page is translated at the caller's privilege. -/
def walkPages : List Word → State → List KPage → (State → List KPage → Out) → Out
  | [], s, acc, k => k s acc.reverse
  | w :: ws, s, acc, k =>
    let va := w &&& ~~~0xFFFF#64
    let kind := if w.getLsbD 0 then AccKind.store else .load
    match s.translate s.k s.me.priv va kind with
    | (s1, .ok pa) => walkPages ws s1 ({ va := va, w := w.getLsbD 0, frame := pa, big := s1.bigPage s1.k va } :: acc) k
    | (s1, .fault lvl r) => translationFault kind lvl r va s1
    | (s1, .poison) => raise .poison va s1
    | (s1, .absent) => raise .accessFault va s1
    | (s1, .halted) => waitOn .memReply s1

/-- The state of a kernel at its start (R344); stamp tells its free values from another's. -/
def startKernel (stamp : Nat) (block : Word) (priv : BitVec 2) (bs : List Byte) (pages : List KPage) : Kernel :=
  let unit := fun (port : Nat) => ({ v := Config.kernelUnit stamp port } : KVal)
  { block := block, priv := priv, code := field bs 4 1, budget := field bs 8 4, mi := field bs 6 2, pages := pages
    k := Vector.ofFn fun i => if i.val < 8 then { v := BitVec.ofNat 32 (field bs (0x10 + 4 * i.val) 4) } else {}
    aluA := unit 0x20, aluR := unit 0x2F, cmpA := unit 0x30, tabT := unit 0x40, tabR := unit 0x42, memR := unit 0x4A, memSA := unit 0x4B }

/-- The kernel of a core that has not ended, by identifier (R343). -/
def State.kernelOf (s : State) (id : Nat) : Option Kernel :=
  match s.myTile.eng.cq.find? fun j => j.core == s.k && j.id == id with
  | some j => match j.kind with
    | .kernel x => some x
    | _ => none
  | none => none

/-- Change a kernel in the queue of a tile. -/
def Engines.updKernel (g : Engines) (core id : Nat) (f : Kernel → Kernel) : Engines :=
  { g with cq := g.cq.map fun j => if j.core = core ∧ j.id = id then { j with kind := match j.kind with
      | .kernel x => .kernel (f x)
      | y => y } else j }

/-- CLRUN (R343): it starts a kernel, or refreshes the page list of one. -/
def execClrun (rd rs1 rs2 : XReg) (s : State) : Out :=
  let a := s.x rs1
  let j := s.x rs2
  cellar [a, j] s fun _ =>
    if j.val = 0#64 then
      if a.val.toNat % 64 != 0 then raise .misaligned a.val s
      else readBlock a.val s fun s bs =>
        checkBlock bs s fun _ =>
          if s.cellarSpent then cellarTrap (field bs 4 1) 6 s
          else walkPages (blockList bs) s [] fun s ps => queueC rd (.kernel (startKernel s.fresh a.val s.me.priv bs ps)) s
    else match s.kernelOf j.val.toNat with
      | none => complete s (s.writeRd rd (Reg.clean (-1#64)))
      | some x =>
        readBlock x.block s fun s bs =>
          checkBlock bs s fun _ =>
            if blockPages bs ≠ x.pages.length then cellarTrap 0xFF 7 s
            else walkPages (blockList bs) s [] fun s ps =>
              complete s ((s.updEng (tileOf s.cur) fun g => g.updKernel s.k j.val.toNat fun y =>
                { y with pages := ps, stalled := false }).writeRd rd (Reg.clean 0#64))

/-- The Cellar job that an operand names, as CLWAIT sees it (R348). -/
def State.cellarView (s : State) (j : Nat) : JobView :=
  jobView s.myCore.cjob (s.myTile.eng.cq.any fun q => q.core == s.k && q.id == j) s.myCore.cended j

/-- CLWAIT (R348). -/
def execClwait (rd rs1 : XReg) (s : State) : Out :=
  let j := s.x rs1
  cellar [j] s fun _ =>
    match s.cellarView j.val.toNat with
    | .zero => jobValue 16 rd 0#64 s
    | .unknown => jobValue 16 rd (-1#64) s
    | .expired => jobValue 16 rd 6#64 s
    | .ended e =>
      jobValue 16 rd (BitVec.ofNat 64 e.status) (s.updMe fun c => if e.kernel then { c with clfstat := e.detail } else c)
    | .live =>
      match s.kernelOf j.val.toNat with
      | some x =>
        if x.stalled then jobValue 16 rd 3#64 (s.updMe fun c => { c with clfstat := clfstat 3 0 x.mi 0#32 })
        else waitOn .job s
      | none => waitOn .job s

/-- Whether the job that a waiting instruction of the context awaits is still under way (R302, R303, R328, R348); a stalled kernel ends the wait of CLWAIT. -/
def State.jobPending (s : State) (c : Nat) : Bool :=
  let x := s.ctx c
  let g := (s.tile (tileOf c)).eng
  let j := (x.getX (x.uword.extractLsb' 16 5)).val.toNat
  let id := fun (q : Nat × Nat) => q.1 == coreOf c && q.2 == j
  match (x.uword.extractLsb' 26 6).toNat with
  | 0x30 =>
    if x.uword.extractLsb' 4 5 == 0#5 then g.mq.any fun q => q.core == coreOf c && BitVec.ofNat 64 q.id == x.mjoblast
    else g.mq.any fun q => id (q.core, q.id)
  | 0x31 => g.pq.any fun q => id (q.core, q.id)
  | _ => g.cq.any fun q => id (q.core, q.id) && !(match q.kind with
    | .kernel y => y.stalled
    | _ => false)

/-- JOB_WAIT_END: MATTACH gives its job's identifier (R303); MWAIT, PWAIT and CLWAIT perform, and find the job ended or stalled. -/
def execJobWaitEnd (s : State) : Out :=
  if s.me.wait = .job && !s.jobPending s.cur then
    let w := s.me.uword
    if w.extractLsb' 26 6 == 0x30#6 && w.extractLsb' 4 5 == 0#5 then
      completeIn 32 s (s.writeRd (w.extractLsb' 21 5) (Reg.clean s.me.mjoblast))
    else resume s
  else .next s

/-- Whether a query that a core enqueued before a stamp has not completed (R335). -/
def State.queriesBefore (s : State) (core stamp : Nat) : Bool :=
  (s.core core).parts.any fun p => p.pending.any fun e => decide (e.stamp < stamp) && (match e.op with
    | .clquery _ _ _ _ _ => true
    | _ => false)

/-- The job at the head of a tile's Cellar queue, when the unit runs and the job waits for nothing (R335, R94). -/
def State.cellarHead (s : State) (t : Nat) : Option CJob :=
  match (s.tile t).eng.cq with
  | [] => none
  | j :: _ => if s.clocked (8 * t) && !s.queriesBefore j.core j.stamp && s.joined t j.after then some j else none

/-- The 32 line addresses of a table's row. -/
def rowLines (table : Nat) : List Nat := (List.range 32).map fun i => Config.cellarBase + 2048 * table + 64 * i

/-- CELLAR_LOAD_JOB: the row is written in one step, with zeros beyond LEN (R338). -/
def execCellarLoadJob (t : Nat) (s : State) : Out :=
  match s.cellarHead t with
  | none => .next s
  | some j => match j.kind with
    | .kernel _ => .next s
    | .load table _ len src fr =>
      let (s, m) := (s.joinAt t j.ctx j.after).readLines t (linesOf (frameAddrs fr (pieces src len))) j.got
      let bs := m.frameBytes fr src len ++ List.replicate (2048 - len) (0#8, false)
      let ws := (bs.zipIdx).map fun b => (Config.cellarBase + 2048 * table + b.2, b.1.1, b.1.2)
      .next ((s.writeEngine t ws).endCJob j 0 0#64)

/-- One line access of the load at the head of a tile's Cellar queue, ahead of its end (R260): the n-th line that it reads. -/
def State.cellarLine (s : State) (t n : Nat) : State :=
  match s.cellarHead t with
  | none => s
  | some j => match j.kind with
    | .kernel _ => s
    | .load _ _ len src fr =>
      match (linesOf (frameAddrs fr (pieces src len)))[n]? with
      | none => s
      | some l =>
        if (j.got.find l).isSome then s
        else
          let s := (s.joinAt t j.ctx j.after).touchHome t [64 * l]
          s.updEng t fun g => { g with cq := { j with got := j.got.set l ((s.tile t).mem.line l), after := [] } :: g.cq.drop 1 }

/-- What a move comes to (R345 to R347). -/
inductive MoveEnd where
  | go (k : Kernel)
  | fault (reason : Nat)
  | stall
  | halt (v : BitVec 32)

/-- A source port (R345): none where it cannot be read. -/
def Kernel.read (k : Kernel) (port : Nat) (imm : BitVec 16) : Option KVal :=
  if h : 0x10 ≤ port ∧ port < 0x20 then some (k.k[port - 0x10]'(by omega))
  else match port with
    | 0x00 => some {}
    | 0x01 => some { v := imm.zeroExtend 32 }
    | 0x02 => some { v := imm.signExtend 32 }
    | 0x2F => some k.aluR
    | 0x42 => some k.tabR
    | 0x4A => some k.memR
    | _ => none

/-- The operations of the ALU's trigger ports 0x21 to 0x29 (R345). -/
def kernelAlu (port : Nat) (a b : BitVec 32) : BitVec 32 :=
  match port with
  | 0x21 => a + b
  | 0x22 => a - b
  | 0x23 => a &&& b
  | 0x24 => a ||| b
  | 0x25 => a ^^^ b
  | 0x26 => a <<< (b.toNat % 32)
  | 0x27 => a >>> (b.toNat % 32)
  | 0x28 => a.sshiftRight (b.toNat % 32)
  | _ => a * b

/-- The comparisons of ports 0x31 to 0x33 (R345). -/
def kernelCmp (port : Nat) (a b : BitVec 32) : Bool :=
  match port with
  | 0x31 => a == b
  | 0x32 => a.slt b
  | _ => a.ult b

/-- A kernel address through the page list: its frame address and virtual address, or a fault (R345, R346). -/
def Kernel.address (k : Kernel) (a : BitVec 32) (store : Bool) : (Nat × Word × Bool) ⊕ Nat :=
  let j := a.toNat / 65536
  match k.pages[j]? with
  | none => .inr 3
  | some p =>
    if 64 ≤ j then .inr 3
    else if a.toNat % 4 != 0 then .inr 5
    else if store && !p.w then .inr 4
    else .inl (p.frame + a.toNat % 65536, p.va + BitVec.ofNat 64 (a.toNat % 65536), p.w)

/-- Whether the page-list check finds a stale entry (R347). -/
def Kernel.anyStale (k : Kernel) : Bool := k.pages.any fun p => p.stale

/-- MEM.LW (R345). -/
def State.kernelLoad (s : State) (t : Nat) (k : Kernel) (v : KVal) : State × MoveEnd :=
  if v.psn.isSome then (s, .fault 7)
  else if k.anyStale then (s, .stall)
  else match k.address v.v false with
    | .inr r => (s, .fault r)
    | .inl (pa, va, _) =>
      let s := s.touchHome t [pa]
      let m := (s.tile t).mem
      let x : KVal := { v := BitVec.ofNat 32 (leNat (m.bytes pa 4)), psn := if m.marked pa then some (wordOrigin va) else none }
      (s, .go { k with memR := x })

/-- MEM.SW (R345); the stores of one kernel count together for poison (R360). -/
def State.kernelStore (s : State) (t : Nat) (k : Kernel) (v : KVal) : State × MoveEnd :=
  if k.anyStale then (s, .stall)
  else match k.address k.memSA.v true with
    | .inr r => (s, .fault r)
    | .inl (pa, _, _) =>
      let ws := wbytes pa (leBytes 4 v.v.toNat) v.psn.isSome
      (s.writeEngine t ws k.wrote, .go { k with wrote := k.wrote ++ ws })

/-- TAB.I (R345). -/
def State.kernelTable (s : State) (t : Nat) (k : Kernel) (v : KVal) : State × MoveEnd :=
  let table := k.tabT.v.toNat
  if v.psn.isSome then (s, .fault 7)
  else match (s.tile t).eng.tabs.find table with
    | none => (s, .fault 6)
    | some x =>
      if x.len / 2 ^ x.ew ≤ v.v.toNat then (s, .fault 6)
      else
        let s := s.touchHome t [Config.cellarBase + 2048 * table + v.v.toNat * 2 ^ x.ew]
        let e := tableEntry (s.tile t).mem table x.ew v.v.toNat
        (s, .go { k with tabR := { v := BitVec.ofNat 32 e.1, psn := if e.2 then some (cellarOrigin table) else none } })

/-- The guard bit that a write to CMP.G selects (R345). -/
def guardOf (v : Nat) : Nat := if 1 ≤ v ∧ v ≤ 7 then v else (Config.kernelGuard v).val

/-- Write a value to a destination port (R345). -/
def State.kernelWrite (s : State) (t : Nat) (k : Kernel) (port : Nat) (v : KVal) : State × MoveEnd :=
  if h : 0x10 ≤ port ∧ port < 0x20 then (s, .go { k with k := k.k.set (port - 0x10) v (by omega) })
  else if 0x21 ≤ port ∧ port ≤ 0x29 then
    (s, .go { k with aluR := { v := kernelAlu port k.aluA.v v.v, psn := if k.aluA.psn.isSome then k.aluA.psn else v.psn } })
  else if 0x31 ≤ port ∧ port ≤ 0x33 then
    if v.psn.isSome then (s, .fault 7)
    else
      let b := 1#8 <<< k.cmpG
      (s, .go (if k.cmpG = 0 then k
        else { k with g := if kernelCmp port k.cmpA.v v.v then k.g ||| b else k.g &&& ~~~b }))
  else match port with
    | 0x00 => (s, .go k)
    | 0x20 => (s, .go { k with aluA := v })
    | 0x30 => (s, .go { k with cmpA := v })
    | 0x34 => (s, .go { k with cmpG := guardOf v.v.toNat })
    | 0x40 => (s, .go { k with tabT := v })
    | 0x41 => s.kernelTable t k v
    | 0x49 => s.kernelLoad t k v
    | 0x4B => if v.psn.isSome then (s, .fault 7) else (s, .go { k with memSA := v })
    | 0x4C => s.kernelStore t k v
    | 0x50 => if v.psn.isSome then (s, .fault 7) else (s, .go { k with mi := v.v.toNat })
    | 0x51 => if v.psn.isSome then (s, .fault 7) else (s, .halt v.v)
    | _ => (s, .fault 1)

/-- One move word (R344): guard, source, destination; mi advances by 1 unless PC.J is written. -/
def State.kernelMove (s : State) (t : Nat) (k : Kernel) (w : BitVec 32) : State × MoveEnd :=
  let src := (w.extractLsb' 24 8).toNat
  let imm := src = 1 ∨ src = 2
  let b := (k.g.getLsbD (w.extractLsb' 11 3).toNat)
  let nxt := { k with mi := k.mi + 1 }
  if ¬imm ∧ w.extractLsb' 0 11 ≠ 0#11 then (s, .fault 2)
  else if ¬imm ∧ w.getLsbD 15 ∧ b == w.getLsbD 14 then (s, .go nxt)
  else match k.read src (w.extractLsb' 0 16) with
    | none => (s, .fault 1)
    | some v => s.kernelWrite t nxt (w.extractLsb' 16 8).toNat v

/-- A move of the kernel of a job (R344, R346, R347). -/
def State.stepKernel (s : State) (t : Nat) (j : CJob) (k : Kernel) : State :=
  let len := ((s.tile t).eng.tabs.get k.code { ew := 2, len := 0 }).len
  if len / 4 ≤ k.mi then s.endCJob j 4 (clfstat 4 8 k.mi 0#32)
  else
    let a := Config.cellarBase + 2048 * k.code + 4 * k.mi
    let s := s.touchHome t [a]
    match s.kernelMove t k (BitVec.ofNat 32 (leNat ((s.tile t).mem.bytes a 4))) with
    | (s, .stall) => s.updEng t fun g => g.updKernel j.core j.id fun y => { y with stalled := true }
    | (s, .fault r) => s.endCJob j 4 (clfstat 4 r k.mi 0#32)
    | (s, .halt v) => s.endCJob j 0 (clfstat 0 0 k.mi v)
    | (s, .go k1) =>
      if k.budget ≤ k.used + 1 then s.endCJob j 5 (clfstat 5 0 k1.mi 0#32)
      else s.updEng t fun g => g.updKernel j.core j.id fun _ => { k1 with used := k.used + 1 }

/-- KERNEL_MOVE: a running kernel issues one move (R344). -/
def execKernelMove (t : Nat) (s : State) : Out :=
  match s.cellarHead t with
  | none => .next s
  | some j => match j.kind with
    | .load _ _ _ _ _ => .next s
    | .kernel k => if k.stalled then .next s else .next ((s.joinAt t j.ctx j.after).stepKernel t j k)

/-- QUEUE_ENTRY_FREE: an entry of the full queue has freed, and what waited is enqueued in this i-cycle; the context next issues in its next slot (R127). A matrix instruction performs now (log entry 71). -/
def execQueueEntryFree (s : State) : Out :=
  let u := { s with iw := s.me.uword }
  match s.me.wait with
  | .queueFree (.vec ops uses trap unlink) =>
    if s.vectorRoom then placePieces 1 ((ops.head?.map VOp.isMem).getD false) uses trap ops (if unlink then u.unlink else u) else .next s
  | .queueFree (.port kind d rd) => if s.porterFull then .next s else placePorter 1 (.port kind d rd) d u
  | .queueFree (.block send e d rd) =>
    if s.porterFull || (send && !s.vectorAccessesDone s.cur) then .next s else placePorter 1 (.block send e d rd) d u
  | .queueFree (.cell kind rd) => if s.cellarFull then .next s else placeCellar 1 kind rd u
  | .queueFree .again => if s.matrixFull then .next s else resume s
  | _ => .next s

/-- COMPLETION_PLACE_WAIT_END: a place has been given back, and what waited goes on to its queue (R331). -/
def execCompletionPlaceWaitEnd (s : State) : Out :=
  let u := { s with iw := s.me.uword }
  match s.me.wait with
  | .place (.port kind d rd) => if s.me.places < 128 then placePorter 1 (.port kind d rd) d u else .next s
  | .place (.block send e d rd) => if s.me.places < 128 then placePorter 1 (.block send e d rd) d u else .next s
  | _ => .next s

end Sys2Proof.Machine
end

