-- ==== Sys2Proof/Machine/System.lean ====
section
/-! DEFINITION. Sys2Proof/Machine/System.lean: the control registers (R17 to R21, R104 and the registers of later chapters), the system instructions (R100 to R105), invalidation (R256), and what an instruction boundary may take (R24, R27, R330 to R332, R377). -/

namespace Sys2Proof.Machine

/-- Who may reach a register (R17, R18): read and write at any level, read only at U, not at U, at M only, or FORKMASK's own rule (R114). -/
inductive CrAccess where
  | rw | read | sup | mach | fork
deriving DecidableEq, Repr

/-- The registers that exist on every core, by number (R17, R113, R137, R203, R235, R251, R296, R329, R367, R391). -/
def crCommon : Nat → Option CrAccess
  | 0x000 => some .read | 0x001 => some .read | 0x002 => some .sup | 0x003 => some .sup | 0x004 => some .sup
  | 0x005 => some .sup | 0x006 => some .sup | 0x007 => some .sup | 0x008 => some .read | 0x009 => some .sup
  | 0x010 => some .fork | 0x011 => some .read | 0x012 => some .read
  | 0x020 => some .rw | 0x021 => some .read | 0x022 => some .read | 0x023 => some .read | 0x024 => some .rw
  | 0x025 => some .rw | 0x026 => some .read | 0x027 => some .rw | 0x028 => some .rw | 0x029 => some .rw
  | 0x02A => some .read | 0x02B => some .read
  | 0x030 => some .rw | 0x031 => some .rw | 0x032 => some .read | 0x034 => some .read | 0x035 => some .read
  | 0x040 => some .sup | 0x041 => some .sup | 0x042 => some .sup
  | 0x050 => some .read | 0x051 => some .read | 0x052 => some .read | 0x053 => some .read
  | 0x060 => some .rw | 0x061 => some .rw | 0x062 => some .read | 0x063 => some .read | 0x064 => some .read
  | 0x065 => some .read | 0x066 => some .read | 0x067 => some .read | 0x068 => some .read | 0x069 => some .rw
  | 0x070 => some .rw | 0x071 => some .read | 0x072 => some .rw | 0x073 => some .sup
  | 0x080 => some .read | 0x081 => some .read
  | _ => none

/-- The registers that exist on keeper cores only (R239, R391, R411). -/
def crKeeper (n : Nat) : Bool :=
  n == 0x400 || (decide (0x410 ≤ n) && decide (n ≤ 0x418)) || n == 0x420 || n == 0x421 || (decide (0x430 ≤ n) && decide (n ≤ 0x43F)) || n == 0x440

/-- The access of a register number on a core; none where no register is assigned (R18). -/
def crAccess (keeper : Bool) (n : Nat) : Option CrAccess := if keeper && crKeeper n then some .mach else crCommon n

/-- The registers that read as zero and ignore writes on a keeper core (R21). -/
def crAbsent (n : Nat) : Bool :=
  n == 0x012 || (decide (0x020 ≤ n) && decide (n ≤ 0x029)) || n == 0x02B || n == 0x030 || n == 0x031 || n == 0x032 || n == 0x034 || n == 0x035
    || (decide (0x050 ≤ n) && decide (n ≤ 0x053)) || (decide (0x060 ≤ n) && decide (n ≤ 0x069)) || (decide (0x070 ≤ n) && decide (n ≤ 0x072))

/-- The registers whose every access drains the vector queue (R129, R203, R329, R367). -/
def crDrains (n : Nat) : Bool := n == 0x027 || n == 0x031 || n == 0x069 || n == 0x070

/-- CTXSTAT of a context (R17). -/
def State.ctxstat (s : State) (c : Nat) : Word :=
  let x := s.ctx c
  (x.priv.zeroExtend 64) ||| (x.ppriv.zeroExtend 64 <<< 2) ||| bitAt x.ie 4 ||| bitAt x.pie 5 ||| bitAt x.intrap 6 ||| bitAt x.pfxBit 7
    ||| bitAt x.dbl 8 ||| (x.ien.zeroExtend 64 <<< 16) ||| ((s.ipend c).zeroExtend 64 <<< 24)

/-- SLOTSTATE of a core (R113). -/
def State.slotstate (s : State) (k : Nat) : Word :=
  (List.range 16).foldl (fun w i => match (s.ctx (16 * k + i)).slot with
    | .free => w
    | .running => w ||| bitAt true i
    | .stopped _ => w ||| bitAt true (16 + i)) 0#64

/-- Half of STRSTAT: one stream register's state (R203). -/
def Stream.bits (t : Stream) : Word :=
  bitAt t.bound 15 ||| bitAt t.full 14 ||| bitAt t.closed 13 ||| bitAt t.short 12 ||| bitAt t.dlk 11 ||| t.ep.zeroExtend 64

/-- CTSTAT (R152). -/
def Core.ctstat (k : Core) (use : BitVec 1) : Word :=
  k.ctsel.zeroExtend 64 ||| (use.zeroExtend 64 <<< 1) ||| bitAt (ctMonotone k.ctA) 8 ||| bitAt (ctMonotone k.ctB) 9

/-- MSLOTS of a core (R296). -/
def Engines.mslots (g : Engines) (core : Nat) : Word :=
  (List.range 16).foldl (fun w i => match (g.slot i).claim with
    | .free => w
    | .claimed c => w ||| bitAt true (16 + i) ||| bitAt (c == core) i
    | .releasing _ => w ||| bitAt true (16 + i)) 0#64

/-- BACKLOG (R320): the latencies of queued and running MOPs. -/
def Engines.backlog (g : Engines) : Nat := min 0xFFFF (g.mq.map fun j => j.lat).sum

/-- MGOVSTAT (R320). -/
def Engines.mgovstat (g : Engines) : Word :=
  BitVec.ofNat 64 (2 ^ 32 * g.gov.stalls + 65536 * g.backlog + 256 * g.gov.ramp.toNat + g.gov.budget.toNat)

/-- LANEOK (R367). -/
def Core.laneok (k : Core) : Word :=
  bitAt k.logv 63 ||| BitVec.ofNat 64 (2 ^ 53 * k.logreg.toNat + 2 ^ 32 * k.loglane.toNat + 65536 * k.serviceCount + k.pair.toNat)

/-- LANEMAP (R367). -/
def Core.lanemap (k : Core) : Word := (List.range 64).foldl (fun w i => w ||| bitAt (k.retired.contains (64 * k.pair.toNat + i)) i) 0#64

/-- ECCSTAT (R367): the HBM fields are the tile's; a keeper core has none. -/
def State.eccstat (s : State) : Word :=
  let k := s.myCore
  let t := s.myTile
  let h := if isKeeper s.cur then 0 else 2 ^ 48 * t.hbmue + 2 ^ 32 * t.hbmce
  BitVec.ofNat 64 (h + 65536 * k.wayue + k.wayce)

/-- The HBM4 stack that HBMTEMP reports (R391). -/
def State.hbmStackOf (s : State) : Nat := if isKeeper s.cur then s.myCore.hbmSel.toNat else hbmOf (tileOf s.cur)

/-- HBMTEMP (R391). -/
def State.hbmtemp (s : State) : Word :=
  let n := s.hbmStackOf
  let h := s.hbmStack n
  BitVec.ofNat 64 (2 ^ 48 * n + 65536 * h.regime.toNat + h.temp.toNat)

/-- THERM_DIE_n (R391). -/
def Die.bits (d : Die) : Word := BitVec.ofNat 64 (2 ^ 32 * d.peak.toNat + 2 ^ 24 * d.st.num + d.temp.toNat)

/-- The number of a link state (R411). -/
def LState.num : LState → Nat
  | .down => 0
  | .training => 1
  | .up => 2

/-- LINKSTAT_n (R411). -/
def Link.bits (l : Link) : Word := BitVec.ofNat 64 (2 ^ 32 * l.retrains + 65536 * l.replays + l.st.num)

/-- SECSTAT (R411). -/
def Security.bits (x : Security) : Word := BitVec.ofNat 64 (2 ^ 32 * x.alarms) ||| bitAt x.locked 8 ||| bitAt x.ident 4 ||| bitAt x.lock 0

/-- A field of the caller's partition; zero without one (R138). -/
def State.partField (s : State) (f : Part → Word) : Word :=
  match s.myPart with
  | some p => f p
  | none => 0#64

/-- A field of the caller's place; zero before a placement (R235). -/
def State.placeField (s : State) (f : Place → Word) : Word :=
  match s.myTile.place with
  | some p => f p
  | none => 0#64

/-- The bank that the reading context's partition latched (R152). -/
def State.usedBank (s : State) : BitVec 1 :=
  match s.myPart with
  | some p => p.bank
  | none => 0#1

/-- A keeper register (R239, R391, R411). -/
def State.keeperRead (s : State) (n : Nat) : Word :=
  if n = 0x400 then s.kstopped.zeroExtend 64
  else if n ≤ 0x418 then (s.die (n - 0x410)).bits
  else if n = 0x420 then s.pkgPower.zeroExtend 64
  else if n = 0x421 then s.floor.zeroExtend 64
  else if n ≤ 0x43F then (s.links.get (n - 0x430) {}).bits
  else s.sec.bits

/-- The value of a register of a tile core, or of the common ones of a keeper core (R17 and later chapters). -/
def State.tileRead (s : State) (n : Nat) : Word :=
  let c := s.me
  let k := s.myCore
  let g := s.myTile.eng
  match n with
  | 0x000 => BitVec.ofNat 64 (s.ctxid s.cur)
  | 0x001 => s.ctxstat s.cur
  | 0x002 => c.pfxsave.zeroExtend 64
  | 0x003 => c.trapcause.zeroExtend 64
  | 0x004 => c.trappc
  | 0x005 => c.trapval
  | 0x006 => c.trapvec
  | 0x007 => c.trapscr
  | 0x008 => BitVec.ofNat 64 k.cyc
  | 0x009 => c.ccmp
  | 0x010 => k.forkmask.zeroExtend 64
  | 0x011 => s.slotstate (coreOf s.cur)
  | 0x012 => s.partField fun p => BitVec.ofNat 64 (16 * p.pairs + p.base)
  | 0x020 => s.partField fun p => p.vtype.zeroExtend 64
  | 0x021 => s.partField fun p => BitVec.ofNat 64 p.vl
  | 0x022 => s.partField fun p => BitVec.ofNat 64 p.vlmax
  | 0x023 => k.vmode.zeroExtend 64
  | 0x024 => s.partField Part.vsbase
  | 0x025 => s.partField Part.vseed
  | 0x026 => s.partField fun p => BitVec.ofNat 64 p.vfidx
  | 0x027 => s.partField fun p => p.vflags.zeroExtend 64
  | 0x028 => s.partField fun p => bitAt p.densEn 63 ||| BitVec.ofNat 64 (2 ^ 32 * p.held + p.thresh.toNat)
  | 0x029 => s.partField fun p => bitAt p.hwmEn 63 ||| p.hwmH.zeroExtend 64
  | 0x02A => k.ctstat s.usedBank
  | 0x02B => s.partField fun p => BitVec.ofNat 64 p.vgrant
  | 0x030 => c.selpos.zeroExtend 64
  | 0x031 => s.partField fun p => p.str0.bits ||| (p.str1.bits <<< 16)
  | 0x032 => BitVec.ofNat 64 c.chbseq
  | 0x034 => s.placeField fun p => BitVec.ofNat 64 (2 ^ 32 * (p.cores % 16) + 65536 * (p.tiles % 65536) + p.index % 65536)
  | 0x035 => s.placeField Place.va
  | 0x040 => if isKeeper s.cur then k.kroot.zeroExtend 64 <<< 12 else s.myTile.root.zeroExtend 64 <<< 12
  | 0x042 => (c.xlLevel.zeroExtend 64 <<< 4) ||| c.xlReason.zeroExtend 64
  | 0x050 => BitVec.ofNat 64 (256 * k.mstate.num + k.mrows)
  | 0x051 => c.mjoblast
  | 0x052 => g.mslots (coreOf s.cur)
  | 0x053 => g.mgovstat
  | 0x060 => c.uivec
  | 0x061 => c.uipc
  | 0x062 => c.uijob
  | 0x063 => BitVec.ofNat 64 (65536 * c.clist.length) ||| bitAt c.uiActive 8 ||| c.uiStatus.zeroExtend 64
  | 0x064 => c.pjoblast
  | 0x065 => c.pfstat
  | 0x066 => c.pfaddr
  | 0x067 => c.cjoblast
  | 0x068 => c.clfstat
  | 0x069 => s.partField fun p => bitAt p.clRange 0
  | 0x070 => s.partField Part.vporig
  | 0x071 => k.lanemap
  | 0x072 => k.laneok
  | 0x073 => s.eccstat
  | 0x080 => BitVec.ofNat 64 (2 ^ 32 * k.stretch + k.droops)
  | 0x081 => s.hbmtemp
  | _ => 0#64

/-- What a control register reads as for the context that issues (R9, R17, R21): write-only fields read as zero. -/
def State.crRead (s : State) (n : Nat) : Word :=
  if isKeeper s.cur && crKeeper n then s.keeperRead n
  else if isKeeper s.cur && crAbsent n then 0#64
  else s.tileRead n

/-- How TRAPPC, TRAPVEC, UIVEC and UIPC store an address (R19, R329): bits [47:2], bit 47 copied above, [1:0] cleared. -/
def storedPc (v : Word) : Word := (v.extractLsb' 0 48).signExtend 64 &&& ~~~3#64

/-- A write of CTXSTAT: a reserved PPRIV leaves PPRIV as it is (R17, R19). -/
def Ctx.writeStat (c : Ctx) (keeper : Bool) (v : Word) : Ctx :=
  let pp := v.extractLsb' 2 2
  { c with
    ien := v.extractLsb' 16 5
    pfxBit := v.getLsbD 7
    intrap := v.getLsbD 6
    pie := v.getLsbD 5
    ie := v.getLsbD 4
    ppriv := if pp = 2#2 || (pp = 3#2 && !keeper) then c.ppriv else pp }

/-- The write-one-to-clear fields of a stream register (R203). -/
def Stream.clear (t : Stream) (v : Word) (lo : Nat) : Stream :=
  { t with short := t.short && !v.getLsbD (lo + 12), dlk := t.dlk && !v.getLsbD (lo + 11) }

/-- A die's peak as it is written: the die raises it to its temperature at once (R391). -/
def Die.withPeak (d : Die) (v : BitVec 10) : Die := { d with peak := if v.toNat < d.temp.toNat then d.temp else v }

/-- A write of a keeper register (R391, R411). -/
def State.keeperWrite (s : State) (n : Nat) (v : Word) : State :=
  if 0x410 ≤ n ∧ n ≤ 0x418 then
    { s with dies := s.dies.set (n - 0x410) ((s.die (n - 0x410)).withPeak (v.extractLsb' 32 10)) }
  else if n = 0x421 then { s with floor := v.extractLsb' 0 16 }
  else if 0x430 ≤ n ∧ n ≤ 0x43F then
    { s with links := s.links.set (n - 0x430) { s.links.get (n - 0x430) {} with
        retrains := bitsNat v 32 32, replays := bitsNat v 16 16 } }
  else s

/-- Whether a TLBINV value names a page (R256): the 64 KiB page, a 2 MiB page around it, or every one. -/
def dropsPage (v : Word) (big : Bool) (page : Nat) : Bool :=
  v.getLsbD 1 || (if big then page / 32 == bitsNat v 16 32 / 32 else page == bitsNat v 16 32)

/-- The page number of an address, without its canonical extension. -/
def pageOf (va : Word) : Nat := bitsNat va 16 32

/-- The cores that a TLBINV concerns (R251): the caller's, or all of its tile. -/
def State.invCores (s : State) (v : Word) : List Nat :=
  if v.getLsbD 2 && !isKeeper s.cur then tileCores (tileOf s.cur) else [coreOf s.cur]

/-- Step 1 of R256: translations dropped, the walker's cache emptied, and kernels' list entries made stale (R347). -/
def State.tlbDrop (s : State) (v : Word) : State :=
  let ks := s.invCores v
  let s1 := ks.foldl (fun s k => s.updCore k fun c => { c with tlb := Machine.tlbDrop c.tlb (bitsNat v 16 32) (v.getLsbD 1) }) s
  if isKeeper s.cur then s1
  else s1.updTile (tileOf s.cur) fun t =>
    { t with
      walker := []
      eng := { t.eng with cq := t.eng.cq.map fun j => if ks.contains j.core then { j with kind := match j.kind with
        | .kernel x => .kernel { x with pages := x.pages.map fun p => if dropsPage v p.big (pageOf p.va) then { p with stale := true } else p }
        | y => y } else j } }

/-- The translations that an operation of a vector queue carries are among those dropped (R256). -/
def VOp.holds (op : VOp) (v : Word) : Bool := op.accesses.any fun a => dropsPage v a.big (pageOf a.va)

/-- The frames of a job come from translations among those dropped (R256). -/
def framesHold (f : Frames) (v : Word) : Bool := f.any fun x => dropsPage v x.big (x.page % 2 ^ 32)

/-- Whether what a full queue keeps waiting carries a dropped translation. -/
def Pended.holds (v : Word) : Pended → Bool
  | .vec ops _ _ _ => ops.any fun o => o.holds v
  | .cell (.load _ _ _ _ f) _ => framesHold f v
  | _ => false

/-- Whether a dropped translation is still held by an enqueued vector instruction, one that waits to be enqueued, or a job of the cores concerned (R256, step 2). -/
def State.heldTranslation (s : State) (v : Word) : Bool :=
  let ks := s.invCores v
  let g := s.myTile.eng
  (ks.any fun k => (s.core k).parts.any fun p => p.pending.any fun e => e.op.holds v)
    || (s.ctxs.any fun kv => ks.contains (coreOf kv.1) && (match kv.2.wait with
      | .queueFree p => p.holds v
      | _ => false))
    || (g.mq.any fun j => ks.contains j.core && (match j.op with
      | .load _ _ _ _ _ _ f => framesHold f v
      | .tld _ _ _ _ f => framesHold f v
      | .tst _ _ _ _ _ f => framesHold f v
      | _ => false))
    || (g.cq.any fun j => ks.contains j.core && (match j.kind with
      | .load _ _ _ _ f => framesHold f v
      | _ => false))

/-- Both steps of R256 as far as they go at once: the wait stands while a dropped translation is held. -/
def State.invalidate (s : State) (v : Word) : State :=
  let s1 := s.tlbDrop v
  if s1.heldTranslation v then s1.updMe fun c => { c with wait := .tlbinv v, uword := s.iw } else s1

/-- TLBINV: a write of the register (R256). -/
def execTlbinv (v : Word) (s : State) : Out := .next (s.invalidate v)

/-- A write of a register of a tile core, or of the common ones of a keeper core: each writable field takes its bits (R9). -/
def State.tileWrite (s : State) (n : Nat) (v : Word) : State :=
  match n with
  | 0x001 => s.updMe fun c => c.writeStat (isKeeper s.cur) v
  | 0x002 => s.updMe fun c => { c with pfxsave := v.extractLsb' 0 32 }
  | 0x003 => s.updMe fun c => { c with trapcause := v.extractLsb' 0 8 }
  | 0x004 => s.updMe fun c => { c with trappc := storedPc v }
  | 0x005 => s.updMe fun c => { c with trapval := v }
  | 0x006 => s.updMe fun c => { c with trapvec := storedPc v }
  | 0x007 => s.updMe fun c => { c with trapscr := v }
  | 0x009 => s.updMe fun c => { c with ccmp := v }
  | 0x010 => s.updMyCore fun k => { k with forkmask := v.extractLsb' 0 16 &&& 0xFFFE#16 }
  | 0x020 => s.updMyPart fun p => p.setType (v.extractLsb' 0 18)
  | 0x024 => s.updMyPart fun p => { p with vsbase := v }
  | 0x025 => s.updMyPart fun p => { p with vseed := v }
  | 0x027 => s.updMyPart fun p => { p with vflags := v.extractLsb' 0 6 }
  | 0x028 => s.updMyPart fun p => { p with densEn := v.getLsbD 63, thresh := v.extractLsb' 0 16 }
  | 0x029 => s.updMyPart fun p => { p with hwmEn := v.getLsbD 63, hwmH := v.extractLsb' 0 3 }
  | 0x030 => s.updMe fun c => { c with selpos := v.extractLsb' 0 4 }
  | 0x031 => s.updMyPart fun p => { p with str0 := p.str0.clear v 0, str1 := p.str1.clear v 16 }
  | 0x040 =>
    if isKeeper s.cur then s.updMyCore fun k => { k with kroot := v.extractLsb' 12 19 }
    else s.updTile (tileOf s.cur) fun t => { t with root := v.extractLsb' 12 19 }
  | 0x041 => s.invalidate v
  | 0x053 => s.updEng (tileOf s.cur) fun g => { g with gov := { g.gov with stalls := bitsNat v 32 32 } }
  | 0x060 => s.updMe fun c => { c with uivec := storedPc v }
  | 0x061 => s.updMe fun c => { c with uipc := storedPc v }
  | 0x069 => s.updMyPart fun p => { p with clRange := v.getLsbD 0 }
  | 0x070 => s.updMyPart fun p => { p with vporig := v }
  | 0x072 => s.updMyCore fun k => { k with logv := k.logv && !v.getLsbD 63, pair := v.extractLsb' 0 3 }
  | 0x073 =>
    let s1 := s.updMyCore fun k => { k with wayue := bitsNat v 16 16, wayce := bitsNat v 0 16 }
    if isKeeper s.cur then s1 else s1.updTile (tileOf s.cur) fun t => { t with hbmue := bitsNat v 48 16, hbmce := bitsNat v 32 16 }
  | 0x080 => s.updMyCore fun k => { k with stretch := bitsNat v 32 32, droops := bitsNat v 0 32 }
  | 0x081 => if isKeeper s.cur then s.updMyCore fun k => { k with hbmSel := v.extractLsb' 48 3 } else s
  | _ => s

/-- A write of a control register by the context that issues (R9, R21). -/
def State.crWrite (s : State) (n : Nat) (v : Word) : State :=
  if isKeeper s.cur && crKeeper n then s.keeperWrite n v
  else if isKeeper s.cur && crAbsent n then s
  else s.tileWrite n v

/-- REGISTER_WRITE: the writable fields of a register that is assigned on the core take their bits (R9, R18). -/
def execRegisterWrite (cr : BitVec 11) (v : Word) (s : State) : Out :=
  .next (if (crAccess (isKeeper s.cur) cr.toNat).isSome then s.crWrite cr.toNat v else s)

/-- The two checks of R18, with R114 in place of the second for FORKMASK. -/
def crCheck (cr : BitVec 11) (write : Bool) (s : State) (k : Unit → Out) : Out :=
  let p := s.me.priv
  match crAccess (isKeeper s.cur) cr.toNat with
  | none => illegal s
  | some .rw => k ()
  | some .read => if write && p == 0#2 then privViolation s else k ()
  | some .sup => if p = 0#2 then privViolation s else k ()
  | some .mach => if p ≠ 3#2 then privViolation s else k ()
  | some .fork => if write && slotOf s.cur != 0 then privViolation s else k ()

/-- Drain first when the register asks for it (R129). -/
def crDrain (cr : BitVec 11) (s : State) (k : Unit → Out) : Out := if crDrains cr.toNat then drainThen s k else k ()

/-- CRD (R104). -/
def execCrd (rd : XReg) (cr : BitVec 11) (s : State) : Out :=
  crCheck cr false s fun _ => crDrain cr s fun _ => complete s (s.writeRd rd (Reg.clean (s.crRead cr.toNat)))

/-- The writing instructions (R104): rd, if there is one, takes the value before. TLBINV costs 32 and may wait (R256). -/
def crUpdate (rd : Option XReg) (cr : BitVec 11) (src : Reg) (f : Word → Word) (s : State) : Out :=
  crCheck cr true s fun _ =>
    needClean [src] s fun _ =>
      crDrain cr s fun _ =>
        let old := s.crRead cr.toNat
        let s1 := s.crWrite cr.toNat (f old)
        let out := fun (s : State) => match rd with
          | some r => s.writeRd r (Reg.clean old)
          | none => s
        if cr = 0x041#11 then
          match s1.me.wait with
          | .tlbinv _ => if s.atLastPc then raise .accessFault pastPc s else .next s1
          | _ => completeIn 32 s (out s1)
        else complete s (out s1)

/-- CWR (R104). -/
def execCwr (rs1 : XReg) (cr : BitVec 11) (s : State) : Out := crUpdate none cr (s.x rs1) (fun _ => (s.x rs1).val) s

/-- CSET (R104). -/
def execCset (rd rs1 : XReg) (cr : BitVec 11) (s : State) : Out := crUpdate (some rd) cr (s.x rs1) (fun old => old ||| (s.x rs1).val) s

/-- CCLR (R104). -/
def execCclr (rd rs1 : XReg) (cr : BitVec 11) (s : State) : Out := crUpdate (some rd) cr (s.x rs1) (fun old => old &&& ~~~(s.x rs1).val) s

/-- TLBINV_WAIT_END: no dropped translation is held any more, and the write completes (R256). -/
def execTlbinvWaitEnd (s : State) : Out :=
  match s.me.wait with
  | .tlbinv v =>
    if s.heldTranslation v then .next s
    else
      let w := s.me.uword
      if w.extractLsb' 11 5 == 5#5 then completeIn 32 s s
      else completeIn 32 s (s.writeRd (w.extractLsb' 21 5) (Reg.clean 0#64))
  | _ => .next s

/-- ECALL (R101). -/
def execEcall (s : State) : Out := raise .ecall 0#64 s

/-- EBREAK (R101). -/
def execEbreak (s : State) : Out := raise .ebreak 0#64 s

/-- TRET (R26, R102). -/
def execTret (s : State) : Out :=
  if s.me.priv = 0#2 then privViolation s else .next (s.updMe fun c => { c.trapReturn with ready := s.now + 16 })

/-- Exchange x24 to x31 with the shadow registers (R332). -/
def Ctx.exchange (c : Ctx) : Ctx :=
  { c with
    x := Vector.ofFn fun i => if h : 24 ≤ i.val then c.shadow[i.val - 24]'(by omega) else c.x[i.val]
    shadow := Vector.ofFn fun i => c.x[i.val + 24]'(by omega) }

/-- UIRET (R103, R332). -/
def execUiret (s : State) : Out :=
  if !s.me.uiActive then illegal s
  else .next (s.updMe fun c => ({ c.exchange with uiActive := false }).jump c.uipc (s.now + 16))

/-- SLEEP (R105): it completes at once while an interrupt is pending and enabled. -/
def execSleep (s : State) : Out :=
  if s.atLastPc then raise .accessFault pastPc s
  else if s.enabledPending s.cur ≠ 0#5 then complete s s
  else waitOn .sleep s

/-- SLEEP_WAKE: an interrupt is pending and enabled, and the context goes on at the next instruction (R105). -/
def execSleepWake (s : State) : Out :=
  if s.me.wait = .sleep && s.enabledPending s.cur != 0#5 then .next (s.updMe fun c => c.advance c.ready) else .next s

/-- What must happen before a boundary is used for an entry (R63, R109, R217, R416): the wait is abandoned; offers at another module are asked back first. An interrupt leaves SLEEP behind (R105). -/
def State.atEntry (s : State) (interrupt : Bool) (k : State → State) : State :=
  if s.me.slot ≠ .running || !s.me.atBoundary then s
  else if s.awayOffers s.cur then s.leaveOffers s.cur
  else
    let s := s.withdraw s.cur
    if interrupt && s.me.wait == .sleep then k (s.updMe fun c => c.advance c.ready) else k s

/-- Whether a user completion can be delivered to the context that issues (R330). -/
def State.deliverable (s : State) : Bool :=
  let c := s.me
  !c.clist.isEmpty && c.ie && c.ien.getLsbD 0 && c.priv == 0#2 && !c.intrap && !c.uiActive && c.pfx.isNone

/-- Whether the i-cycle of the core is one in which the context that issues may issue: its slot's, and not before what it last issued has run its cost (R12 to R14). -/
def State.inSlot (s : State) : Bool := s.now % 16 == slotOf s.cur && decide (s.me.ready ≤ s.now)

/-- Whether SAVE_FULL is due in the context that issues (R23, R377). -/
def State.saveFullDue (s : State) : Bool := s.me.saveFull.isSome && !s.me.intrap

/-- Delivery of the oldest completion (R331, R332). -/
def Ctx.deliver (c : Ctx) (now : Nat) : Ctx :=
  match c.clist with
  | [] => c
  | e :: rest =>
    { (c.noteEnd e).exchange with
      uipc := c.pc
      uijob := BitVec.ofNat 64 e.id
      uiStatus := BitVec.ofNat 8 e.status
      uiActive := true
      clist := rest
      places := c.places - 1
      wait := .no
      ready := now + 16
      pc := c.uivec }

/-- USER_COMPLETION (R332): it takes the context's slot, and SAVE_FULL goes before it (R24, R27). -/
def execUserCompletion (s : State) : Out :=
  if s.deliverable && s.inSlot && !s.saveFullDue then .next (s.atEntry true fun s => s.updMe fun c => c.deliver s.now) else .next s

/-- The interrupt that a boundary takes (R24, R27): the lowest code pending and enabled, user completions apart. -/
def State.interrupt (s : State) : Option Nat :=
  if s.me.ie then [1, 2, 3, 4].find? fun k => (s.enabledPending s.cur).getLsbD k else none

/-- TRAPVAL of an interrupt (R23, R370). -/
def Ctx.interruptValue (c : Ctx) : Nat → Cause × Word
  | 1 => (.localCompare, c.ccmp)
  | 2 => (.preempt, c.preemptVal)
  | 3 => (.laneMapChanged, c.laneVal)
  | _ => (.thermal, c.thermVal)

/-- Take an interrupt in the context that issues: entry clears what a set-type interrupt left pending (R24, R370). -/
def State.enterInterrupt (s : State) (n : Nat) : State :=
  let x := s.me.interruptValue n
  (s.takeTrap x.1 x.2).updMe fun c =>
    { c with ready := s.now + 16, ipend := if 2 ≤ n then c.ipend &&& ~~~(1#3 <<< (n - 2)) else c.ipend }

/-- INTERRUPT_ENTRY: at an instruction boundary, in the context's slot, the lowest pending and enabled interrupt is taken; a deliverable user completion has the lowest code, and SAVE_FULL goes before both (R24, R27, R330). -/
def execInterruptEntry (s : State) : Out :=
  if !s.inSlot || s.saveFullDue then .next s
  else if s.deliverable then execUserCompletion s
  else match s.interrupt with
    | some n => .next (s.atEntry true fun s => s.enterInterrupt n)
    | none => .next s

/-- SAVE_FULL: the Bound cause is taken at the boundary, in the context's slot, whatever IE holds (R24, R27, R377). -/
def execSaveFull (s : State) : Out :=
  match s.me.saveFull with
  | some v =>
    if s.me.intrap || !s.inSlot then .next s
    else .next (s.atEntry false fun s => (s.takeTrap .saveFull v).updMe fun c => { c with saveFull := none, ready := s.now + 16 })
  | none => .next s

/-- Whether the end of a wait is not set by the clock alone. -/
def Wait.isOpen : Wait → Bool
  | .no => false
  | .resume => false
  | .divide => false
  | .hwm => false
  | _ => true

/-- Whether a context uses no slot before its core's clock reaches t, if nothing else happens: it waits, and has no interrupt to take. -/
def State.quietTo (s : State) (c t : Nat) : Bool :=
  let x := s.ctx c
  x.slot != .running || (x.wait.isOpen && !x.stopReq && x.saveFull.isNone && s.enabledPending c == 0#5 && (!x.ien.getLsbD 1 || decide (t ≤ x.ccmp.toNat)))

/-- LOCAL_COMPARE: the counter of the context's core reaches CCMP, and the interrupt is pending from then on (R29). The clock runs on by itself only while it runs at all and no context of the core uses a slot before (R108, R394, R401). -/
def execLocalCompare (s : State) : Out :=
  if s.clocked s.k && (List.range 16).all fun i => s.quietTo (16 * s.k + i) s.me.ccmp.toNat then
    .next (s.updMyCore fun k => { k with cyc := max k.cyc s.me.ccmp.toNat })
  else .next s

end Sys2Proof.Machine
end

