-- ==== Sys2Proof/Machine/Launch.lean ====
section
/-! DEFINITION. Sys2Proof/Machine/Launch.lean: the launch record, its parts and its checks (R226 to R230, R417). -/

namespace Sys2Proof.Machine

/-- NLEVEL, NPRED, NSEG and NCHAN of a record (R226). -/
def recLevels (bs : List Byte) : Nat := field bs 0x22 1
def recPreds (bs : List Byte) : Nat := field bs 0x23 1
def recSegs (bs : List Byte) : Nat := field bs 0x24 2
def recChans (bs : List Byte) : Nat := field bs 0x26 2

/-- The sum that RECLEN must equal (R226). -/
def recLength (bs : List Byte) : Nat := 64 + 8 * recLevels bs + 8 * recPreds bs + 32 * recSegs bs + 16 * recChans bs

/-- Where the predecessors, segments and channels of a record begin. -/
def predsAt (bs : List Byte) : Nat := 64 + 8 * recLevels bs
def segsAt (bs : List Byte) : Nat := predsAt bs + 8 * recPreds bs
def chansAt (bs : List Byte) : Nat := segsAt bs + 32 * recSegs bs

/-- A segment entry (R228). -/
def segmentOf (bs : List Byte) : Segment :=
  { va := BitVec.ofNat 64 (field bs 0 8), size := field bs 8 8, src := field bs 0x10 8, flen := field bs 0x18 4,
    perm := BitVec.ofNat 4 (field bs 0x1C 1) }

/-- A channel entry (R229): SINK gives core, tile index and register. -/
def channelOf (bs : List Byte) : Channel :=
  let f := field bs 4 1
  let r := field bs 5 1
  { ep := field bs 0 2, pep := field bs 2 2, resume := f % 2 == 1, self := f / 2 % 2 == 1
    sink := if f / 4 % 2 = 1 then some (r / 8 % 8, field bs 6 2, r % 8) else none
    ptag := BitVec.ofNat 64 (field bs 8 8) }

/-- A record, read (R226). -/
def launchOf (bs : List Byte) : Launch :=
  { prio := field bs 6 1 % 8
    mode := BitVec.ofNat 2 (field bs 7 1)
    ltag := BitVec.ofNat 64 (field bs 8 8)
    entry := BitVec.ofNat 64 (field bs 0x10 8)
    ccb := BitVec.ofNat 64 (field bs 0x18 8)
    layers := BitVec.ofNat 3 (field bs 0x20 1)
    spriv := field bs 0x21 1 % 2 == 1
    levels := (List.range (recLevels bs)).map fun i => (field bs (64 + 8 * i) 1, field bs (65 + 8 * i) 1, field bs (68 + 8 * i) 4)
    preds := (List.range (recPreds bs)).map fun i => BitVec.ofNat 64 (field bs (predsAt bs + 8 * i) 8)
    segs := (List.range (recSegs bs)).map fun i => segmentOf (bs.drop (segsAt bs + 32 * i))
    chans := (List.range (recChans bs)).map fun i => channelOf (bs.drop (chansAt bs + 16 * i)) }

/-- Tiles of a launch: the product of the counts from DOMAIN to TILE (R227). -/
def Launch.tiles (l : Launch) : Nat := ((l.levels.filter fun x => x.1 ≤ 3).map fun x => x.2.2).prod

/-- Cores per tile (R227). -/
def Launch.cores (l : Launch) : Nat := l.count 4

/-- Tiles on one module (R417). -/
def Launch.perModule (l : Launch) : Nat := l.tiles / l.modules

/-- Whether a launch has a STACK level (R233). -/
def Launch.hasStack (l : Launch) : Bool := l.levels.any fun x => x.1 == 2

/-- Whether a reserved field of a record is non-zero (R226 to R229). -/
def recReserved (bs : List Byte) : Bool :=
  field bs 6 1 / 8 != 0 || field bs 7 1 / 4 != 0 || field bs 0x20 1 / 8 != 0 || field bs 0x21 1 / 2 != 0 || field bs 0x28 24 != 0
    || ((List.range (recLevels bs)).any fun i => field bs (66 + 8 * i) 2 != 0)
    || ((List.range (recSegs bs)).any fun i => field bs (segsAt bs + 32 * i + 0x1C) 1 / 16 != 0 || field bs (segsAt bs + 32 * i + 0x1D) 3 != 0)
    || ((List.range (recChans bs)).any fun i => field bs (chansAt bs + 16 * i + 4) 1 / 8 != 0 || field bs (chansAt bs + 16 * i + 5) 1 / 64 != 0)

/-- Scope and count that a level's domain allows (R227). -/
def Launch.levelOk (l : Launch) (x : Nat × Nat × Nat) : Bool :=
  let n := x.2.2
  let within := fun (hi : Nat) => decide (1 ≤ n) && decide (n ≤ hi)
  let parts := l.count 6
  match x.1 with
  | 0 => x.2.1 == 4 && n == 1
  | 1 => x.2.1 == 4 && within 512
  | 2 => x.2.1 == 4 && within 4
  | 3 => (x.2.1 == 2 || x.2.1 == 3) && within (if l.hasStack then 64 else 256)
  | 4 => (x.2.1 == 1 || x.2.1 == 2) && within 8
  | 5 => (x.2.1 == 0 || x.2.1 == 1 || x.2.1 == 2) && within 16
  | 6 => x.2.1 == 0 && l.mode != 0#2 && (n == 1 || n == 2 || n == 4 || n == 8) && decide (n ≤ modePairs l.mode)
  | 7 => x.2.1 == 0 && l.mode != 0#2 && within (modeLanes l.mode / max 1 parts)
  | _ => false

/-- The rules of R227. -/
def Launch.levelsOk (l : Launch) : Bool :=
  (l.levels.all l.levelOk) && (l.levels.any fun x => x.1 == 3)
    && ((l.levels.zip (l.levels.drop 1)).all fun p => decide (p.1.1 < p.2.1) && decide (p.2.2.1 ≤ p.1.2.1))

/-- The rules of R228 for one segment; imgLen is the length of the staged image. -/
def Segment.ok (g : Segment) (imgLen : Nat) : Bool :=
  let page := if g.perm.getLsbD 3 then 2 ^ 21 else 2 ^ 16
  let last := g.va.toNat + g.size - 1
  canonical g.va && g.va.toNat % page == 0 && g.size != 0 && g.size % page == 0 && decide (g.flen ≤ g.size)
    && decide (last < 2 ^ 64) && canonical (BitVec.ofNat 64 last) && decide (last / 2 ^ 47 = g.va.toNat / 2 ^ 47)
    && !(g.perm.getLsbD 1 && g.perm.getLsbD 2) && g.perm.extractLsb' 0 3 != 0#3 && (!g.perm.getLsbD 1 || g.perm.getLsbD 0)
    && decide (g.src + g.flen ≤ imgLen)

/-- Whether two segments share an address. -/
def Segment.overlaps (a b : Segment) : Bool := decide (a.va.toNat < b.va.toNat + b.size) && decide (b.va.toNat < a.va.toNat + a.size)

/-- Segments good, and apart from one another (R228). -/
def Launch.segsOk (l : Launch) (imgLen : Nat) : Bool :=
  (l.segs.all fun g => g.ok imgLen) && l.segs.Pairwise fun a b => a.overlaps b = false

/-- The channel entry for an endpoint. -/
def Launch.chan (l : Launch) (e : Nat) : Option Channel := l.chans.find? fun c => c.ep == e

/-- The rules of R229 for one channel entry; raw holds its FLAGS and SINK bytes. -/
def Launch.chanOk (l : Launch) (c : Channel) (raw : Nat) : Bool :=
  decide (c.ep < 1024) && decide (c.pep < 1024) &&
  (if c.self then
    c.ptag == 0#64 && c.pep != c.ep && (match l.chan c.pep with
      | some d => d.self && d.pep == c.ep && !(c.sink.isSome && d.sink.isSome)
      | none => false)
  else c.ptag != l.ltag) &&
  (match c.sink with
  | some x => c.self && decide (x.2.1 < l.tiles)
  | none => raw == 0)

/-- The channel entries of a record (R229). -/
def Launch.chansOk (l : Launch) (bs : List Byte) : Bool :=
  ((l.chans.zipIdx).all fun x => l.chanOk x.1 (field bs (chansAt bs + 16 * x.2 + 5) 3)) && decide (l.chans.map fun c => c.ep).Nodup

/-- An entry that a check or a host can name: one accepted here, not a shadow and not one that its members still check (R231, R418). -/
def Entry.listed (e : Entry) : Bool := e.lseq != 0

/-- The retained entry of a tag (R230). -/
def State.listed (s : State) (l : Word) : Option Entry := s.entries.find? fun e => e.rec_.ltag == l && e.listed

/-- The status of a submitted record (R230, R417); member says that a member checks it (R418). -/
def State.recordStatus (s : State) (bs : List Byte) (imgLen : Nat) (member : Bool) : Nat :=
  let l := launchOf bs
  if field bs 0 4 < 64 || field bs 0 4 != recLength bs || bs.length != recLength bs then 1
  else if field bs 4 2 != 1 then 2
  else if recReserved bs then 3
  else if l.ltag == 0#64 || recLevels bs == 0 || 8 < recLevels bs || 8 < recPreds bs || 64 < recSegs bs || 1024 < recChans bs || !l.levelsOk then 4
  else if !goodEntry l.entry || !canonical l.ccb || l.ccb.toNat % 64 != 0 then 5
  else if !l.segsOk imgLen then 6
  else if !l.chansOk bs then 7
  else if !member && (l.preds.any fun p => p == l.ltag || (s.listed p).isNone) then 8
  else if (s.entry l.ltag).isSome then 9
  else if (l.mode != 0#2 && !l.layers.getLsbD 0) || Config.tiles * s.sec.domain < l.tiles || s.sec.domain < l.modules then 0xA
  else if l.prio == 7 && l.ccb == 0#64 then 0xB
  else if 4096 ≤ (s.entries.filter fun e => e.rec_.prio == l.prio && !e.isEnded && e.st == .queued).length then 0xC
  else if 2 ^ 64 ≤ s.nextLseq then 0xD
  else if !member && 1 < s.sec.domain && bitsNat l.ltag 55 9 != s.sec.module then 0xE
  else 0

end Sys2Proof.Machine
end

