-- ==== Sys2Proof/Machine/Place.lean ====
section
/-! DEFINITION. Sys2Proof/Machine/Place.lean: placement: frames, page tables, segments, the record copy, gates, endpoints and slot 0 (R235, R236), and what follows for the ballast loop (R397). -/

namespace Sys2Proof.Machine

/-- The frames of 64 KiB below the Cellar table area (R250). -/
def allFrames : List Nat := List.range (Config.cellarBase / 65536)

/-- The frames of a tile that parked processes hold (R373). -/
def State.parkedFrames (s : State) (t : Nat) : List Nat :=
  s.entries.flatMap fun e => if e.saved.isSome then e.frames.get t [] else []

/-- A tile's memory while it is laid out: what is built so far, the frames still free, those taken, and the frame that tables are cut from with the bytes of it in use. -/
structure Layout where
  mem  : Memory
  free : List Nat
  used : List Nat := []
  pool : Nat := 0
  cut  : Nat := 65536

/-- Take the lowest free frame. -/
def Layout.frame (b : Layout) : Option (Layout × Nat) :=
  match b.free with
  | [] => none
  | f :: fs => some ({ b with free := fs, used := f :: b.used }, f)

/-- Take the lowest 32 free frames that make an aligned 2 MiB page. -/
def Layout.big (b : Layout) : Option (Layout × Nat) :=
  match b.free.find? fun f => f % 32 == 0 && (List.range 32).all fun i => b.free.contains (f + i) with
  | none => none
  | some f => some ({ b with free := b.free.filter fun x => x / 32 != f / 32, used := ((List.range 32).map fun i => f + i) ++ b.used }, f)

/-- A new page table's address: tables are cut from frames, 4 KiB each (R252). -/
def Layout.table (b : Layout) : Option (Layout × Nat) :=
  if b.cut + 4096 ≤ 65536 then some ({ b with cut := b.cut + 4096 }, 65536 * b.pool + b.cut)
  else match b.frame with
    | none => none
    | some (b, f) => some ({ b with pool := f, cut := 4096 }, 65536 * f)

/-- The table that an entry points to, made when there is none yet (R253). -/
def Layout.child (b : Layout) (t : Nat) (va : Word) (lvl : Nat) : Option (Layout × Nat) :=
  let a := t + 8 * walkIndex va lvl
  let e := (b.mem.word64 a).1
  if e.getLsbD 0 then some (b, pteAddr e)
  else match b.table with
    | none => none
    | some (b, n) => some ({ b with mem := b.mem.setBytes (wbytes a (leBytes 8 (n + 1)) false) }, n)

/-- A leaf that the Innkeeper writes: V, LEAF, U and the permission (R228, R253). -/
def leafWord (pa : Nat) (perm : BitVec 4) : Nat := pa + 35 + 4 * (perm.toNat % 8)

/-- Map one page (R252, R253). -/
def Layout.map (b : Layout) (root : Nat) (va : Word) (perm : BitVec 4) (pa : Nat) : Option Layout := do
  let (b, t2) ← b.child root va 1
  let (b, t3) ← b.child t2 va 2
  if perm.getLsbD 3 then
    some { b with mem := b.mem.setBytes (wbytes (t3 + 8 * walkIndex va 3) (leBytes 8 (leafWord pa perm)) false) }
  else
    let (b, t4) ← b.child t3 va 3
    some { b with mem := b.mem.setBytes (wbytes (t4 + 8 * walkIndex va 4) (leBytes 8 (leafWord pa perm)) false) }

/-- Place a page with its first bytes; the rest is zero. -/
def Layout.page (b : Layout) (root : Nat) (va : Word) (perm : BitVec 4) (bs : List WByte) : Option Layout := do
  let (b, f) ← if perm.getLsbD 3 then b.big else b.frame
  let b ← b.map root va perm (65536 * f)
  some { b with mem := b.mem.write (bs.map fun x => (65536 * f + x.1, x.2)) }

/-- Bytes of the staged image (R421). -/
def State.imageBytes (s : State) (e : Entry) (off n : Nat) : List WByte :=
  (List.range n).map fun i => let a := 0x1000000000 + e.imgOff + off + i; (i, s.kmem.byte a, s.kmem.marked a)

/-- Place a segment, page by page (R228, R235). -/
def Layout.segment (s : State) (e : Entry) (root : Nat) (g : Segment) (b : Layout) : Option Layout :=
  let page := if g.perm.getLsbD 3 then 2 ^ 21 else 2 ^ 16
  (List.range (g.size / page)).foldlM (fun b i =>
    b.page root (g.va + BitVec.ofNat 64 (page * i)) g.perm (s.imageBytes e (g.src + page * i) (min page (g.flen - page * i)))) b

/-- The address of the record copy: the lowest 64 KiB boundary above 0 that lies outside every segment (R235). -/
def Launch.copyVa (l : Launch) : Word :=
  let tries := 65536 :: l.segs.map fun g => (g.va.toNat + g.size + 65535) / 65536 * 65536
  let ok := fun (a : Nat) => decide (a + 65536 ≤ 2 ^ 47) && l.segs.all fun g => decide (a + 65536 ≤ g.va.toNat) || decide (g.va.toNat + g.size ≤ a)
  BitVec.ofNat 64 (((tries.filter ok).min?).getD 65536)

/-- What scrubbing leaves of a tile's memory: the frames of parked processes (R235, R373). -/
def Memory.scrub (m : Memory) (kept : List Nat) : Memory :=
  { cells := m.cells.filter fun c => kept.contains (c.1 / 65536), marks := m.marks.filter fun w => kept.contains (w / 8192) }

/-- Lay out a tile's memory (steps 1 to 3 of R235): the level-1 table's address comes back with it. -/
def State.layout (s : State) (e : Entry) (t : Nat) : Option (Layout × Nat) := do
  let kept := s.parkedFrames t
  let b : Layout := { mem := (s.tile t).mem.scrub kept, free := allFrames.filter fun f => !kept.contains f }
  let (b, root) ← b.table
  let b ← e.rec_.segs.foldlM (fun b g => Layout.segment s e root g b) b
  let b ← (List.range ((e.bytes.length + 65535) / 65536)).foldlM (fun b i =>
    b.page root (e.rec_.copyVa + BitVec.ofNat 64 (65536 * i)) 1#4 ((((e.bytes.drop (65536 * i)).take 65536).zipIdx).map fun x => (x.2, x.1, false))) b
  some (b, root)

/-- What a core holds when a process is placed (R12, R114, R115, R151, R235, R282, R295, R299, R322, R335, R367). -/
def Core.placed (k : Core) (epoch : Nat) : Core :=
  { k with
    h := Vector.replicate 8 {}, forkmask := 0#16, vseed := 0#64, arr := [], epoch := epoch, ctA := [], ctB := [], ctsel := 0#1, parts := []
    parity := [], logv := false, tlb := [], l1i := [], buf := [], hold := false, barriers := [], mstate := .detached, mrows := 0
    mjob := 0, pjob := 0, cjob := 0, pended := [], cended := [] }

/-- Write bytes at a virtual address of a tile where it is mapped for a supervisor store. -/
def State.pokeTile (s : State) (t : Nat) (va : Word) (bs : List Byte) : State :=
  (bs.zipIdx).foldl (fun s b => match s.walkEngine t 1#2 (va + BitVec.ofNat 64 b.2) .store with
    | (s, .ok pa) => s.writeEngine t [(pa, b.1, false)]
    | (s, _) => s) s

/-- Steps 1 to 4 of R235 on one tile. -/
def State.placeTile (s : State) (e : Entry) (t index : Nat) : Option State := do
  let l := e.rec_
  let (b, root) ← s.layout e t
  let kept := s.parkedFrames t
  let s := s.tick.updTile t fun x =>
    { x.flush with
      mem := b.mem, latent := x.flush.latent.filter fun n => kept.contains (n / 1024), root := BitVec.ofNat 19 (root / 4096), walker := []
      top := !l.layers.getLsbD 0, mat := !l.layers.getLsbD 1, cell := !l.layers.getLsbD 2
      eng := { gov := x.eng.gov }
      place := some { ltag := l.ltag, cores := l.cores, tiles := l.tiles, index := index, va := l.copyVa } }
  let s := (List.range 8).foldl (fun s i => s.updCore (8 * t + i) fun k =>
    let k := k.placed s.fresh
    if i < l.cores then { k with vmode := l.mode } else k) s
  let s := s.updEntry l.ltag fun x => { x with frames := x.frames.set t b.used }
  some (if l.ccb = 0#64 then s else s.pokeTile t (l.ccb + 0x18#64) (List.replicate 17 0#8))

/-- Steps 1 to 4 of R235 on every tile; first is the index of the first. -/
def State.placeTiles (s : State) (e : Entry) (first : Nat) : List Nat → Option State
  | [] => some s
  | t :: ts => match s.placeTile e t first with
    | none => none
    | some s => s.placeTiles e (first + 1) ts

/-- Whether a far record lists an endpoint as joined back (R236). -/
def Launch.joinsBack (l : Launch) (e : Nat) (pep : Nat) (ltag : Word) : Bool :=
  match l.chan e with
  | some d => !d.self && d.pep == pep && d.ptag == ltag
  | none => false

/-- Whether an endpoint of a launch of this home is there to be joined (R236): its entry has not ended and lists it as joined back, and it is not CLOSED already (DEDUCED: R202 has a channel CLOSED when either end has been closed; log entry 84). -/
def State.farJoins (s : State) (far : Word) (pep ep : Nat) (ltag : Word) : Bool :=
  match s.listed far with
  | some e => !e.isEnded && e.rec_.joinsBack pep ep ltag && (match (e.eps.find pep).map Endpoint.st with
    | some (.closed _) => false
    | _ => true)
  | none => false

/-- The endpoint of a channel entry as step 5 of R235 joins it, and whether its far home must be asked (R236). JOIN goes from home to home, so a member asks no one: it learns by CLOSE of an end that its home cannot join (R218, R418). -/
def State.joinEp (s : State) (l : Launch) (c : Channel) : Endpoint × Bool :=
  let p : Endpoint := { ptag := if c.self then l.ltag else c.ptag, pep := c.pep, resume := c.resume, sink := c.sink }
  if c.self || s.remote l.ltag then (p, false)
  else if s.remote c.ptag then ({ p with joining := true }, true)
  else (if s.farJoins c.ptag c.pep c.ep l.ltag then p else { p with st := .closed none }, false)

/-- The operands of JOIN (R418). -/
def joinOps (c : Channel) : List Byte := leBytes 2 c.ep ++ leBytes 2 c.pep ++ leBytes 4 0 ++ leBytes 8 c.ptag.toNat

/-- Step 5 of R235: every listed endpoint is joined; another home is asked by JOIN (R236, R418). -/
def State.joinAll (s : State) (l : Launch) : State :=
  l.chans.foldl (fun s c =>
    let (p, ask) := s.joinEp l c
    let s := s.updEntry l.ltag fun x => { x with eps := x.eps.set c.ep p }
    if ask then s.keeperMsg (s.homeOf c.ptag) 0x11 l.ltag (joinOps c) else s) s

/-- Steps 1 to 4 of R235 on the tiles that an entry holds; none when they cannot hold it. -/
def State.placeEntry (s : State) (e : Entry) (first : Nat) : Option State := s.placeTiles e first e.tiles

/-- Slot 0 of a core starts (step 6 of R235). -/
def State.startSlot0 (s : State) (l : Launch) (k : Nat) : State :=
  let c : Ctx := Ctx.start l.entry (if l.spriv then 1#2 else 0#2)
  let s := s.setCtx (16 * k) { c with ready := (s.core k).cyc + 16 }
  if l.mode = 0#2 then s
  else s.updCore k fun x => { x with parts := [x.freshPart 0 (modePairs l.mode) (some 0) { base := 0, pairs := 0, owner := none }] }

/-- Step 6 of R235 on the tiles of an entry. -/
def State.startTiles (s : State) (l : Launch) (ts : List Nat) : State :=
  ts.foldl (fun s t => (List.range l.cores).foldl (fun s i => s.startSlot0 l (8 * t + i)) s) s

/-- An action of the ballast loop has completed (R397). -/
def State.ballastDone (s : State) (a : BallastAct) : State :=
  if s.ballast.act = some a then { s with ballast := { act := none, recent := true } } else s

/-- An entry that has been placed everywhere becomes RUNNING; a cancel that waited kills it now (R232, R235, R238). -/
def State.nowRunning (s : State) (ltag : Word) : State :=
  match s.entry ltag with
  | none => s
  | some e =>
    let s := (s.updEntry ltag fun x => { x with st := .running, resident := true, hot := false }).ballastDone (.dispatch e.lseq)
    let s := s.updEntry ltag fun x => { x with multi := x.multi.map fun m => { m with step := 4 } }
    if e.kill then (s.endMembers ltag 2).endContexts ltag
    else match e.early with
      | some (o, exit, cause) => s.endProcess ltag o exit cause
      | none => s

/-- The entry that an event names: by LSEQ, or for 0 the first shadow that satisfies a condition (R231, R418). -/
def State.named_ (s : State) (lseq : Nat) (p : Entry → Bool) : Option Entry := s.entries.find? fun e => e.lseq == lseq && p e

/-- A module of a launch on several has finished a step: the last one ends it (R418). -/
def Members.answered (m : Members) (src : Nat) : Members := { m with left := m.left.filter fun x => x != src }

/-- A module of a launch has completed step 6 (R418): the entry is RUNNING when all have. -/
def State.placedOn (s : State) (ltag : Word) (src : Nat) : State :=
  match s.entry ltag with
  | some e => match e.multi with
    | some m =>
      if m.step = 3 then
        let m := m.answered src
        let s := s.updEntry ltag fun x => { x with multi := some m }
        if m.left.isEmpty then s.nowRunning ltag else s
      else s
    | none => s
  | none => s

/-- PLACEMENT_COMPLETE: steps 5 and 6 of R235; a member reports PLACED to its home (R418). Under LOCKED no context starts (R425). -/
def execPlacementComplete (lseq : Nat) (s : State) : Out :=
  match s.named_ lseq fun e => e.st == .dispatching && (match e.multi with
    | some m => m.step == 3 && (m.home != s.sec.module || m.left.contains s.sec.module)
    | none => true) with
  | none => .next s
  | some e =>
    if s.sec.locked then .next s
    else
    let s1 := (s.joinAll e.rec_).startTiles e.rec_ e.tiles
    match e.multi with
    | none => .next (s1.nowRunning e.rec_.ltag)
    | some m =>
      if m.home = s.sec.module then .next (s1.placedOn e.rec_.ltag s.sec.module)
      else .next ((s1.updEntry e.rec_.ltag fun x => { x with st := .running, resident := true, multi := some { m with step := 4 } }).keeperMsg
        m.home 0x07 e.rec_.ltag [])

end Sys2Proof.Machine
end

