-- ==== Sys2Proof/Machine/Switch.lean ====
section
/-! DEFINITION. Sys2Proof/Machine/Switch.lean: pre-emption, refusal and restore (R349, R372 to R379, R418). -/

namespace Sys2Proof.Machine

/-- The CCB of a process on a tile, when it is mapped with W (R372); what reading it finds stays found (R360). -/
def State.ccb (s : State) (l : Launch) (t : Nat) : State × Option (List Byte) :=
  match s.walkEngine t 1#2 l.ccb .store with
  | (s, .ok pa) => (s.touchHome t [pa], some (((s.touchHome t [pa]).tile t).mem.bytes pa 64))
  | (s, _) => (s, none)

/-- SAVEVA and SAVESIZE of a CCB. -/
def ccbVa (bs : List Byte) : Word := BitVec.ofNat 64 (field bs 8 8)
def ccbSize (bs : List Byte) : Nat := field bs 0x10 8

/-- Whether every page of a save area is mapped with W (R372). -/
def State.saveMapped (s : State) (t : Nat) (va : Word) (size : Nat) : State × Bool :=
  if Config.cellarBase < size then (s, false)
  else (List.range ((size + 65535) / 65536)).foldl (fun x i =>
    let a := va + BitVec.ofNat 64 (65536 * i)
    match x.1.walkEngine t 1#2 a .store with
    | (s, .ok _) => (s, x.2 && canonical a)
    | (s, _) => (s, false)) (s, true)

/-- Whether the fields of a CCB are malformed (R372). -/
def ccbFields (bs : List Byte) : Bool :=
  field bs 0 2 != 1 || field bs 2 1 / 8 != 0 || field bs 3 1 != 0 || field bs 4 4 / 2 ^ 30 != 0 || field bs 0x29 23 != 0
    || !canonical (ccbVa bs) || (ccbVa bs).toNat % 65536 != 0 || ccbSize bs == 0 || ccbSize bs % 4096 != 0

/-- Whether a CCB is malformed (R372). -/
def State.ccbBad (s : State) (t : Nat) (bs : List Byte) : State × Bool :=
  if ccbFields bs then (s, true) else ((s.saveMapped t (ccbVa bs) (ccbSize bs)).1, !(s.saveMapped t (ccbVa bs) (ccbSize bs)).2)

/-- The layers that a CCB declares and the record grants (R372). -/
def declared (l : Launch) (bs : List Byte) : BitVec 3 := BitVec.ofNat 3 (field bs 2 1) &&& l.layers

/-- Bits set in VREGMASK. -/
def maskRegs (bs : List Byte) : List Nat := (List.range 30).filter fun i => field bs 4 4 / 2 ^ i % 2 == 1

/-- The slots that a core of a tile has claimed. -/
def Engines.claims (g : Engines) (core : Nat) : Nat := (g.slots.filter fun kv => kv.2.claim.ofCore core).length

/-- NEED of a tile (R375). -/
def State.saveNeed (s : State) (l : Launch) (t : Nat) (bs : List Byte) : Nat :=
  let d := declared l bs
  let g := (s.tile t).eng
  let ks := (List.range l.cores).map fun i => 8 * t + i
  let top := ks.map fun k => let m := (s.core k).vmode; if d.getLsbD 0 && m != 0#2 then 8192 + 4 * modeLanes m * (maskRegs bs).length else 0
  let mat := ks.map fun k =>
    if d.getLsbD 1 && (s.core k).mstate != .detached then 4096 + 2112 * (s.core k).mrows + 36864 * g.claims k else 0
  let n := 20480 + 73728 * l.cores + top.sum + mat.sum + (if d.getLsbD 2 then 139264 else 0) + 512 * g.pq.length
  (n + 4095) / 4096 * 4096

/-- Steps 4 and 5 of R374 on one tile: the status and NEED (0 when it was not computed). -/
def State.judgeTile (s : State) (l : Launch) (t : Nat) : State × Nat × Nat :=
  match s.ccb l t with
  | (s, none) => (s, 3, 0)
  | (s, some bs) =>
    match s.ccbBad t bs with
    | (s, true) => (s, 3, 0)
    | (s, false) =>
      let n := s.saveNeed l t bs
      if ccbSize bs < n then (s, 2, n) else if field bs 0x18 8 = 2 ^ 64 - 1 then (s, 4, n) else (s, 1, n)

/-- The judgement of a module's part: that of the first tile that refuses, else that of its first tile. -/
def State.judgePart (s : State) (e : Entry) : State × Nat × Nat :=
  let r := e.tiles.foldl (fun x t => let j := x.1.judgeTile e.rec_ t; (j.1, x.2 ++ [j.2])) (s, [])
  (r.1, match r.2.find? fun j => j.1 != 1 with
    | some j => j
    | none => r.2.headD (1, 0))

/-- The contexts of the tiles of an entry. -/
def State.entryCtxs (s : State) (e : Entry) : List Nat := e.tiles.flatMap s.tileCtxs

/-- A context stops for a switch (R374 step 1): at its boundary its wait is abandoned, to be begun anew. -/
def State.pause (s : State) (c : Nat) : State :=
  let x := s.ctx c
  if x.slot ≠ .running || !x.atBoundary then s
  else if s.awayOffers c then s.leaveOffers c
  else (s.withdraw c).updCtx c fun x => { x with wait := .no }

/-- Whether a job of a tile's engines has begun that a switch lets complete: a matrix job other than a MOP, or a CLLOAD (R374 step 2). -/
def Engines.begun (g : Engines) : Bool := (g.mq.any fun j => !j.got.isEmpty || !j.put.isEmpty) || g.cq.any fun j => !j.got.isEmpty

/-- Whether every context has stopped, every vector queue has drained, and no job is left that must complete (R374 steps 1 and 2). -/
def State.paused (s : State) (e : Entry) : Bool :=
  ((s.entryCtxs e).all fun c => let x := s.ctx c; x.slot != .running || (x.wait == .no && x.chan.isNone))
    && e.tiles.all fun t => !(s.tile t).eng.begun && (tileCores t).all fun k => (s.core k).parts.all fun p => p.pending.isEmpty

/-- A switch begins: the contexts of the process are being stopped. -/
def State.beginSwitch (s : State) (e : Entry) : State :=
  (s.entryCtxs e).foldl (fun s c => s.pause c) (s.updEntry e.rec_.ltag fun x => { x with switching := true })

/-- Step 3 of R374. -/
def State.flushEntry (s : State) (e : Entry) : State := e.tiles.foldl (fun s t => s.flushTile t) s

/-- NEED and STATUS go to a CCB, where it can be translated (R374, R377). -/
def State.noteCcb (s : State) (l : Launch) (t need status : Nat) : State :=
  s.pokeTile t (l.ccb + 0x20#64) (leBytes 8 need ++ leBytes 1 status)

/-- What a save keeps of a core (R376): the registers of VREGMASK, and no array at all without TOP. -/
def Core.saved (k : Core) (d : BitVec 3) (regs : List Nat) : Core :=
  let k := { k with tlb := [], l1i := [], buf := [], parity := [], arr := k.arr.filter fun kv => regs.contains kv.1 }
  let k := if d.getLsbD 0 then k else { k with vmode := 0#2, arr := [], parts := [] }
  if d.getLsbD 1 then k else { k with mstate := .detached, mrows := 0 }

/-- Cellar jobs that a save discards end CANCELLED (R348, R376). -/
def State.dropCellar (s : State) (t : Nat) : State :=
  (s.tile t).eng.cq.foldl (fun s j => s.endCJob j 2 (match j.kind with
    | .kernel k => clfstat 2 0 k.mi 0#32
    | _ => 0#64)) s

/-- Stream endpoints of a tile's partitions are unbound (R208, R376). -/
def State.dropTileStreams (s : State) (t : Nat) : State :=
  (tileCores t).foldl (fun s k => (s.core k).parts.foldl (fun s p => match p.owner with
    | some o => s.dropStreams (16 * k + o) p
    | none => s) s) s

/-- What a save keeps of the engines of a tile (R376). -/
def Engines.saved (g : Engines) (d : BitVec 3) : Engines :=
  let g := if d.getLsbD 1 then g else { g with mq := [], slots := [], acc := [] }
  if d.getLsbD 2 then g else { g with tabs := [], cq := [] }

/-- The save area takes bytes whose arrangement is the Innkeeper's own (R375). -/
def State.fillSave (s : State) (t : Nat) (va : Word) (need : Nat) : State :=
  (s.pokeTile t va ((List.range need).map fun i => Config.undefByte (s.fresh + i))).tick

/-- The save reads the registers of VREGMASK: parity mismatches in them are found (R366, R379). -/
def State.readSaved (s : State) (t : Nat) (d : BitVec 3) (regs : List Nat) : State :=
  if d.getLsbD 0 then
    (tileCores t).foldl (fun s k => (s.core k).parts.foldl (fun s p => s.checkWhole k p regs) s) s
  else s

/-- The lines of the rows of a tile's LOADED tables (R335). -/
def Engines.tableLines (g : Engines) : List Nat :=
  g.tabs.flatMap fun kv => (List.range 32).map fun i => (Config.cellarBase + 2048 * kv.1) / 64 + i

/-- The bytes of a line. -/
def Line.wbytes (x : Line) (l : Nat) : List WByte := x.bytes.zipIdx.map fun b => (64 * l + b.2, b.1, x.marks.getLsbD (b.2 / 8))

/-- What a save keeps of a tile whose process leaves it (R376): contexts, cores, engines, place, and the rows of its LOADED tables. -/
def Saved.keep (v : Saved) (s : State) (t : Nat) (d : BitVec 3) (regs : List Nat) (p : Place) : Saved :=
  let x := s.tile t
  let g := x.eng.saved d
  { ctxs := (s.tileCtxs t).foldl (fun m c => m.set c (s.ctx c)) v.ctxs
    cores := (tileCores t).foldl (fun m k => m.set k ((s.core k).saved d regs)) v.cores
    tiles := v.tiles.set t (g, d, p, x.root)
    rows := v.rows.set t (g.tableLines.foldl (fun m l => AMap.set m l (x.mem.line l)) []) }

/-- Step 6 of R374 on one tile: the state kept, the CCB and save area written, and the tile free. -/
def State.saveTile (s : State) (e : Entry) (t : Nat) : State :=
  match s.ccb e.rec_ t with
  | (s, none) => s
  | (s, some bs) =>
    let d := declared e.rec_ bs
    let need := s.saveNeed e.rec_ t bs
    let s := if d.getLsbD 2 then s else s.dropCellar t
    let s := if d.getLsbD 0 then s else s.dropTileStreams t
    let s := (s.readSaved t d (maskRegs bs)).touchHome t (((s.tile t).eng.saved d).tableLines.map fun l => 64 * l)
    let s := (s.noteCcb e.rec_ t need 1).fillSave t (ccbVa bs) need
    match (s.tile t).place with
    | none => s
    | some p =>
      let s := s.updEntry e.rec_.ltag fun y => { y with saved := some ((y.saved.getD {}).keep s t d (maskRegs bs) p) }
      (s.releaseTile t).updTile t fun x => { x with eng := { gov := x.eng.gov } }

/-- Whether a tile could take a process: ON, with none placed and none to which it is promised (R233, R373, R400, R405, R418). -/
def State.tileFree (s : State) (t : Nat) : Bool :=
  decide (t < Config.tiles) && (s.pwr t).st == .on && !s.tileBusy t

/-- The other halves of block transfers whose first half was saved with a process that ends end with it, at the position where it stands (R237, R334). -/
def State.cancelPartners (s : State) (v : Saved) : State :=
  v.tiles.foldl (fun s x => x.2.1.pq.foldl (fun s j => s.endPartner j 2 j.pos) s) s

/-- A parked process ends without a restore (R379): its entry is CANCELLED once every member has ended too (R418). -/
def State.endParked (s : State) (ltag : Word) : State :=
  match s.entry ltag with
  | some e => match e.saved with
    | some v =>
      let s := ((s.cancelPartners v).closeAll ltag).updEntry ltag fun x => { x with tiles := [], frames := [], saved := none, resident := false, kill := true }
      if e.lseq = 0 then { s.keeperMsg (s.homeOf ltag) 0x0A ltag [] with entries := s.entries.filter fun x => x.rec_.ltag != ltag }
      else s.killed ltag
    | none => s
  | none => s

/-- The switch saves on this module (R374 step 6); a cancel that came meanwhile ends the parked process (R379). -/
def State.commitSave (s : State) (e : Entry) : State :=
  let ltag := e.rec_.ltag
  let s := e.tiles.foldl (fun s t => s.saveTile e t) s
  let s := (s.updEntry ltag fun x => { x with switching := false, resident := false, status := 0, multi := x.multi.map fun m => { m with step := 6 } }).ballastDone
    (.preempt e.lseq)
  if e.kill then (s.endMembers ltag 2).endParked ltag else s

/-- SAVE_FULL becomes due in slot 0 of core 0 of the tile of index 0 (R377). -/
def State.pendSaveFull (s : State) (e : Entry) (v : Nat) : State :=
  match e.tiles.find? fun t => match (s.tile t).place with
    | some p => p.index == 0
    | none => false with
  | some t => s.updCtx (128 * t) fun c => { c with saveFull := some (BitVec.ofNat 64 v) }
  | none => s

/-- Each tile of an entry whose CCB refuses the switch is told so (R377). -/
def State.noteRefused (s : State) (e : Entry) : State :=
  e.tiles.foldl (fun s t => match s.judgeTile e.rec_ t with
    | (s, st, need) => if st = 1 then s else s.noteCcb e.rec_ t need st) s

/-- The switch is refused on this module (R377): contexts go on, and SAVE_FULL or the kill of a ballast process follows. A cancel that came meanwhile kills now (R379). -/
def State.refuseSwitch (s : State) (e : Entry) (status need : Nat) : State :=
  let ltag := e.rec_.ltag
  let s := ((s.noteRefused e).updEntry ltag fun x => { x with switching := false, status := 0, multi := x.multi.map fun m => { m with step := 4 } }).ballastDone
    (.preempt e.lseq)
  if e.kill then (s.endMembers ltag 2).endContexts ltag
  else if e.lseq = 0 then s
  else if e.rec_.prio = 7 then ((s.finishEntry ltag .done .killed).endMembers ltag 2).endContexts ltag
  else s.pendSaveFull e (need + status)

/-- The worse of two judgements: the first that refuses. -/
def worse (a b : Nat × Nat) : Nat × Nat := if a.1 ≠ 0 && a.1 ≠ 1 then a else if b.1 = 1 then (1, max a.2 b.2) else b

/-- A module's judgement reaches the home (R418): the last one decides. -/
def State.switched (s : State) (ltag : Word) (src status need : Nat) : State :=
  match s.entry ltag with
  | some e => match e.multi with
    | some m =>
      if m.step ≠ 5 || e.st != .running || !m.left.contains src then s
      else
        let j := worse (m.bad, m.need) (status, need)
        let m := { m.answered src with bad := j.1, need := j.2 }
        let s := s.updEntry ltag fun x => { x with multi := some m }
        if !m.left.isEmpty then s
        else
          let ok := m.bad == 1
          let s := (s.memberList e.rec_).foldl (fun s d => s.keeperMsg d 0x0E ltag (leBytes 1 (b2n ok) ++ leBytes 7 0)) s
          if ok then s.commitSave e else s.refuseSwitch e m.bad m.need
    | none => s
  | none => s

/-- A switch whose contexts have all stopped (R374 steps 2 to 6); on several modules the judgement goes to the home first (R418). -/
def State.finishSwitch (s : State) (e : Entry) : State :=
  let r := (s.flushEntry e).judgePart e
  let s := r.1
  let j := r.2
  match e.multi with
  | none => if j.1 = 1 then s.commitSave e else s.refuseSwitch e j.1 j.2
  | some m =>
    let s := s.updEntry e.rec_.ltag fun x => { x with status := j.1, need := j.2 }
    if m.home = s.sec.module then s.switched e.rec_.ltag m.home j.1 j.2
    else s.keeperMsg m.home 0x0D e.rec_.ltag (leBytes 1 j.1 ++ leBytes 7 0 ++ leBytes 8 j.2)

/-- Go on with a switch: contexts that have reached a boundary stop, and when all have it is finished, once. -/
def State.stepSwitch (s : State) (e : Entry) : State :=
  let s := (s.entryCtxs e).foldl (fun s c => s.pause c) s
  if e.status = 0 && s.paused e then s.finishSwitch e else s

/-- The home of a launch on several modules asks its members to switch too (R418). -/
def State.startSwitch (s : State) (e : Entry) : State :=
  let s := s.beginSwitch e
  match e.multi with
  | none => s
  | some m =>
    if m.home ≠ s.sec.module then s
    else
      let s := s.updEntry e.rec_.ltag fun x => { x with multi := some { m with step := 5, left := s.sec.module :: s.memberList e.rec_, bad := 0, need := 0 } }
      (s.memberList e.rec_).foldl (fun s d => s.keeperMsg d 0x0C e.rec_.ltag []) s

/-- What a restored core holds (R376, R378): the saved state over what belongs to the hardware. -/
def Core.restored (v now : Core) (epoch : Nat) : Core :=
  { v with
    cyc := now.cyc, segErr := now.segErr, retired := now.retired, logv := now.logv, logreg := now.logreg, loglane := now.loglane
    pair := now.pair, wayue := now.wayue, wayce := now.wayce, stretch := now.stretch, droops := now.droops, hbmSel := now.hbmSel
    parity := [], tlb := [], l1i := [], buf := [], epoch := epoch }

/-- A kernel's page list is translated again (R378): a page that no longer translates is left stale. -/
def State.retranslate (s : State) (t : Nat) (k : Kernel) : State × Kernel :=
  let r := k.pages.foldl (fun x p =>
    match walkLevels (State.readPteHome t) p.va (if p.w then .store else .load) k.priv [1, 2, 3, 4] ((x.1.tile t).root.toNat * 4096) [] x.1 with
    | (s, .leaf lvl e _) => (s, x.2 ++ [{ p with frame := leafAddr lvl e p.va, big := lvl == 3, stale := false }])
    | (s, _) => (s, x.2 ++ [{ p with stale := true }])) (s, [])
  (r.1, { k with pages := r.2 })

/-- The kernels of a restored tile are translated again (R378 step 3). -/
def State.retranslateAll (s : State) (t : Nat) : State :=
  let r := (s.tile t).eng.cq.foldl (fun x j => match j.kind with
    | .kernel k => let y := x.1.retranslate t k; (y.1, x.2 ++ [{ j with kind := .kernel y.2 }])
    | _ => (x.1, x.2 ++ [j])) (s, [])
  r.1.updEng t fun g => { g with cq := r.2 }

/-- LANE_MAP_CHANGED for a partition of which segments have retired since the save, as after a retirement between two VSETVLs (R369, R378): what lay in them is poisoned, and the last retirement is the one reported. -/
def State.pendRetired (s : State) (k : Nat) (was : List Nat) : State :=
  let new := (s.core k).retired.filter fun g => !was.contains g
  (s.core k).parts.foldl (fun s p =>
    (new.filter p.svc.contains).foldl (fun s g => (s.updCore k fun c => c.poisonSegment g).pendLane k p g) s) s

/-- Restore one tile (R378). -/
def State.restoreTile (s : State) (l : Launch) (v : Saved) (t : Nat) : State :=
  match v.tiles.find t with
  | none => s
  | some (g, d, p, root) =>
    let s := s.tick.updTile t fun x =>
      { x with place := some p, root := root, walker := [], top := !d.getLsbD 0, mat := !d.getLsbD 1, cell := !d.getLsbD 2, eng := { g with gov := x.eng.gov } }
    let s := (s.writeEngine t ((v.rows.get t []).flatMap fun x => x.2.wbytes x.1)).retranslateAll t
    let r := s.ccb l t
    let pseq := match r.2 with
      | some bs => field bs 0x18 8 + 1
      | none => 0
    let s := r.1.pokeTile t (l.ccb + 0x18#64) (leBytes 8 pseq)
    let s := (v.cores.filter fun kv => kv.1 / 8 == t).foldl (fun s kv => s.updCore kv.1 fun now => kv.2.restored now s.fresh) s
    let s := (v.ctxs.filter fun kv => tileOf kv.1 == t).foldl (fun s kv =>
      s.setCtx kv.1 (if kv.2.slot = .running then
        { kv.2 with ready := (s.core (coreOf kv.1)).cyc, ipend := kv.2.ipend ||| 0b001#3, preemptVal := BitVec.ofNat 64 pseq } else kv.2)) s
    (v.cores.filter fun kv => kv.1 / 8 == t).foldl (fun s kv => s.pendRetired kv.1 kv.2.retired) s

/-- Restore a process on this module's tiles (R378). -/
def State.restoreHere (s : State) (e : Entry) : State :=
  match e.saved with
  | none => s
  | some v =>
    (e.tiles.foldl (fun s t => s.restoreTile e.rec_ v t) s).updEntry e.rec_.ltag fun x => { x with saved := none, resident := true, hot := false }

/-- Whether the tiles of a parked process are free, and the window reaches them (R378, R394, R401). -/
def State.mayRestore (s : State) (e : Entry) : Bool :=
  e.st == .running && !e.resident && e.saved.isSome && !e.kill && e.tiles.all fun t => s.tileFree t && s.stackState (stackOf t) != 3

end Sys2Proof.Machine
end

