-- ==== Sys2Proof/Machine/Innkeeper.lean ====
section
/-! DEFINITION. Sys2Proof/Machine/Innkeeper.lean: what the Innkeeper decides: dispatch (R232 to R234), making room, pre-emption and restore (R373, R374, R378), the ballast loop (R397), cancels (R238), acceptance (R230, R231), and its messages with the Innkeepers of other modules (R418). -/

namespace Sys2Proof.Machine

/-- Whether an Innkeeper acts: the module has booted, a keeper core runs, its clocks run and the part is not locked (R239, R394, R422, R425). -/
def State.keeperUp (s : State) : Bool := s.sec.up && s.kstopped != 0xF#4 && s.clocked keeperCore0 && !s.sec.locked

/-- The modules of a launch in ascending number (R418). -/
def State.modulesOf (s : State) (l : Launch) : List Nat := (s.memberList l).foldl natsInsert [s.homeOf l.ltag]

/-- Whether an entry's predecessors are all DONE with EXITED (R232). One that is no longer retained ended so, or its dependants would have failed. -/
def State.predsMet (s : State) (l : Launch) : Bool :=
  l.preds.all fun p => match s.entry p with
    | some e => e.st == .done && e.outcome == .exited
    | none => true

/-- Whether a launch on several modules is ready and reserves on another module first (R418). -/
def State.startsAway (s : State) (e : Entry) : Bool :=
  match e.multi with
  | some m => m.step == 1 && e.lseq != 0 && e.st == .queued && s.predsMet e.rec_ && (s.modulesOf e.rec_).head? != some s.sec.module
  | none => false

/-- Whether an entry counts as ready for tiles of this module (R232, R418). -/
def State.readyHere (s : State) (e : Entry) : Bool :=
  match e.multi with
  | none => e.st == .queued && s.predsMet e.rec_
  | some m =>
    if e.lseq = 0 then m.step == 2 && e.st == .queued
    else if m.step = 1 then e.st == .queued && s.predsMet e.rec_ && !s.startsAway e
    else m.step == 2 && e.tiles.isEmpty && m.left.head? == some s.sec.module

/-- The ready entry of a queue that dispatches first (R233): one asked for by R237, else in the order of acceptance. -/
def State.firstReady (s : State) (q : Nat) : Option Entry :=
  let c := s.entries.filter fun e => e.rec_.prio == q && s.readyHere e
  match c.find? fun e => e.hot with
  | some e => some e
  | none => c.head?

/-- The tiles of a module that are free. -/
def State.freeTiles (s : State) : List Nat := (List.range Config.tiles).filter s.tileFree

/-- Whether a launch's tiles of one module can be had (R233). -/
def State.fits (s : State) (l : Launch) : Bool :=
  if l.hasStack then
    decide (l.count 2 ≤ ((List.range 4).filter fun k => decide (l.count 3 ≤ (s.freeTiles.filter fun t => stackOf t == k).length)).length)
  else decide (l.perModule ≤ s.freeTiles.length)

/-- Groups of n from a list. -/
def groups : Nat → Nat → List Nat → List (List Nat)
  | 0, _, _ => []
  | k + 1, n, l => l.take n :: groups k n (l.drop n)

/-- Whether chosen tiles suit a launch (R233): free, apart, and by stacks where the record has a STACK level. -/
def State.tilesOk (s : State) (l : Launch) (ts : List Nat) : Bool :=
  ts.length == l.perModule && decide ts.Nodup && ts.all s.tileFree &&
    (!l.hasStack ||
      (let gs := groups (l.count 2) (l.count 3) ts
       (gs.all fun g => g.all fun t => stackOf t == stackOf (g.headD 0)) && decide (gs.map fun g => stackOf (g.headD 0)).Nodup))

/-- The lowest free tiles that suit a launch, where enough are free (R233): the model takes these when the schedule chooses none (log entry 63). -/
def State.lowTiles (s : State) (l : Launch) : List Nat :=
  let free := s.freeTiles
  if l.hasStack then
    ((((List.range 4).map fun k => free.filter fun t => stackOf t == k).filter fun ts => decide (l.count 3 ≤ ts.length)).take (l.count 2)).flatMap fun ts =>
      ts.take (l.count 3)
  else free.take l.perModule

/-- Change the multi-module record of an entry. -/
def State.updMulti (s : State) (ltag : Word) (f : Members → Members) : State :=
  s.updEntry ltag fun e => { e with multi := e.multi.map f }

/-- Ask the next module for its tiles, when it is another one (R418). -/
def State.askNext (s : State) (ltag : Word) : State :=
  match s.entry ltag with
  | some e => match e.multi.bind fun m => m.left.head? with
    | some d => if d = s.sec.module then s else s.keeperMsg d 0x04 ltag []
    | none => s
  | none => s

/-- A module's part of a launch on several is placed, when its tiles can hold it (R418 item 3). -/
def State.placePart (s : State) (ltag : Word) (f : Members → Members) : Option State :=
  match s.entry ltag with
  | none => none
  | some e => (s.placeEntry e (s.firstIndex e.rec_)).map fun s => s.updMulti ltag f

/-- Every module has reserved: PLACE goes to every member, and the home places its own part (R418 item 3); while its tiles cannot hold it, the launch waits as it is. -/
def State.placeAll (s : State) (ltag : Word) : State :=
  match s.entry ltag with
  | none => s
  | some e => match s.placePart ltag fun m => { m with step := 3, left := s.modulesOf e.rec_ } with
    | some s => (s.memberList e.rec_).foldl (fun s d => s.keeperMsg d 0x06 ltag []) s
    | none => s

/-- Whether the tiles that an entry holds are ON with their clocks running, so that the window reaches them (R259, R394, R401). -/
def State.tilesUp (s : State) (e : Entry) : Bool := e.tiles.all fun t => (s.pwr t).st == .on && s.stackState (stackOf t) != 3

/-- A module of a launch has been restored: the last one ends the restore (R418). -/
def State.restoredBy (s : State) (ltag : Word) (src : Nat) : State :=
  match s.entry ltag with
  | some e => match e.multi with
    | some m =>
      if e.lseq = 0 || m.step ≠ 8 then s
      else
        let m := m.answered src
        if m.left.isEmpty then (s.updMulti ltag fun _ => { m with step := 4 }).ballastDone (.restore e.lseq) else s.updMulti ltag fun _ => m
    | none => s
  | none => s

/-- A module restores its part of a launch on several, once its tiles can be reached (R378, R418 item 7). -/
def State.restorePart (s : State) (e : Entry) (m : Members) : State :=
  if !(s.tilesUp e && e.saved.isSome) then s
  else if m.home = s.sec.module then (s.restoreHere e).restoredBy e.rec_.ltag s.sec.module
  else ((s.restoreHere e).updMulti e.rec_.ltag fun m => { m with step := 4, bad := 0 }).keeperMsg m.home 0x10 e.rec_.ltag []

/-- Every module has reserved its tiles again: RESTORE goes to every member, and the home restores its own part (R418 item 7). -/
def State.restoreAll (s : State) (ltag : Word) : State :=
  match s.entry ltag with
  | none => s
  | some e =>
    let s := s.updMulti ltag fun m => { m with step := 8, left := s.modulesOf e.rec_ }
    let s := (s.memberList e.rec_).foldl (fun s d => s.keeperMsg d 0x0F ltag []) s
    match e.multi with
    | some m => s.restorePart e m
    | none => s

/-- A module holds its tiles: the next one is asked, or all have (R418 items 2 and 7). -/
def State.reservedBy (s : State) (ltag : Word) (src : Nat) : State :=
  match s.entry ltag with
  | none => s
  | some e => match e.multi with
    | none => s
    | some m =>
      if e.lseq = 0 || e.isEnded || m.left.head? != some src then s
      else if m.step = 2 && (e.st == .queued || e.st == .dispatching) then
        let s := s.updEntry ltag fun e => { e with st := .dispatching, multi := some (m.answered src) }
        if (m.answered src).left.isEmpty then s.placeAll ltag else s.askNext ltag
      else if m.step = 7 && e.st == .running && !e.kill then
        let s := s.updMulti ltag fun _ => m.answered src
        if (m.answered src).left.isEmpty then s.restoreAll ltag else s.askNext ltag
      else s

/-- The tiles of a launch on this module are taken: it is placed, or they are reserved for it (R233, R418). -/
def State.take (s : State) (e : Entry) (ts : List Nat) : State :=
  let ltag := e.rec_.ltag
  match e.multi with
  | none =>
    match (s.updEntry ltag fun e => { e with tiles := ts, st := .dispatching }).placeEntry { e with tiles := ts } 0 with
    | some s => s
    | none => s
  | some m =>
    if e.lseq = 0 then
      (s.updEntry ltag fun e => { e with tiles := ts, st := .dispatching }).keeperMsg m.home 0x05 ltag []
    else
      let s := if m.step = 1 then s.updMulti ltag fun m => { m with step := 2, left := s.modulesOf e.rec_ } else s
      (s.updEntry ltag fun e => { e with tiles := ts }).reservedBy ltag s.sec.module

/-- Whether the order of R233 lets an entry take tiles now: no ready entry of a lower queue waits, and it is the first of its own. -/
def State.myTurn (s : State) (e : Entry) : Bool :=
  ((List.range e.rec_.prio).all fun p => (s.firstReady p).isNone) && (s.firstReady e.rec_.prio).map (fun f => f.rec_.ltag) == some e.rec_.ltag

/-- Whether the ballast loop may add to the power now (R234, R397 item 2). -/
def State.ballastMay (s : State) : Bool := decide (s.pkgPower < s.floor) && (List.range 9).all fun d => decide ((s.die d).st.num < 2)

/-- Whether the ballast loop lets an entry start to dispatch: queue 7 waits for the loop of its home, and its conditions hold until the dispatch begins (R234, R397, R418). -/
def State.ballastLets (s : State) (e : Entry) : Bool :=
  e.rec_.prio != 7 || e.lseq == 0 || (e.multi.any fun m => m.step == 2) || (s.ballast.act == some (.dispatch e.lseq) && s.ballastMay)

/-- Whether an entry of this module, or a shadow, may begin to dispatch at all (R232, R233, R418). -/
def State.mayDispatch (s : State) (e : Entry) : Bool :=
  s.ballastLets e && (s.startsAway e || (s.readyHere e && s.myTurn e))

/-- An entry begins to dispatch (R233): it takes tiles, or the first module of its launch is asked (R418). -/
def State.beginDispatch (s : State) (e : Entry) (tiles : List Nat) : State :=
  if s.startsAway e then (s.updMulti e.rec_.ltag fun m => { m with step := 2, left := s.modulesOf e.rec_ }).askNext e.rec_.ltag
  else s.take e tiles

/-- Part of a launch that waits for its tiles to hold it is placed (R418 item 3). -/
def State.retryPlace (s : State) (e : Entry) : State :=
  match e.multi with
  | some m =>
    if m.step ≠ 2 || e.st != .dispatching then s
    else if m.home = s.sec.module then (if m.left.isEmpty then s.placeAll e.rec_.ltag else s)
    else if m.bad = 1 then (s.placePart e.rec_.ltag fun m => { m with step := 3, bad := 0 }).getD s
    else s
  | none => s

/-- Every dispatch that is due is made, n of them at most, on the lowest free tiles (R233). -/
def State.dispatchDue : Nat → State → State
  | 0, s => s
  | n + 1, s =>
    match s.entries.find? fun e => s.mayDispatch e && (s.startsAway e || s.fits e.rec_) with
    | none => s
    | some e => State.dispatchDue n (s.beginDispatch e (s.lowTiles e.rec_))

/-- DISPATCH: a ready entry takes tiles by the rules of R233, or a launch on several modules asks the first of them (R418); LSEQ 0 names a shadow. The schedule chooses among the free tiles. -/
def execDispatch (lseq : Nat) (tiles : List Nat) (s : State) : Out :=
  if !s.keeperUp then .next s
  else match s.named_ lseq fun e => s.mayDispatch e && (s.startsAway e || s.tilesOk e.rec_ tiles) with
    | some e => .next (s.beginDispatch e tiles)
    | none => match s.named_ lseq fun e => e.st == .dispatching && (e.multi.any fun m => m.step == 2) with
      | some e => .next (s.retryPlace e)
      | none => .next s

/-- The resident queue-7 process of highest LSEQ (R233, R234). -/
def State.topBallast (s : State) : Option Entry :=
  s.entries.foldl (fun b e =>
    if e.rec_.prio == 7 && e.lseq != 0 && e.st == .running && e.resident then
      match b with
      | some x => if x.lseq < e.lseq then some e else b
      | none => some e
    else b) none

/-- Whether a ready entry of queues 0 to 6 that does not fit needs the process to make room (R233). -/
def State.makesRoom (s : State) (e : Entry) : Bool :=
  (s.topBallast.map fun x => x.lseq) == some e.lseq && (List.range 7).any fun q => match s.firstReady q with
    | some w => !s.fits w.rec_
    | none => false

/-- Whether any ready entry waits (R233). -/
def State.anyReady (s : State) : Bool := s.entries.any s.readyHere

/-- Whether the Innkeeper may switch a process out (R233, R234, R373, R397, R418): a RUNNING resident one with a CCB. Of queue 7, the one that must make room, or the one that the ballast loop chose while the power is above the floor; of another queue only one on this module alone, and while no entry is ready, since none of those is pre-empted to dispatch (log entry 37). -/
def State.maySwitch (s : State) (e : Entry) : Bool :=
  e.st == .running && e.resident && !e.kill && e.rec_.ccb != 0#64 &&
    (if e.rec_.prio = 7 then s.makesRoom e || (s.ballast.act == some (.preempt e.lseq) && decide (s.floor < s.pkgPower))
     else e.multi.isNone && !s.anyReady)

/-- PREEMPTION: a switch begins, or goes on (R374). A shadow, named by 0, goes on at the word of its home (R418). -/
def execPreemption (lseq : Nat) (s : State) : Out :=
  if !s.keeperUp then .next s
  else match s.named_ lseq fun e => e.switching && e.st == .running && (lseq != 0 || e.status == 0) with
    | some e => .next (s.stepSwitch e)
    | none =>
      match s.named_ lseq fun e => lseq != 0 && s.maySwitch e with
      | some e =>
        let s := s.startSwitch e
        .next (match s.entry e.rec_.ltag with
          | some e => s.stepSwitch e
          | none => s)
      | none => .next s

/-- Whether a restore of an entry may begin (R234, R378, R397): the ballast loop chose it and its conditions still hold, if it is of queue 7. -/
def State.restoreLets (s : State) (e : Entry) : Bool := e.rec_.prio != 7 || (s.ballast.act == some (.restore e.lseq) && s.ballastMay)

/-- A parked process of this home begins to be restored (R378): at once, or on several modules once each has reserved its tiles again, in ascending order (R418 item 7). -/
def State.beginRestore (s : State) (e : Entry) : State :=
  match e.multi with
  | none => (s.restoreHere e).ballastDone (.restore e.lseq)
  | some _ =>
    let ltag := e.rec_.ltag
    let s := s.updMulti ltag fun m => { m with step := 7, left := s.modulesOf e.rec_ }
    if (s.modulesOf e.rec_).head? = some s.sec.module then s.reservedBy ltag s.sec.module else s.askNext ltag

/-- Whether a parked process of this home may begin to be restored: its tiles are free, or lie on several modules of which another reserves first (R378, R418). -/
def State.mayBegin (s : State) (e : Entry) : Bool :=
  e.lseq != 0 && s.restoreLets e && (match e.multi with
    | none => s.mayRestore e
    | some m => m.step == 6 && e.st == .running && e.saved.isSome && !e.kill && (s.mayRestore e || (s.modulesOf e.rec_).head? != some s.sec.module))

/-- PROCESS_RESTORE: a parked process is written back to its tiles (R378). On several modules their tiles are reserved again first (R418). -/
def execProcessRestore (lseq : Nat) (s : State) : Out :=
  if !s.keeperUp then .next s
  else match s.named_ lseq s.mayBegin with
    | some e => .next (s.beginRestore e)
    | none =>
      match s.named_ lseq fun e => e.multi.any fun m => (m.step == 7 && s.mayRestore e && (lseq == 0 || m.left.head? == some s.sec.module)) ||
          (m.step == 8 && e.saved.isSome && (if lseq = 0 then m.bad == 1 else m.left.contains s.sec.module)) with
      | none => .next s
      | some e => match e.multi with
        | none => .next s
        | some m =>
          if m.step = 8 then .next (s.restorePart e m)
          else if lseq = 0 then .next ((s.updMulti e.rec_.ltag fun m => { m with step := 8 }).keeperMsg m.home 0x05 e.rec_.ltag [])
          else .next (s.reservedBy e.rec_.ltag s.sec.module)

/-- Whether an action of the ballast loop still runs (R397): it has begun and can complete; one that has only been chosen does not run yet. -/
def State.ballastRuns (s : State) : Bool :=
  match s.ballast.act with
  | none => false
  | some (.dispatch l) => s.entries.any fun e => e.lseq == l && (e.st == .dispatching || (e.st == .queued && e.multi.any fun m => m.step == 2))
  | some (.restore l) => s.entries.any fun e => e.lseq == l && e.st == .running && (e.multi.any fun m => m.step == 7 || m.step == 8)
  | some (.preempt l) => s.entries.any fun e => e.lseq == l && e.st == .running && e.switching

/-- The parked queue-7 process that is restored next (R234, R237): one that was asked for, else that of lowest LSEQ. -/
def State.nextRestore (s : State) : Option Entry :=
  let c := s.entries.filter fun e => e.rec_.prio == 7 && e.lseq != 0 && e.st == .running && e.saved.isSome && !e.kill
  match c.find? fun e => e.hot with
  | some e => some e
  | none => c.foldl (fun b e => match b with
      | some x => if e.lseq < x.lseq then some e else b
      | none => some e) none

/-- The queue-7 entry that the ballast loop dispatches next, when it may (R233, R234). -/
def State.nextBallast (s : State) : Option Entry :=
  if (List.range 7).any fun p => (s.firstReady p).isSome then none
  else match s.entries.find? fun e => e.rec_.prio == 7 && e.lseq != 0 && e.st == .queued && (s.readyHere e || s.startsAway e) with
    | none => none
    | some first =>
      let e := ((s.entries.find? fun e => e.rec_.prio == 7 && e.lseq != 0 && e.hot && (s.readyHere e || s.startsAway e))).getD first
      if s.startsAway e || s.fits e.rec_ then some e else none

/-- What the ballast loop does below the floor (R397 item 2). -/
def State.addBallast (s : State) : State :=
  if !s.ballastMay then s
  else match s.nextRestore with
    | some e => if e.tiles.all fun t => s.tileFree t then { s with ballast := { s.ballast with act := some (.restore e.lseq) } } else s
    | none => match s.nextBallast with
      | some e => { s with ballast := { s.ballast with act := some (.dispatch e.lseq) } }
      | none => s

/-- POWER_UPDATE: PKG_POWER takes the mean of the millisecond that has ended, and the ballast loop runs once (R397). -/
def execPowerUpdate (watts : BitVec 16) (s : State) : Out :=
  let s := { s with pkgPower := watts }
  if !s.keeperUp || s.ballastRuns then .next s
  else if s.ballast.recent then .next { s with ballast := {} }
  else
    let s := { s with ballast := {} }
    if watts < s.floor then .next s.addBallast
    else if s.floor < watts then
      match s.topBallast with
      | some e => .next { s with ballast := { act := some (.preempt e.lseq) } }
      | none => .next s
    else .next s

/-- A switch that must begin does: of the queue-7 process that has to make room (R233), or that the ballast loop chose (R397). -/
def State.switchDue (s : State) : State :=
  match s.topBallast with
  | some e => if !e.switching && s.maySwitch e then s.startSwitch e else s
  | none => s

/-- A restore that the ballast loop chose begins as soon as its tiles are free (R378, R397). -/
def State.restoreDue (s : State) : State :=
  match s.entries.find? fun e => s.ballast.act == some (.restore e.lseq) && s.mayBegin e with
  | some e => s.beginRestore e
  | none => s

/-- The Innkeeper applies its rules (R233, R234): what is due begins. -/
def State.innkeep (s : State) : State :=
  if s.keeperUp && !s.entries.isEmpty then ((s.dispatchDue (s.entries.length + 1)).switchDue).restoreDue else s

/-- A shadow or an unplaced home entry goes, with nothing kept (R230, R418). -/
def State.dropEntry (s : State) (ltag : Word) : State := { s with entries := s.entries.filter fun e => e.rec_.ltag != ltag }

/-- Cancel an entry of this home (R238, R379, R418): the status of the command comes with it. -/
def State.cancelNow (s : State) (ltag : Word) : State × Nat :=
  match s.listed ltag with
  | none => (s, 0x41)
  | some e =>
    let kill := fun (s : State) => s.updEntry ltag fun e => { e with kill := true }
    match e.st with
    | .done => (s, 0x40)
    | .cancelled => (s, 0x40)
    | .queued =>
      ((((s.endMembers ltag 3).finishEntry ltag .cancelled .cancelledQueued).closeFars e.rec_).settleDeps, 0)
    | .dispatching => (kill s, 0)
    | .running =>
      if e.switching then (kill s, 0)
      else if e.saved.isSome then (((kill s).endMembers ltag 2).endParked ltag, 0)
      else (((kill s).endMembers ltag 2).endContexts ltag, 0)

/-- A cancel acts after a dispatch that falls at the same event (R232). -/
def State.cancel (s : State) (ltag : Word) : State × Nat :=
  (if s.keeperUp then s.dispatchDue (s.entries.length + 1) else s).cancelNow ltag

/-- Regions of staging memory that are still held (R421): not released, or with a launch from them that has not ended. -/
def State.sweep (s : State) : State :=
  { s with regions := s.regions.filter fun r => !r.released || s.entries.any fun e => e.region == r.off && decide (0 < r.size) && !e.isEnded }

/-- The lowest free range of staging memory with a size (R421). -/
def State.freeRange (s : State) (size : Nat) : Option Nat :=
  let tries := 0 :: s.regions.map fun r => r.off + r.size
  (tries.filter fun a => decide (a + size ≤ 2 ^ 30) && s.regions.all fun r => decide (a + size ≤ r.off) || decide (r.off + r.size ≤ a)).min?

/-- Staging addresses lie from here (R258, R421). -/
def stagingBase : Nat := 0x1000000000

/-- A reply as the datagram that carries it (R419). -/
def Reply.wire (r : Reply) : List Byte :=
  leBytes 4 hostMagic.toNat ++ leBytes 2 1 ++ leBytes 2 r.op.toNat ++ leBytes 8 r.reqid.toNat ++ leBytes 4 r.body.length ++ leBytes 2 r.status
    ++ leBytes 10 0 ++ r.body

/-- A reply goes to a host source (R419, R420): the last 64 are kept. -/
def State.reply (s : State) (src : Nat) (r : Reply) : State :=
  let h := s.hosts.get src {}
  { s with hosts := s.hosts.set src { h with replies := ((h.replies ++ [r]).reverse.take 64).reverse }, sent := s.sent ++ [(src, r.wire)] }

/-- The reply to a SUBMIT (R419). -/
def State.submitted (s : State) (src : Nat) (reqid : Word) (status lseq : Nat) : State :=
  s.reply src { reqid := reqid, op := 2#16, status := status, body := if status = 0 then leBytes 8 lseq else [] }

/-- An entry is accepted (R231, R232): it takes the next LSEQ and enters its queue behind the others; one with a failed predecessor ends at once. -/
def State.accept (s : State) (e : Entry) : State :=
  let s := s.dropEntry e.rec_.ltag
  ({ s with entries := s.entries ++ [{ e with lseq := s.nextLseq }], nextLseq := s.nextLseq + 1 }).settleDeps

/-- Image bytes that go to a member in one IMAGE message: the size is the model's own. -/
def imageChunk : Nat := 65536

/-- The home sends a launch's image to a member (R418 item 1). -/
def State.sendImage (s : State) (e : Entry) (d : Nat) : State :=
  (List.range ((e.imgLen + imageChunk - 1) / imageChunk)).foldl (fun s i =>
    s.keeperMsg d 0x03 e.rec_.ltag (leBytes 8 (imageChunk * i) ++
      s.kmem.bytes (stagingBase + e.imgOff + imageChunk * i) (min imageChunk (e.imgLen - imageChunk * i)))) s

/-- ADMIT at a member (R418): the record is checked, staging memory reserved, and a shadow kept. -/
def State.admitLaunch (s : State) (src : Nat) (ltag : Word) (ops : List Byte) : State :=
  let s := s.sweep
  let n := leNat (ops.take 8)
  let bs := ops.drop 8
  if ops.length < 72 || s.homeOf ltag ≠ src || (launchOf bs).ltag ≠ ltag then s
  else
    let status := s.recordStatus bs n true
    let answer := fun (s : State) (st : Nat) => s.keeperMsg src 0x02 ltag (leBytes 1 st ++ leBytes 7 0)
    if status ≠ 0 then answer s status
    else match s.freeRange n with
      | none => answer s 0x45
      | some off =>
        let e : Entry :=
          { lseq := 0, rec_ := launchOf bs, bytes := bs, imgOff := off, imgLen := n, region := off, multi := some { home := src, step := 1 } }
        answer { s with
          entries := s.entries ++ [e]
          regions := if n = 0 then s.regions else s.regions ++ [{ off := off, size := n, rkey := 0#32, released := true, host := false }] } 0

/-- ADMITTED at the home (R418 item 1): the last answer accepts the launch or refuses it, with 0x0D when no LSEQ is left by then (R5, R230). -/
def State.admitted (s : State) (src : Nat) (ltag : Word) (status : Nat) : State :=
  match s.entry ltag with
  | none => s
  | some e => match e.multi with
    | none => s
    | some m =>
      if e.lseq ≠ 0 || m.home ≠ s.sec.module || m.step ≠ 0 || !m.left.contains src then s
      else
        let m := { m.answered src with bad := if m.bad = 0 then status else m.bad }
        let m := if m.left.isEmpty && m.bad = 0 && decide (2 ^ 64 ≤ s.nextLseq) then { m with bad := 0xD } else m
        let s := s.updMulti ltag fun _ => m
        if !m.left.isEmpty then s
        else if m.bad ≠ 0 then
          let s := (s.endMembers ltag 3).dropEntry ltag
          match m.reply with
          | some (h, q) => s.submitted h q m.bad 0
          | none => s
        else
          let s := match m.reply with
            | some (h, q) => s.submitted h q 0 s.nextLseq
            | none => s
          let s := s.accept { e with multi := some { m with step := 1, reply := none } }
          (s.memberList e.rec_).foldl (fun s d => s.sendImage e d) s

/-- The shadow of a launch, at the word of its home (R418). -/
def State.shadow (s : State) (src : Nat) (ltag : Word) : Option (Entry × Members) :=
  match s.entry ltag with
  | some e => match e.multi with
    | some m => if e.lseq = 0 && m.home = src && m.home ≠ s.sec.module then some (e, m) else none
    | none => none
  | none => none

/-- IMAGE at a member (R418). -/
def State.imageIn (s : State) (src : Nat) (ltag : Word) (ops : List Byte) : State :=
  match s.shadow src ltag with
  | some (e, _) =>
    let off := leNat (ops.take 8)
    let bs := ops.drop 8
    if ops.length < 8 || e.imgLen < off + bs.length then s
    else { s with kmem := s.kmem.write (wbytes (stagingBase + e.imgOff + off) bs false) }
  | none => s

/-- RESERVE at a member: the reservation has reached it, for a placement or for a restore (R418 items 2 and 7). -/
def State.reserveIn (s : State) (src : Nat) (ltag : Word) : State :=
  match s.shadow src ltag with
  | some (_, m) => if m.step = 1 then s.updMulti ltag fun m => { m with step := 2 } else if m.step = 6 then s.updMulti ltag fun m => { m with step := 7 } else s
  | none => s

/-- PLACE at a member that holds its tiles (R418 item 3). -/
def State.placeIn (s : State) (src : Nat) (ltag : Word) : State :=
  match s.shadow src ltag with
  | some (e, m) =>
    if m.step = 2 && e.st == .dispatching then
      let s := s.updMulti ltag fun m => { m with bad := 1 }
      (s.placePart ltag fun m => { m with step := 3, bad := 0 }).getD s
    else s
  | none => s

/-- The outcome of a slot 0 that stopped with a reason (R232). -/
def outcomeOf (reason : Nat) : Outcome := if reason = 3 then .double else .exited

/-- STOPPED at the home (R418 item 5). -/
def State.stoppedIn (s : State) (src : Nat) (ltag : Word) (ops : List Byte) : State :=
  match s.entry ltag with
  | some e =>
    if e.lseq = 0 || !(s.memberList e.rec_).contains src then s
    else s.endProcess ltag (outcomeOf (leNat (ops.take 1))) (BitVec.ofNat 32 (leNat (ops.drop 4))) (BitVec.ofNat 8 (leNat ((ops.drop 1).take 1)))
  | none => s

/-- END at a member (R418): its part ends, is killed, or an unplaced shadow is dropped. -/
def State.endIn (s : State) (src : Nat) (ltag : Word) (kind : Nat) : State :=
  match s.shadow src ltag with
  | none => s
  | some (e, _) =>
    let killed := s.updEntry ltag fun e => { e with kill := true, switching := false }
    if kind = 3 || (e.st != .running && e.st != .dispatching) then (s.dropEntry ltag).keeperMsg src 0x0A ltag []
    else if e.saved.isSome then killed.endParked ltag
    else if e.st = .dispatching then killed
    else killed.endContexts ltag

/-- ENDED at the home: a member has torn its part down, and the last one completes a kill (R238, R418 item 9). -/
def State.endedIn (s : State) (src : Nat) (ltag : Word) : State :=
  match s.entry ltag with
  | some e => if e.lseq = 0 then s else (s.updMulti ltag fun m => if m.step = 9 then m.answered src else m).killed ltag
  | none => s

/-- RESTORE at a member whose reservation holds (R418 item 7). -/
def State.restoreIn (s : State) (src : Nat) (ltag : Word) : State :=
  match s.shadow src ltag with
  | some (e, m) =>
    if m.step = 8 && e.saved.isSome then (s.updMulti ltag fun m => { m with bad := 1 }).restorePart e m else s
  | none => s

/-- JOIN at the far home (R236, R418). -/
def State.joinIn (s : State) (src : Nat) (ltag : Word) (ops : List Byte) : State :=
  let ep := field ops 0 2
  let pep := field ops 2 2
  let good := s.farJoins (BitVec.ofNat 64 (field ops 8 8)) pep ep ltag
  s.keeperMsg src 0x12 ltag (leBytes 1 (b2n !good) ++ leBytes 7 0)

/-- JOINED at the home that asked (R236, R418): the answers come in the order of the questions. -/
def State.joinedIn (s : State) (src : Nat) (ltag : Word) (closed : Bool) : State :=
  match s.entry ltag with
  | none => s
  | some e =>
    match e.rec_.chans.find? fun c => match e.eps.find c.ep with
      | some p => p.joining && s.homeOf p.ptag == src
      | none => false with
    | none => s
    | some c =>
      let s := s.updEp ltag c.ep fun p => { p with joining := false }
      if closed then (s.becomeClosed ltag c.ep).closeAway ltag c.ep else s

/-- PARK at the home (R219, R237): the entry goes ahead in its queue, or is the ballast loop's next restore. -/
def State.parkIn (s : State) (ltag : Word) : State :=
  match s.listed ltag with
  | some e => if e.st == .queued || (e.st == .running && !e.resident) then s.updEntry ltag fun e => { e with hot := true } else s
  | none => s

/-- A knot record as a KNOT message carries it (R240, R418). -/
def knotOf (ops : List Byte) : Knot :=
  { lseq := 0, ctxid := BitVec.ofNat 64 (field ops 8 8), seq := field ops 16 8, word := BitVec.ofNat 32 (field ops 24 4)
    reached := field ops 28 2, resume := field ops 30 1 == 1 }

/-- Whether the operands of a KEEPER message have the layout that R418 gives its OPC. -/
def keeperLayout (opc : Nat) (ops : List Byte) : Bool :=
  let len := fun n => ops.length == n
  let zero := fun off n => field ops off n == 0
  match opc with
  | 0x01 => decide (72 ≤ ops.length)
  | 0x02 => len 8 && zero 1 7
  | 0x03 => decide (8 ≤ ops.length)
  | 0x08 => len 8 && zero 2 2
  | 0x09 => len 8 && zero 1 7 && decide (1 ≤ field ops 0 1) && decide (field ops 0 1 ≤ 3)
  | 0x0B => len 32 && zero 31 1
  | 0x0D => len 16 && zero 1 7
  | 0x0E => len 8 && zero 1 7 && decide (field ops 0 1 ≤ 1)
  | 0x11 => len 16 && zero 4 4
  | 0x12 => len 8 && zero 1 7 && decide (field ops 0 1 ≤ 1)
  | 0x04 | 0x05 | 0x06 | 0x07 | 0x0A | 0x0C | 0x0F | 0x10 | 0x13 => len 0
  | _ => false

/-- A KEEPER message takes effect (R418). -/
def State.keeperIn (s : State) (src opc : Nat) (ltag : Word) (ops : List Byte) : State :=
  if !keeperLayout opc ops then s
  else match opc with
    | 0x01 => s.admitLaunch src ltag ops
    | 0x02 => s.admitted src ltag (field ops 0 1)
    | 0x03 => s.imageIn src ltag ops
    | 0x04 => s.reserveIn src ltag
    | 0x05 => s.reservedBy ltag src
    | 0x06 => s.placeIn src ltag
    | 0x07 => s.placedOn ltag src
    | 0x08 => s.stoppedIn src ltag ops
    | 0x09 => s.endIn src ltag (field ops 0 1)
    | 0x0A => s.endedIn src ltag
    | 0x0B => match s.listed ltag with
      | some _ => s.logKnot ltag (knotOf ops)
      | none => s
    | 0x0C => match s.shadow src ltag with
      | some (e, _) => if e.st = .running && e.resident then (s.updMulti ltag fun m => { m with step := 5 }).beginSwitch e else s
      | none => s
    | 0x0D => s.switched ltag src (field ops 0 1) (field ops 8 8)
    | 0x0E => match s.shadow src ltag with
      | some (e, _) => if !e.switching then s else if field ops 0 1 = 1 then s.commitSave e else s.refuseSwitch e e.status e.need
      | none => s
    | 0x0F => s.restoreIn src ltag
    | 0x10 => s.restoredBy ltag src
    | 0x11 => s.joinIn src ltag ops
    | 0x12 => s.joinedIn src ltag (field ops 0 1 == 1)
    | 0x13 => s.parkIn ltag
    | _ => s

end Sys2Proof.Machine
end

