-- ==== Sys2Proof/Machine/Links.lean ====
section
/-! DEFINITION. Sys2Proof/Machine/Links.lean: Vamet links (R409 to R412), messages between modules (R413 to R416, R418) and the probes of the deadlock detector as they arrive (R221). -/

namespace Sys2Proof.Machine

/-- Whether the links carry messages: the module has booted, no alarm has locked it, and the I/O die is not in HALT (R394, R422, R425). -/
def State.linksRun (s : State) : Bool := s.sec.up && !s.sec.locked && (s.die 8).st.num != 3

def State.link (s : State) (l : Nat) : Link := s.links.get l {}
def State.setLink (s : State) (l : Nat) (k : Link) : State := { s with links := s.links.set l k }

/-- Links of a module (R409). -/
def linkCount : Nat := 16

/-- EACK frees the messages that it covers (R414). -/
def State.acked (s : State) (m eack : Nat) : State :=
  let p := s.peers.get m {}
  { s with peers := s.peers.set m { p with kept := p.kept.filter fun x => eack < x.1 } }

/-- Whether a receiver accepts a flit (R410): CRC, the FTAG expected, a KIND that is not reserved, and zeros in bits [11:0]. -/
def Link.accepts (k : Link) (f : Flit) : Bool := f.crcOk && f.ftag == k.rx && decide (f.kind ≤ 9) && f.low == 0

/-- A link end accepts a flit (R409, R410): the next FTAG is expected, NAKs start anew, and ACKTAG frees the flits that it covers. -/
def Link.accept (k : Link) (f : Flit) : Link :=
  ({ k with rx := (k.rx + 1) % 4096, waiting := false, refused := 0, naks := 0 } : Link).acked f.acktag

/-- Flits come in at a link end: none when one of them is not accepted (R410). -/
def Link.hear : List Flit → Link → Option Link
  | [], k => some k
  | f :: fs, k => if k.accepts f then Link.hear fs (k.accept f) else none

/-- Flits come in at a link of this module, which must be UP (R410). -/
def State.hear (s : State) (l : Nat) (fs : List Flit) : Option State :=
  if s.linksRun && l < linkCount && (s.link l).st == .up then (Link.hear fs (s.link l)).map fun k => s.setLink l k else none

/-- OKIND as OFFER carries it (R415). -/
def okindOf (n : Nat) : Option OKind :=
  match n with
  | 0 => some .word
  | 1 => some .vector
  | 2 => some .block
  | _ => none

/-- OFFER, or the withdrawal of one, at the receiver's channel unit (R415, R416). -/
def State.offerIn (s : State) (src : Nat) (b : List Byte) : State :=
  let ltag := BitVec.ofNat 64 (field b 0 8)
  let ep := field b 8 2
  let k := field b 10 1
  let oid := field b 12 4
  let n := b.length
  if n < 16 || 1024 ≤ ep || k % 128 / 4 ≠ 0 || field b 11 1 ≠ 0 then s
  else match okindOf (k % 4) with
    | none => s
    | some kind =>
      if 128 ≤ k then
        if n = 16 then
          ({ s with remotes := s.remotes.filter fun r => !(r.src == src && r.oid == oid) }).sendMsg src 3
            (match s.ep ltag ep with
              | some e => commitBody e.ptag e.pep 1 0 oid 0
              | none => match (s.entry ltag).bind fun e => e.rec_.chan ep with
                | some c => commitBody c.ptag c.pep 1 0 oid 0
                | none => commitBody 0#64 0 1 0 oid 0)
        else s
      else
        let good := match kind with
          | .word => n == 24
          | .vector => n == 24 && field b 20 4 == 0
          | .block => n == 32
        let r : Remote :=
          match kind with
          | .word => { src := src, ltag := ltag, ep := ep, kind := kind, oid := oid, data := BitVec.ofNat 64 (field b 16 8) }
          | .vector => { src := src, ltag := ltag, ep := ep, kind := kind, oid := oid, lanes := field b 16 4 }
          | .block => { src := src, ltag := ltag, ep := ep, kind := kind, oid := oid, total := field b 16 8, start := field b 24 8 }
        match s.entry ltag with
        | none => s
        | some e =>
          let shut := match e.eps.find ep with
            | some p => (match p.st with
              | .closed _ => true
              | _ => false)
            | none => e.isEnded || e.resident
          if !good || shut then s else { s with remotes := s.remotes ++ [r] }

/-- The bytes of a vector payload: 2 for each lane, row k in bit k (R415). -/
def rowBytes (rows : List (BitVec 16)) : List Byte := rows.flatMap fun r => leBytes 2 r.toNat

/-- The waiting context of a launch whose send offer has a number (R415). -/
def State.offering (s : State) (ltag : Word) (ep oid : Nat) : Option (Nat × Pending × Offer) :=
  s.ctxs.findSome? fun kv =>
    if s.procOf kv.1 == some ltag then
      kv.2.chan.bind fun p => (p.offers.find? fun o => o.ep == ep && o.send && o.oid == oid).map fun o => (kv.1, p, o)
    else none

/-- A sender whose offer met at another module completes there and then (R416): a vector's rows follow, a block becomes a job. A core whose job identifiers have run out meanwhile completes with status 5 (R5, log entry 75). -/
def State.committed (s : State) (src c : Nat) (p : Pending) (o : Offer) (status lr : Nat) : State :=
  let s := s.updCtx c fun x => { x with chan := some { p with away := p.away.filter fun a => !(a.1 == o.oid && a.2 == src) } }
  match o.kind with
  | .word => s.finishChan c p.op { status := status, guard := o.guard }
  | .vector =>
    let rows := (s.readRows c o.reg).take lr
    (if rows.isEmpty then s else s.sendMsg src 1 (dataBody o.oid 0 (rowBytes rows))).finishChan c p.op { status := status, guard := o.guard }
  | .block => match p.op with
    | .block _ _ d pr =>
      if status ≠ 0 then (s.dropBlock c p.op).finishChan c p.op { status := status }
      else if 2 ^ 64 ≤ (s.core (coreOf c)).pjob + 1 then (s.dropBlock c p.op).finishChan c p.op { status := 5 }
      else
        let (s, i) := s.nextPJob (coreOf c)
        (s.blockJob c i d pr (.send (.module src o.oid))).finishChan c p.op { status := 0 }
    | _ => s

/-- COMMIT at the sender's channel unit (R415, R416). -/
def State.commitIn (s : State) (src : Nat) (b : List Byte) : State :=
  let ltag := BitVec.ofNat 64 (field b 0 8)
  let ep := field b 8 2
  if b.length ≠ 20 || 2 < field b 10 1 || 1024 ≤ ep then s
  else match s.offering ltag ep (field b 12 4) with
    | none => s
    | some (c, p, o) =>
      if (o.kind != .vector && field b 16 4 != 0) || !(p.away.contains (o.oid, src)) then s
      else match field b 10 1 with
        | 0 => s.committed src c p o (field b 11 1) (field b 16 4)
        | 1 => s.gaveBack c o.oid src
        | _ => s.mismatchAt c p ep

/-- Payload bytes join what a job has received from another module, when they come next (R415); a poisoned byte passes as poisoned (R334). -/
def PJob.arrive (j : PJob) (src oid off : Nat) (bs : List (Byte × Bool)) : PJob :=
  if j.kind = PKind.recv (Partner.module src oid) ∧ off + j.desc.start = j.pos + j.got.length then { j with got := j.got ++ bs } else j

/-- Payload bytes reach the engines of a tile, or what a switch put aside of them. -/
def Engines.arrive (g : Engines) (src oid off : Nat) (bs : List (Byte × Bool)) : Engines :=
  { g with pq := g.pq.map fun j => j.arrive src oid off bs }

/-- Payload bytes of a block reach their job, wherever it is (R349, R415). -/
def State.blockIn (s : State) (src oid off : Nat) (bs : List (Byte × Bool)) : State :=
  { s with
    tiles := AMap.mapVal (fun _ x => { x with eng := x.eng.arrive src oid off bs }) s.tiles
    entries := s.entries.map fun e =>
      { e with saved := e.saved.map fun v => { v with tiles := AMap.mapVal (fun _ x => (x.1.arrive src oid off bs, x.2)) v.tiles } } }

/-- DATA: payload bytes of a vector or block transfer (R415, R416). -/
def State.dataIn (s : State) (src : Nat) (x : Msg) : State :=
  let b := x.body
  let oid := field b 0 4
  let off := field b 8 8
  let bs := b.drop 16
  if b.length < 16 || field b 4 4 ≠ 0 then s
  else if s.inbound.any fun i => i.src == src && i.oid == oid then
    ({ s with inbound := s.inbound.map fun (i : Inbound) =>
        if i.src = src ∧ i.oid = oid ∧ off = i.bytes.length then { i with bytes := i.bytes ++ bs } else i }).landFull
  else s.blockIn src oid off (bs.zipIdx.map fun y => (y.1, x.marks.contains (16 + y.2)))

/-- CLOSE: the named endpoint becomes CLOSED (R218, R415, R416). -/
def State.closeIn (s : State) (b : List Byte) : State :=
  if b.length ≠ 16 || field b 10 6 ≠ 0 || 1024 ≤ field b 8 2 then s else s.becomeClosed (BitVec.ofNat 64 (field b 0 8)) (field b 8 2)

/-- QUERY: a probe reaches the holder of an endpoint (R221, R415); one that no placed process holds is active (R220). -/
def State.queryIn (s : State) (src : Nat) (b : List Byte) : State :=
  let ltag := BitVec.ofNat 64 (field b 16 8)
  let tag : ProbeTag := { ictx := field b 0 8, iseq := field b 8 8, try_ := field b 30 2 }
  let frm := ProbeFrom.module src (field b 26 4)
  if b.length ≠ 32 || 1024 ≤ field b 24 2 then s
  else match (s.entry ltag).filter Entry.placed, (s.ep ltag (field b 24 2)).bind fun p => p.st.holder with
    | some _, some h => if s.clocked (coreOf h) then s.probeAt tag h frm else { s with probes := s.probes ++ [.query tag h frm] }
    | _, _ => s.answerProbe tag frm 1 0

/-- ANSWER from another module: QID names the context whose query it answers (R221, R415). -/
def State.answerIn (s : State) (b : List Byte) : State :=
  let tag : ProbeTag := { ictx := field b 0 8, iseq := field b 8 8, try_ := field b 22 2 }
  let c := field b 16 4
  if b.length ≠ 24 || field b 21 1 ≠ 0 || 2 < field b 20 1 then s
  else if s.clocked (coreOf c) then s.answerAt tag c (field b 20 1) 1
  else { s with probes := s.probes ++ [.answer tag c (field b 20 1) 1] }

/-- KEEPER: a message between Innkeepers (R415, R418). -/
def State.keeperBodyIn (s : State) (src : Nat) (b : List Byte) : State :=
  if b.length < 16 || field b 2 6 ≠ 0 then s else s.keeperIn src (field b 0 2) (BitVec.ofNat 64 (field b 8 8)) (b.drop 16)

/-- A message is delivered (R414, R415). One whose body breaks its layout has no effect. -/
def State.deliver (s : State) (src : Nat) (x : Msg) : State :=
  match x.kind with
  | 1 => s.dataIn src x
  | 2 => s.offerIn src x.body
  | 3 => s.commitIn src x.body
  | 4 => s.closeIn x.body
  | 5 => s.queryIn src x.body
  | 6 => s.answerIn x.body
  | 9 => s.keeperBodyIn src x.body
  | _ => s

/-- Whether a message can be taken now: one to an Innkeeper waits while no keeper core runs (R239, R418 item 9). -/
def State.takes (s : State) (kind : Nat) : Bool := kind != 9 || s.keeperUp

/-- The next message of a pair is delivered: its number is the last one delivered, and an EACK is owed (R414). -/
def State.deliverNext (s : State) (src n : Nat) (x : Msg) : State :=
  ({ s with peers := s.peers.set src { s.peers.get src {} with got := n, owed := true } }).deliver src x

/-- Messages that came early are delivered in order as far as the gap is filled (R414). -/
def State.deliverEarly : Nat → Nat → State → State
  | 0, _, s => s
  | n + 1, src, s =>
    let p := s.peers.get src {}
    match p.early.find? fun x => x.1 == p.got + 1 with
    | some x =>
      if s.takes x.2.kind then
        State.deliverEarly n src
          (({ s with peers := s.peers.set src { p with early := p.early.filter fun y => y.1 != x.1 } }).deliverNext src x.1 x.2)
      else s
    | none => s

/-- The message that fragments carry (R414). -/
def msgOf (kind : Nat) (m : MsgIn) : Msg := { kind := kind, body := m.body, marks := m.marks }

/-- What a message of this pair does when it has arrived whole (R413, R414): in its turn it is delivered; ahead of its turn, by 256 at most, it is kept; otherwise it is discarded. -/
def State.number (s : State) (kind : Nat) (m : MsgIn) : State :=
  let p := s.peers.get m.src {}
  if m.mseq = p.got + 1 then State.deliverEarly 256 m.src (s.deliverNext m.src m.mseq (msgOf kind m))
  else if p.got + 1 < m.mseq && m.mseq ≤ p.got + 256 && !(p.early.any fun x => x.1 == m.mseq) then
    { s with peers := s.peers.set m.src { p with early := p.early ++ [(m.mseq, msgOf kind m)] } }
  else s

/-- The flits of a message for this module have come at a link end (R410, R414). One with a flit that the link does not accept does not come at all; flits whose headers break the layout are discarded. -/
def State.receive (s : State) (kind : Nat) (m : MsgIn) : State :=
  if m.lead.dest ≠ s.sec.module || m.src = s.sec.module || !s.takes kind then s
  else match s.hear m.link m.flits with
    | none => s
    | some s => if m.whole kind then (s.acked m.src m.eack).number kind m else s

/-- A KEEPER message with an OPC (R415, R418). -/
def keeperEvent (opc : Nat) (m : MsgIn) (s : State) : Out := if field m.body 0 2 = opc then .next (s.receive 9 m) else .next s

def execAdmit (m : MsgIn) (s : State) : Out := keeperEvent 0x01 m s
def execAdmitted (m : MsgIn) (s : State) : Out := keeperEvent 0x02 m s
def execImage (m : MsgIn) (s : State) : Out := keeperEvent 0x03 m s
def execReserve (m : MsgIn) (s : State) : Out := keeperEvent 0x04 m s
def execReserved (m : MsgIn) (s : State) : Out := keeperEvent 0x05 m s
def execPlace (m : MsgIn) (s : State) : Out := keeperEvent 0x06 m s
def execPlaced (m : MsgIn) (s : State) : Out := keeperEvent 0x07 m s
def execStopped (m : MsgIn) (s : State) : Out := keeperEvent 0x08 m s
def execEndMsg (m : MsgIn) (s : State) : Out := keeperEvent 0x09 m s
def execEnded (m : MsgIn) (s : State) : Out := keeperEvent 0x0A m s
def execKnot (m : MsgIn) (s : State) : Out := keeperEvent 0x0B m s
def execSwitch (m : MsgIn) (s : State) : Out := keeperEvent 0x0C m s
def execSwitched (m : MsgIn) (s : State) : Out := keeperEvent 0x0D m s
def execCommitsave (m : MsgIn) (s : State) : Out := keeperEvent 0x0E m s
def execRestore (m : MsgIn) (s : State) : Out := keeperEvent 0x0F m s
def execRestored (m : MsgIn) (s : State) : Out := keeperEvent 0x10 m s
def execJoin (m : MsgIn) (s : State) : Out := keeperEvent 0x11 m s
def execJoined (m : MsgIn) (s : State) : Out := keeperEvent 0x12 m s
def execPark (m : MsgIn) (s : State) : Out := keeperEvent 0x13 m s

/-- OFFER (R416). -/
def execOffer (m : MsgIn) (s : State) : Out := .next (s.receive 2 m)

/-- COMMIT (R416). -/
def execCommit (m : MsgIn) (s : State) : Out := .next (s.receive 3 m)

/-- DATA (R415). -/
def execData (m : MsgIn) (s : State) : Out := .next (s.receive 1 m)

/-- CLOSE (R416). -/
def execClose (m : MsgIn) (s : State) : Out := .next (s.receive 4 m)

/-- ACK: an end-to-end acknowledgement, whose MSEQ is 0 (R414). -/
def execAck (m : MsgIn) (s : State) : Out :=
  if m.lead.dest ≠ s.sec.module then .next s
  else match s.hear m.link m.flits with
    | none => .next s
    | some s => .next (if m.whole 7 && m.mseq == 0 && m.flits.length == 1 then s.acked m.src m.eack else s)

/-- Take probe n out of those on their way. -/
def State.dropProbe (s : State) (n : Nat) : State := { s with probes := s.probes.eraseIdx n }

/-- PROBE_QUERY: query n of this module reaches its context, or one comes from another module (R221). It waits while the stack is in HALT (R394). -/
def execProbeQuery (n : Nat) (m : Option MsgIn) (s : State) : Out :=
  match m with
  | some m => .next (s.receive 5 m)
  | none => match s.probes[n]? with
    | some (.query tag d frm) => if s.clocked (coreOf d) then .next ((s.dropProbe n).probeAt tag d frm) else .next s
    | _ => .next s

/-- ANSWER: answer n of this module reaches its context, or one comes from another module (R221). -/
def execAnswer (n : Nat) (m : Option MsgIn) (s : State) : Out :=
  match m with
  | some m => .next (s.receive 6 m)
  | none => match s.probes[n]? with
    | some (.answer tag d res reach) => if s.clocked (coreOf d) then .next ((s.dropProbe n).answerAt tag d res reach) else .next s
    | _ => .next s

/-- ACK_TIMER: an EACK that is owed goes out in an ACK flit (R414). -/
def execAckTimer (m : Nat) (s : State) : Out :=
  let p := s.peers.get m {}
  match s.path m with
  | some l =>
    if s.linksRun && p.owed then
      .next { s with
        peers := s.peers.set m { p with owed := false }
        links := s.links.set l ((s.link l).put s.sec.module m 7 (fragHeader 0 p.got 0 true)) }
    else .next s
  | none => .next s

/-- RESEND_TIMER: every kept message of the pair is sent again (R414). -/
def execResendTimer (m : Nat) (s : State) : Out := if s.linksRun then .next (s.resend m) else .next s

/-- LINK_UP: a link in training is UP (R410, R411). -/
def execLinkUp (l : Nat) (s : State) : Out :=
  if s.linksRun && l < linkCount && (s.link l).st == .training then .next ((s.setLink l { s.link l with st := .up, naks := 0, refused := 0 }).rerouted s)
  else .next s

/-- LINK_TRAINING_TIMEOUT: a link that did not train within 100 ms is DOWN (R410). -/
def execLinkTrainingTimeout (l : Nat) (s : State) : Out :=
  if l < linkCount && (s.link l).st == .training then .next (s.setLink l { s.link l with st := .down }) else .next s

/-- LINK_RETRY: a DOWN link trains again (R410). -/
def execLinkRetry (l : Nat) (s : State) : Out :=
  if s.linksRun && l < linkCount && (s.link l).st == .down then .next (s.setLink l { s.link l with st := .training }) else .next s

/-- A link end retrains (R410, R411). -/
def Link.retrain (k : Link) : Link := { k with naks := 0, refused := 0, st := .training, retrains := min (k.retrains + 1) (2 ^ 32 - 1) }

/-- What a NAK that names an FTAG does at the sender (R410, R411): flits before it are known to have come, the rest replay; the sixteenth in a row without an accepted flit retrains. -/
def Link.nak (k : Link) (ftag : Nat) : Link :=
  let again := match k.kept with
    | f :: _ => f.ftag == ftag
    | [] => true
  let kept := k.kept.dropWhile fun f => f.ftag != ftag
  let k : Link := { k with replays := min (k.replays + 1) 0xFFFF, naks := if again then k.naks + 1 else 1, kept := if kept.isEmpty then k.kept else kept }
  if 16 ≤ k.naks then k.retrain else k

/-- NAK (R410). -/
def execNak (l ftag : Nat) (s : State) : Out :=
  if s.linksRun && l < linkCount && (s.link l).st == .up then .next ((s.setLink l ((s.link l).nak ftag)).rerouted s) else .next s

/-- A refused flit at a link end (R410): NAK goes out and later flits are discarded; the sixteenth NAK in a row without an accepted flit retrains this end too. -/
def Link.refuse (k : Link) (me : Nat) (f : Flit) : Link :=
  let k : Link := { k.put me f.src 8 [] with waiting := true, refused := k.refused + 1 }
  if 16 ≤ k.refused then k.retrain else k

/-- FLIT_REJECTED: a refused flit is answered with NAK, and later ones are discarded until the expected FTAG comes (R410). -/
def execFlitRejected (l : Nat) (f : Flit) (s : State) : Out :=
  let k := s.link l
  if s.linksRun && l < linkCount && k.st == .up && !k.accepts f && (!k.waiting || f.ftag == k.rx) then
    .next ((s.setLink l (k.refuse s.sec.module f)).rerouted s)
  else .next s

/-- TRANSIT_FLIT: an accepted flit for another module goes on (R410, R412). -/
def execTransitFlit (m : MsgIn) (s : State) : Out :=
  match m.flits with
  | [f] =>
    if f.dest = s.sec.module || f.kind == 0 || f.kind == 8 then .next s
    else match s.hear m.link [f] with
      | some s => .next (s.forward f)
      | none => .next s
  | _ => .next s

/-- An IDLE flit at a link end: it takes no FTAG of its own, and its ACKTAG frees the flits that it covers (R409, R410, log entry 60). -/
def State.idleFlit (s : State) (l : Nat) (f : Flit) : State :=
  let k := s.link l
  if s.sec.up && (s.die 8).st.num != 3 && l < linkCount && k.st == .up && f.kind == 0 && k.accepts f then s.setLink l (k.acked f.acktag) else s

end Sys2Proof.Machine
end

