-- ==== Sys2Proof/Machine/Host.lean ====
section
/-! DEFINITION. Sys2Proof/Machine/Host.lean: host commands (R419, R420), staging memory and RDMA (R421) and attestation (R424). -/

namespace Sys2Proof.Machine

/-- The request payload of an OP in bytes (R419). -/
def requestLength (op : BitVec 16) : Option Nat :=
  match op.toNat with
  | 1 => some 8
  | 2 => some 24
  | 3 => some 8
  | 4 => some 8
  | 5 => some 8
  | 6 => some 2
  | 7 => some 64
  | 8 => some 8
  | _ => none

/-- Whether a datagram is a command: MAGIC, VERSION, OP and LEN right, and no reserved byte set (R419). -/
def reqGood (q : HostReq) : Bool :=
  decide (32 ≤ q.bytes.length) && q.magic == hostMagic && q.version == 1#16 && requestLength q.op == some q.len && q.payload.length == q.len && !q.reserved

/-- Whether the ports answer (R422): they never come up when boot stopped. -/
def State.portsUp (s : State) : Bool := s.sec.up

/-- Whether a datagram reaches the Innkeeper: the ports are up, it has the address of one of them, and it goes to the port of commands (R419, R423). -/
def State.addressed (s : State) (q : HostReq) : Bool := s.portsUp && s.sec.addrs.contains q.dest && q.port == hostPort

/-- An answer that is given without a request having been run: it is not kept. -/
def State.answer (s : State) (q : HostReq) (status : Nat) : State :=
  { s with sent := s.sent ++ [(q.source, ({ reqid := q.reqid, op := q.op, status := status, body := [] } : Reply).wire)] }

/-- The reply to a request that has run (R420). -/
def State.replyTo (s : State) (q : HostReq) (status : Nat) (body : List Byte) : State :=
  s.reply q.source { reqid := q.reqid, op := q.op, status := status, body := body }

/-- The status that the ports give every command while the part is locked (R425) or no keeper core runs (R239). -/
def State.refusal (s : State) : Option Nat :=
  if s.sec.locked then some 0x43 else if s.kstopped = 0xF#4 then some 0x42 else none

/-- A command with an OP: refused, run once, answered again from the kept replies, or STALE (R419, R420). -/
def command (op : BitVec 16) (q : HostReq) (s : State) (run : State → State) : Out :=
  if !s.addressed q || !reqGood q || q.op ≠ op then .next s
  else match s.refusal with
    | some st => .next (s.answer q st)
    | none =>
      let h := s.hosts.get q.source {}
      if h.next ≤ q.reqid.toNat then
        .next (run { s.sweep with hosts := s.hosts.set q.source { h with next := q.reqid.toNat + 1 } })
      else match h.replies.find? fun r => r.reqid == q.reqid with
        | some r => .next { s with sent := s.sent ++ [(q.source, r.wire)] }
        | none => .next (s.answer q 0x44)

/-- BAD_COMMAND (R419). -/
def execBadCommand (q : HostReq) (s : State) : Out :=
  if !s.addressed q || reqGood q then .next s else .next (s.answer q (s.refusal.getD 0x47))

/-- STAGE: a region of staging memory with a key of its own (R419, R421). -/
def State.stage (s : State) (q : HostReq) : State :=
  let size := field q.payload 0 8
  match s.freeRange size with
  | none => s.replyTo q 0x45 []
  | some off =>
    let key := Config.stageKey s.fresh
    ({ s.tick with regions := s.regions ++ [({ off := off, size := size, rkey := key } : Region)] }).replyTo q 0 (leBytes 8 off ++ leBytes 4 key.toNat)

def execStage (q : HostReq) (s : State) : Out := command 1#16 q s fun s => s.stage q

/-- A region that a host holds and in which some bytes lie (R421). -/
def State.regionWith (s : State) (off n : Nat) : Option Region :=
  s.regions.find? fun r => r.host && !r.released && decide (r.off ≤ off) && decide (off + n ≤ r.off + r.size)

/-- The record that lies at an offset of staging memory (R226): its header alone when RECLEN is not the sum of its parts. -/
def State.recordAt (s : State) (off : Nat) : List Byte :=
  let h := s.kmem.bytes (stagingBase + off) 64
  if field h 0 4 = recLength h then s.kmem.bytes (stagingBase + off) (recLength h) else h

/-- SUBMIT (R230, R231, R418, R419): the record and image lie in one region, the checks pass, and the launch is accepted; a launch on several modules is first admitted by its members. -/
def State.submit (s : State) (q : HostReq) : State :=
  let off := field q.payload 0 8
  let img := field q.payload 8 8
  let n := field q.payload 16 8
  let bs := s.recordAt off
  match s.regionWith off 64 with
  | none => s.replyTo q 0x48 []
  | some r =>
    let inside := fun a k => decide (r.off ≤ a) && decide (a + k ≤ r.off + r.size)
    if !inside off bs.length || !inside img n then s.replyTo q 0x48 []
    else
      let status := s.recordStatus bs n false
      if status ≠ 0 then s.replyTo q status []
      else
        let l := launchOf bs
        let e : Entry := { lseq := 0, rec_ := l, bytes := bs, imgOff := img, imgLen := n, region := r.off }
        if l.modules ≤ 1 then (s.submitted q.source q.reqid 0 s.nextLseq).accept e
        else
          let m : Members := { home := s.sec.module, left := s.memberList l, reply := some (q.source, q.reqid) }
          (s.memberList l).foldl (fun s d => s.keeperMsg d 0x01 l.ltag (leBytes 8 n ++ bs))
            { s with entries := s.entries ++ [{ e with multi := some m }] }

def execSubmit (q : HostReq) (s : State) : Out := command 2#16 q s fun s => s.submit q

/-- LTAG of a request. -/
def reqTag (q : HostReq) : Word := BitVec.ofNat 64 (field q.payload 0 8)

/-- CANCEL (R232, R238). -/
def execCancel (q : HostReq) (s : State) : Out :=
  command 3#16 q s fun s =>
    let (s, st) := s.cancel (reqTag q)
    s.replyTo q st []

/-- STATE and OUTCOME as a queue entry shows them (R231). -/
def EState.num : EState → Nat
  | .queued => 0
  | .dispatching => 1
  | .running => 2
  | .done => 3
  | .cancelled => 4

def Outcome.num : Outcome → Nat
  | .none => 0
  | .exited => 1
  | .double => 2
  | .killed => 3
  | .cancelledQueued => 4
  | .cancelledRunning => 5
  | .predFailed => 6

/-- The 32-byte queue entry (R231). -/
def Entry.image (e : Entry) : List Byte :=
  leBytes 8 e.lseq ++ leBytes 8 e.rec_.ltag.toNat ++ leBytes 1 e.st.num ++ leBytes 1 e.rec_.prio ++ leBytes 1 e.outcome.num
    ++ leBytes 1 (b2n e.resident) ++ leBytes 4 e.exit.toNat ++ leBytes 4 e.knots ++ leBytes 1 e.cause.toNat ++ leBytes 3 0

/-- A 32-byte knot record (R240). -/
def Knot.image (k : Knot) : List Byte :=
  leBytes 8 k.lseq ++ leBytes 8 k.ctxid.toNat ++ leBytes 8 k.seq ++ leBytes 4 k.word.toNat ++ leBytes 2 k.reached
    ++ leBytes 1 (b2n k.resume) ++ leBytes 1 0

/-- A command that reads a launch's entry (R419). -/
def readEntry (q : HostReq) (f : Entry → List Byte) (s : State) : State :=
  match s.listed (reqTag q) with
  | none => s.replyTo q 0x41 []
  | some e => s.replyTo q 0 (f e)

/-- QUERY (R419). -/
def execQuery (q : HostReq) (s : State) : Out := command 4#16 q s (readEntry q Entry.image)

/-- KNOTLOG (R419). -/
def execKnotlog (q : HostReq) (s : State) : Out := command 5#16 q s (readEntry q fun e => e.log.flatMap Knot.image)

/-- FLOOR (R391, R419). -/
def execFloor (q : HostReq) (s : State) : Out :=
  command 6#16 q s fun s => ({ s with floor := BitVec.ofNat 16 (field q.payload 0 2) }).replyTo q 0 []

/-- Segments retired since reset (R424). -/
def State.retiredCount (s : State) : Nat := (s.cores.map fun kv => kv.2.retired.length).sum

/-- The 192-byte report (R424). The identity public key is its modulus here, the exponent being fixed (log entry 74). -/
def State.report192 (s : State) (nonce : List Byte) : List Byte :=
  nonce.take 64 ++ s.sec.fw ++ leBytes 8 s.sec.seq.toNat ++ leBytes 2 s.sec.module ++ leBytes 1 (b2n s.sec.lock)
    ++ leBytes 1 s.retiredCount ++ leBytes 4 s.sec.alarms ++ (sha512 s.sec.modulus).take 48

/-- ATTEST: a report begins to be signed, unless no identity key is held (R422, R424). -/
def execAttest (q : HostReq) (s : State) : Out :=
  command 7#16 q s fun s =>
    if s.sec.ident then { s with sec := { s.sec with signing := s.sec.signing ++ [(q.source, q.reqid, s.report192 q.payload)] } }
    else s.replyTo q 0x46 []

/-- The reply to an ATTEST (R424). -/
def State.attested (s : State) (src : Nat) (reqid : Word) (status : Nat) (body : List Byte) : State :=
  s.reply src { reqid := reqid, op := 7#16, status := status, body := body }

/-- The signature of a report with the identity key under a salt of 64 bytes (R422, R424). -/
def State.signature (s : State) (report : List Byte) (salt : BitVec 512) : List Byte :=
  pssSign (Config.identityKey s.sec.seed).1 (Config.identityKey s.sec.seed).2 report (leBytes 64 salt.toNat)

/-- REPORT_SIGNED: the oldest report has been signed under some salt, which the rules leave open (log entry 74); the reply carries it, its signature and the modulus (R424). -/
def execReportSigned (salt : BitVec 512) (s : State) : Out :=
  match s.sec.signing with
  | (src, reqid, rep) :: rest =>
    if s.keeperUp then
      .next (({ s with sec := { s.sec with signing := rest } }).attested src reqid 0 (rep ++ s.signature rep salt ++ s.sec.modulus))
    else .next s
  | [] => .next s

/-- RELEASE (R421). -/
def State.releaseRegion (s : State) (off : Nat) : State × Nat :=
  match s.regions.find? fun r => r.host && r.off == off with
  | none => (s, 0x48)
  | some _ => (({ s with regions := s.regions.map fun (r : Region) => if r.host && r.off == off then { r with released := true } else r }).sweep, 0)

def execRelease (q : HostReq) (s : State) : Out :=
  command 8#16 q s fun s =>
    let (s, st) := s.releaseRegion (field q.payload 0 8)
    s.replyTo q st []

/-- Queue pairs of a port, and the path MTU (R421). -/
def queuePairs : Nat := 64
def pathMtu : Nat := 4096

/-- Whether a packet keeps to the form of its opcode (R421): First and Middle are full, none is longer than the path MTU, and Middle and Last go on with a WRITE that a First began. -/
def rdmaFits (op : RdmaOp) (n : Nat) (running : Bool) : Bool :=
  match op with
  | .first => n == pathMtu && !running
  | .middle => n == pathMtu && running
  | .last => decide (n ≤ pathMtu) && running
  | .only => decide (n ≤ pathMtu) && !running
  | .other => false

/-- Key and address of a packet's bytes: its own, or those that its WRITE has come to. -/
def State.rdmaTarget (s : State) (key : Nat) (w : RdmaWrite) : RdmaRun := (s.qpruns.find key).getD { rkey := w.rkey, addr := w.addr }

/-- The WRITE of a queue pair after a packet. -/
def State.rdmaGo (s : State) (key : Nat) (w : RdmaWrite) (r : RdmaRun) : State :=
  match w.op with
  | .first | .middle => { s with qpruns := s.qpruns.set key { r with addr := r.addr + w.bytes.length } }
  | _ => { s with qpruns := s.qpruns.erase key }

/-- An RDMA packet on a queue pair (R421): its bytes land in a staged region under its key, or it is answered with a NAK; one outside the subset puts the queue pair into error. -/
def State.rdmaPacket (s : State) (key : Nat) (w : RdmaWrite) : State :=
  let say := fun (s : State) (a : RdmaAck) => ({ s with acks := s.acks ++ [(key, a)] } : State)
  if !rdmaFits w.op w.bytes.length (s.qpruns.find key).isSome then say { s with qperr := natsInsert s.qperr key, qpruns := s.qpruns.erase key } .invalidRequest
  else
    let t := s.rdmaTarget key w
    match s.regions.find? fun r => r.host && !r.released && r.rkey == t.rkey && decide (stagingBase + r.off ≤ t.addr)
      && decide (t.addr + w.bytes.length ≤ stagingBase + r.off + r.size) with
    | some _ => say ({ s with kmem := s.kmem.write (wbytes t.addr w.bytes false) }.rdmaGo key w t) .ack
    | none => say { s with qpruns := s.qpruns.erase key } .remoteAccess

/-- RDMA_WRITE: a packet at a port (R421); a CE mark is answered with a Congestion Notification Packet. -/
def execRdmaWrite (w : RdmaWrite) (s : State) : Out :=
  let key := queuePairs * w.port + w.qp
  if !s.portsUp || 2 ≤ w.port || queuePairs ≤ w.qp then .next s
  else
    let s := if w.ce then { s with acks := s.acks ++ [(key, .congestion)] } else s
    .next (if s.qperr.contains key then s else s.rdmaPacket key w)

end Sys2Proof.Machine
end

