-- ==== Sys2Proof/Machine/Boot.lean ====
section
/-! DEFINITION. Sys2Proof/Machine/Boot.lean: boot and security alarms (R422 to R425), and the fetch of an instruction with the traps that take its place (R22, R27, R34, R86). -/

namespace Sys2Proof.Machine

/-- Steps 1 and 2 of R422: the root key has the digest held in ROM, both signatures verify under it, and the record keeps to its layout. The bytes of a public key are those of its modulus (log entry 74). -/
def bootVerified (b : BootInput) : Bool :=
  sha512 b.rootKey == b.romDigest && pssVerify (beNat b.rootKey) b.firmware b.fwSig && pssVerify (beNat b.rootKey) b.record b.recSig && recordGood b.record

/-- The listed segments are retired (R368, R422). -/
def State.retireAll (s : State) (rs : List RetireEntry) : State :=
  rs.foldl (fun s r => s.updCore (8 * r.tile + r.core) fun k => { k with retired := natsInsert k.retired r.segment }) s

/-- A keeper core's slot 0 runs the Innkeeper at M. Its firmware is not given: what it decides comes in as steps of the machine, and the context itself sleeps (log entry 9). -/
def State.startKeeper (s : State) (k : Nat) : State := s.setCtx (16 * (keeperCore0 + k)) { Ctx.start 0#64 3#2 with wait := .sleep }

/-- The routing table as the record fills it (R412, R422). -/
def State.fillRoutes (s : State) (rs : List (BitVec 10)) : State :=
  { s with routes := (rs.zipIdx).foldl (fun m r => m.set r.2 r.1) [] }

/-- What device reset leaves of a tile: HBM4 and its undiscovered errors (log entry 42). -/
def Tile.kept (t : Tile) : Tile := { mem := t.hbm, latent := t.latent }

/-- Steps 3 and 4 of R422 as boot leaves them: identity, policy and the fields of the record. -/
def bootSecurity (b : BootInput) (c : ConfigRecord) : Security :=
  { up := true, module := c.module, domain := c.domain, lock := c.lock, ident := b.seed.isSome, seq := c.seq, addrs := c.addrs
    fw := sha512 b.firmware, seed := b.seed.getD []
    modulus := match b.seed with
      | some x => beBytes rsaBytes (Config.identityKey x).1
      | none => [] }

/-- DEVICE_RESET: every register at its reset value, then the boot ROM's steps (R422). A failure at step 1 or 2 stops the boot; without an identity it goes on. Memory keeps its contents. -/
def execDeviceReset (b : BootInput) (s : State) : Out :=
  let z : State := { State.reset with sched := s.sched, fresh := s.fresh + 1, kmem := s.kmem, tiles := AMap.mapVal (fun _ t => t.kept) s.tiles }
  if !bootVerified b then .next { z with sec := { halted := true } }
  else
    let c := recordOf b.record
    let z := { z with sec := bootSecurity b c }
    .next ((List.range 4).foldl (fun s k => s.startKeeper k) ((z.fillRoutes c.routes).retireAll c.retire))

/-- Every report that is being signed, and every SUBMIT that waits for members, is answered with a status and has no effect (R425). -/
def State.answerPending (s : State) (attest : Nat) (submit : Option Nat) : State :=
  let s := s.sec.signing.foldl (fun s x => s.attested x.1 x.2.1 attest []) { s with sec := { s.sec with signing := [] } }
  match submit with
  | none => s
  | some st =>
    let wait := fun (e : Entry) => e.multi.bind fun m => if m.step = 0 then m.reply else none
    let s := s.entries.foldl (fun s e => match wait e with
      | some (h, r) => s.submitted h r st 0
      | none => s) s
    { s with entries := s.entries.filter fun e => (wait e).isNone }

/-- Every tile context stops (R238, R425). -/
def State.stopTiles (s : State) : State :=
  (s.ctxs.filter fun kv => !isKeeper kv.1).foldl (fun s kv => s.stopForEnd kv.1) s

/-- SECURITY_ALARM: ALARMS counts it, and POLICY says whether the identity is erased or the part is locked (R425). -/
def execSecurityAlarm (s : State) : Out :=
  let n := min (s.sec.alarms + 1) (2 ^ 32 - 1)
  if s.sec.lock then
    .next ((({ s with sec := { s.sec with alarms := n, locked := true } }).answerPending 0x43 (some 0x43)).stopTiles)
  else .next (({ s with sec := { s.sec with alarms := n, ident := false, seed := [], modulus := [] } }).answerPending 0x46 none)

/-- What a fetch at pc gives: a word, or why there is none (R22, R27); what it has read stays read. -/
inductive Fetched where
  | word (s : State) (w : Insn)
  | accessFault (s : State)
  | pageFault (s : State) (lvl reason : Nat)
  | poison (s : State)
  | halted

/-- The word at an offset of a line, unless its poison word is marked. -/
def Line.insn (x : Line) (off : Nat) : Option Insn :=
  if x.marks.getLsbD (off / 8) then none else some (BitVec.ofNat 32 (leNat ((x.bytes.drop off).take 4)))

/-- A fetch from a line that the core's instruction cache holds, or takes now (R86, R245). -/
def State.fetchLine (s : State) (pa : Nat) (fill : State → State × Line) : Fetched :=
  let k := coreOf s.cur
  let (s, x) := match (s.core k).l1i.find (pa / 64) with
    | some x => (s, x)
    | none =>
      let (s, x) := fill s
      (s.updCore k fun c => { c with l1i := l1iPut c.l1i (pa / 64) x }, x)
  match x.insn (pa % 64) with
  | some w => .word s w
  | none => .poison s

/-- A fetch from a tile-physical address: the line comes as this core reads memory, its own writes included (R107, R263). -/
def State.fetchTile (s : State) (pa : Nat) : Fetched :=
  s.fetchLine pa fun s =>
    let s := s.touchHome (tileOf s.cur) [pa]
    (s, (s.coreMem (coreOf s.cur)).line (pa / 64))

/-- A fetch from a keeper-physical address (R258): memory and flash go through the instruction cache. -/
def State.fetchKeeper (s : State) (a : Nat) : Fetched :=
  match kregion a with
  | .plain => s.fetchLine a fun s => (s, s.kmem.line (a / 64))
  | .flash => s.fetchLine a fun s => (s, s.kmem.line (a / 64))
  | _ => match s.kload a 4 with
    | .fault => .accessFault s
    | .halted => .halted
    | .done (s, bs, p) => if p then .poison s else .word s (BitVec.ofNat 32 (leNat bs))

/-- Fetch at the pc of the context that issues: canonical form, translation, then the word (R22, R27, R254). -/
def State.fetch (s : State) : Fetched :=
  let va := s.me.pc
  if !canonical va then .accessFault s
  else if isKeeper s.cur && s.me.priv == 3#2 then s.fetchKeeper va.toNat
  else match s.translate (coreOf s.cur) s.me.priv va .fetch with
    | (s, .ok pa) => if isKeeper s.cur then s.fetchKeeper pa else s.fetchTile pa
    | (s, .fault l r) => .pageFault s l r
    | (s, .poison) => .poison s
    | (s, .absent) => .accessFault s
    | (_, .halted) => .halted

/-- PAGE_FAULT_FETCH: the fetch at pc fails, and its fault is raised in the slot where the word would issue (R22, R27, R254). -/
def execPageFaultFetch (s : State) : Out :=
  match s.fetch with
  | .word _ _ => .next s
  | .halted => .next s
  | .accessFault s => raise .accessFault s.me.pc s
  | .poison s => raise .poison s.me.pc s
  | .pageFault s l r => translationFault .fetch l r s.me.pc s

/-- ILLEGAL_INSN: a word that is no instruction issues (R34). -/
def execIllegalInsn (w : Insn) (s : State) : Out := raise .illegalInsn (w.zeroExtend 64) s

end Sys2Proof.Machine
end

