-- ==== Sys2Proof/Machine/Branch.lean ====
section
/-! DEFINITION. Sys2Proof/Machine/Branch.lean: compares and predicate logic (R74, R75), branches and jumps (R76 to R79) and the PFX prefix (R49 to R52). -/

namespace Sys2Proof.Machine

/-- A compare to a predicate: poison is contained (R65, R74). -/
def compare (f : Cond) (pd : PReg) (rs1 rs2 : XReg) (s : State) : Out :=
  let a := s.x rs1
  let b := s.x rs2
  needClean [a, b] s fun _ => complete s (s.setP pd (f.holds a.val b.val))

def execCmpeq (pd : PReg) (rs1 rs2 : XReg) (s : State) : Out := compare .eq pd rs1 rs2 s
def execCmpne (pd : PReg) (rs1 rs2 : XReg) (s : State) : Out := compare .ne pd rs1 rs2 s
def execCmplt (pd : PReg) (rs1 rs2 : XReg) (s : State) : Out := compare .lt pd rs1 rs2 s
def execCmpge (pd : PReg) (rs1 rs2 : XReg) (s : State) : Out := compare .ge pd rs1 rs2 s
def execCmpltu (pd : PReg) (rs1 rs2 : XReg) (s : State) : Out := compare .ltu pd rs1 rs2 s
def execCmpgeu (pd : PReg) (rs1 rs2 : XReg) (s : State) : Out := compare .geu pd rs1 rs2 s

/-- Predicate logic on two predicates (R75). -/
def predLogic (f : Bool → Bool → Bool) (pd ps1 ps2 : PReg) (s : State) : Out :=
  complete s (s.setP pd (f (s.p ps1) (s.p ps2)))

def execPand (pd ps1 ps2 : PReg) (s : State) : Out := predLogic (fun a b => a && b) pd ps1 ps2 s
def execPor (pd ps1 ps2 : PReg) (s : State) : Out := predLogic (fun a b => a || b) pd ps1 ps2 s
def execPxor (pd ps1 ps2 : PReg) (s : State) : Out := predLogic (fun a b => a != b) pd ps1 ps2 s
def execPandn (pd ps1 ps2 : PReg) (s : State) : Out := predLogic (fun a b => a && !b) pd ps1 ps2 s
def execPorn (pd ps1 ps2 : PReg) (s : State) : Out := predLogic (fun a b => a || !b) pd ps1 ps2 s
def execPnot (pd ps1 : PReg) (s : State) : Out := predLogic (fun a _ => !a) pd ps1 ps1 s

/-- PFROMX: P[pd] := (X[rs1] is not 0), with poison contained (R75). -/
def execPfromx (pd : PReg) (rs1 : XReg) (s : State) : Out :=
  let a := s.x rs1
  needClean [a] s fun _ => complete s (s.setP pd (a.val != 0#64))

/-- PTOX: X[rd] := 1 if P[ps1], else 0 (R75). -/
def execPtox (rd : XReg) (ps1 : PReg) (s : State) : Out :=
  complete s (s.writeRd rd (Reg.clean (if s.p ps1 then 1#64 else 0#64)))

/-- Control moves to a target with an effect on registers, unless the target is not canonical or not aligned (R22, R66). -/
def transfer (t : Word) (s s' : State) : Out :=
  if !canonical t then raise .accessFault t s
  else if t.extractLsb' 0 2 != 0#2 then raise .misaligned t s
  else .next (s'.updMe fun c => c.jump t (s.now + 16))

/-- A conditional branch (R76). -/
def branch (f : Cond) (rs1 rs2 : XReg) (off : BitVec 16) (s : State) : Out :=
  let a := s.x rs1
  let b := s.x rs2
  needClean [a, b] s fun _ =>
    if f.holds a.val b.val then transfer (branchTarget s.me.pc off) s s else complete s s

def execBeq (rs1 rs2 : XReg) (off : BitVec 16) (s : State) : Out := branch .eq rs1 rs2 off s
def execBne (rs1 rs2 : XReg) (off : BitVec 16) (s : State) : Out := branch .ne rs1 rs2 off s
def execBlt (rs1 rs2 : XReg) (off : BitVec 16) (s : State) : Out := branch .lt rs1 rs2 off s
def execBge (rs1 rs2 : XReg) (off : BitVec 16) (s : State) : Out := branch .ge rs1 rs2 off s
def execBltu (rs1 rs2 : XReg) (off : BitVec 16) (s : State) : Out := branch .ltu rs1 rs2 off s
def execBgeu (rs1 rs2 : XReg) (off : BitVec 16) (s : State) : Out := branch .geu rs1 rs2 off s

/-- BP: taken when P[pred] xor sense is 1 (R77). -/
def execBp (q : PReg) (sense : BitVec 1) (off : BitVec 16) (s : State) : Out :=
  if s.p q != (sense == 1#1) then transfer (branchTarget s.me.pc off) s s else complete s s

/-- J (R78). -/
def execJ (off : BitVec 26) (s : State) : Out := transfer (jumpTarget s.me.pc off) s s

/-- JAL links through x31 (R78). -/
def execJal (off : BitVec 26) (s : State) : Out :=
  transfer (jumpTarget s.me.pc off) s (s.setX 31#5 (Reg.clean (s.me.pc + 4#64)))

/-- JALR: the target comes from the old rs1; the link is written only when the jump succeeds (R79). -/
def execJalr (rd rs1 : XReg) (imm : BitVec 16) (s : State) : Out :=
  let base := s.x rs1
  needClean [base] s fun _ =>
    transfer (base.val + simm imm) s (s.setX rd (Reg.clean (s.me.pc + 4#64)))

/-- The word of a PFX with given fields (R49). -/
def pfxWord (q : PReg) (sense ce : BitVec 1) (copy : XReg) : Insn :=
  0x3F#6 ++ q ++ sense ++ ce ++ copy ++ 0#16

/-- PFX: completes once issued; the next instruction is its successor (R49, R51). -/
def execPfx (q : PReg) (sense ce : BitVec 1) (copy : XReg) (s : State) : Out :=
  if s.atLastPc then raise .accessFault pastPc s
  else .next (s.updMe fun c => { c.advance (s.now + 16) with pfx := some (pfxWord q sense ce copy) })

/-- A well-formed PFX word (R49, R34). -/
def wellFormedPfx (w : Insn) : Bool :=
  w.extractLsb' 26 6 == 0x3F#6 && w.extractLsb' 0 16 == 0#16 && (w.getLsbD 21 || w.extractLsb' 16 5 == 0#5)

/-- Whether a word of a major may follow a PFX (R50). -/
def pfxEligible (w : Insn) : Bool :=
  let m := (w.extractLsb' 26 6).toNat
  (0x01 ≤ m && m ≤ 0x0A) || m == 0x0C || m == 0x1A || m == 0x1B || m == 0x1C || m == 0x1E || (0x29 ≤ m && m ≤ 0x2E)

/-- Whether an eligible successor writes a general register (R50): not a STORE, a compare to a predicate, predicate logic but for PTOX, or a vector instruction other than MPOPC, MFIRST, VMVXS and VRED with X = 1. -/
def writesGeneral (w : Insn) : Bool :=
  let m := (w.extractLsb' 26 6).toNat
  let f := (w.extractLsb' 0 7).toNat
  let x := w.getLsbD 7
  if m == 0x1B || m == 0x0A then false
  else if m == 0x0C then (w.extractLsb' 0 11).toNat == 7
  else if m == 0x1E then !(0x10 ≤ f && f ≤ 0x12)
  else if m == 0x2B then f == 8 || f == 9
  else if m == 0x2E then f == 3
  else if m == 0x2C then 0x10 ≤ f && f ≤ 0x1A && x
  else if m == 0x29 || m == 0x2A || m == 0x2D then false
  else true

/-- Whether a successor is illegal under a pending prefix: the saved word is not a PFX (R52), the successor is not eligible, or it writes no register to copy (R50). -/
def pfxIllegal (p w : Insn) : Bool :=
  !wellFormedPfx p || !pfxEligible w || (p.getLsbD 21 && !writesGeneral w)

/-- Whether the pending prefix suppresses its successor: P[pred] xor sense is 0 (R51). -/
def pfxSuppresses (c : Ctx) (p : Insn) : Bool := c.getP (p.extractLsb' 23 3) == p.getLsbD 22

end Sys2Proof.Machine
end

