-- ==== Sys2Proof/Machine/ScalarFp.lean ====
section
/-! DEFINITION. Sys2Proof/Machine/ScalarFp.lean: scalar floating point, major 0x1E (R96 to R99). -/

namespace Sys2Proof.Machine

/-- The format of the fmt bit (R96). -/
def fmtOf (b : BitVec 1) : Fmt := if b == 1#1 then fmtBF16 else fmtF32

/-- The operand of a format: the low bits of a register (R97). -/
def fpBits (f : Fmt) (r : Reg) : Nat := r.val.toNat % 2 ^ f.width

/-- A rounding mode of the 2-bit rm (R96). -/
def rmOf (rm : BitVec 2) : RMode := rmodeOf rm.toNat

/-- A code as a register value: the bits above are zero (R97). -/
def fpWord (c : Nat) : Word := BitVec.ofNat 64 c

/-- A rounded operation on two operands (R97). -/
def fpBin (op : RMode → FV → FV → Exact) (rd rs1 rs2 : XReg) (rm : BitVec 2) (fmt : BitVec 1) (s : State) : Out :=
  let a := s.x rs1
  let b := s.x rs2
  let f := fmtOf fmt
  let r := (op (rmOf rm) (f.decode (fpBits f a)) (f.decode (fpBits f b))).round f (rmOf rm) 0
  complete s (s.writeRd rd (result (fpWord r.1) [a, b]))

def execFadd (rd rs1 rs2 : XReg) (rm : BitVec 2) (fmt : BitVec 1) (s : State) : Out := fpBin FV.add rd rs1 rs2 rm fmt s
def execFsub (rd rs1 rs2 : XReg) (rm : BitVec 2) (fmt : BitVec 1) (s : State) : Out :=
  fpBin (fun m a b => FV.add m a b.neg) rd rs1 rs2 rm fmt s
def execFmul (rd rs1 rs2 : XReg) (rm : BitVec 2) (fmt : BitVec 1) (s : State) : Out :=
  fpBin (fun _ a b => FV.mul a b) rd rs1 rs2 rm fmt s

/-- FDIV: the context waits out its fixed cost (R99). -/
def execFdiv (rd rs1 rs2 : XReg) (rm : BitVec 2) (fmt : BitVec 1) (s : State) : Out :=
  let a := s.x rs1
  let b := s.x rs2
  let f := fmtOf fmt
  let r := (FV.div (f.decode (fpBits f a)) (f.decode (fpBits f b))).round f (rmOf rm) 0
  completeWaiting .divide 64 s (s.writeRd rd (result (fpWord r.1) [a, b]))

/-- FSQRT: the context waits out its fixed cost (R99). -/
def execFsqrt (rd rs1 : XReg) (rm : BitVec 2) (fmt : BitVec 1) (s : State) : Out :=
  let a := s.x rs1
  let f := fmtOf fmt
  let r := (FV.sqrt (f.decode (fpBits f a))).round f (rmOf rm) 0
  completeWaiting .divide 64 s (s.writeRd rd (result (fpWord r.1) [a]))

/-- FMAC reads rd as its addend and rounds once (R97). -/
def execFmac (rd rs1 rs2 : XReg) (rm : BitVec 2) (fmt : BitVec 1) (s : State) : Out :=
  let a := s.x rs1
  let b := s.x rs2
  let d := s.x rd
  let f := fmtOf fmt
  let r := (FV.fma (rmOf rm) (f.decode (fpBits f d)) (f.decode (fpBits f a)) (f.decode (fpBits f b))).round f (rmOf rm) 0
  complete s (s.writeRd rd (result (fpWord r.1) [a, b, d]))

/-- FMIN and FMAX (R97). -/
def fpMinMax (wantMax : Bool) (rd rs1 rs2 : XReg) (fmt : BitVec 1) (s : State) : Out :=
  let a := s.x rs1
  let b := s.x rs2
  let f := fmtOf fmt
  complete s (s.writeRd rd (result (fpWord (f.minmax wantMax (fpBits f a) (fpBits f b))) [a, b]))

def execFmin (rd rs1 rs2 : XReg) (fmt : BitVec 1) (s : State) : Out := fpMinMax false rd rs1 rs2 fmt s
def execFmax (rd rs1 rs2 : XReg) (fmt : BitVec 1) (s : State) : Out := fpMinMax true rd rs1 rs2 fmt s

/-- An operation on the code of one operand (R97). -/
def fpUn (g : Fmt → Nat → Nat) (rd rs1 : XReg) (fmt : BitVec 1) (s : State) : Out :=
  let a := s.x rs1
  let f := fmtOf fmt
  complete s (s.writeRd rd (result (fpWord (g f (fpBits f a))) [a]))

def execFneg (rd rs1 : XReg) (fmt : BitVec 1) (s : State) : Out :=
  fpUn (fun f c => f.withSign (!f.sign c) (c % 2 ^ f.mbits)) rd rs1 fmt s
def execFabs (rd rs1 : XReg) (fmt : BitVec 1) (s : State) : Out := fpUn (fun f c => c % 2 ^ f.mbits) rd rs1 fmt s

/-- KIND of FKIND: 0 zero, 1 subnormal, 2 normal, 3 infinity, 4 NaN (R97). -/
def fpKind (f : Fmt) (c : Nat) : Nat :=
  match f.decode c with
  | .nan => 4
  | .inf _ => 3
  | .fin _ m _ => if m = 0 then 0 else if c % 2 ^ f.mbits < 2 ^ f.fbits then 1 else 2

/-- Whether a finite value equals an integer. -/
def fpIsInt : FV → Bool
  | .fin _ m e => m == 0 || decide (0 ≤ e) || m % 2 ^ (-e).toNat == 0
  | _ => false

/-- EXP of FKIND: floor(log2 |a|) of a finite non-zero value as 16 bits, else 0 (R97). -/
def fpExp : FV → Nat
  | .fin _ m e => if m = 0 then 0 else (BitVec.ofInt 16 ((m.log2 : Int) + e)).toNat
  | _ => 0

/-- The description that FKIND writes (R97). -/
def fkindWord (f : Fmt) (c : Nat) : Nat :=
  b2n (f.sign c) + 2 * fpKind f c + 16 * b2n (fpIsInt (f.decode c)) + 32 * b2n (c == f.nanc)
    + 65536 * fpExp (f.decode c)

def execFkind (rd rs1 : XReg) (fmt : BitVec 1) (s : State) : Out := fpUn fkindWord rd rs1 fmt s

/-- A compare to a predicate; poison is contained (R97, R98). -/
def fpCompare (eq lt : Bool) (pd : PReg) (rs1 rs2 : XReg) (fmt : BitVec 1) (s : State) : Out :=
  let a := s.x rs1
  let b := s.x rs2
  let f := fmtOf fmt
  needClean [a, b] s fun _ =>
    complete s (s.setP pd (fcondHolds eq lt (f.decode (fpBits f a)) (f.decode (fpBits f b))))

def execFcmpeq (pd : PReg) (rs1 rs2 : XReg) (fmt : BitVec 1) (s : State) : Out := fpCompare true false pd rs1 rs2 fmt s
def execFcmplt (pd : PReg) (rs1 rs2 : XReg) (fmt : BitVec 1) (s : State) : Out := fpCompare false true pd rs1 rs2 fmt s
def execFcmple (pd : PReg) (rs1 rs2 : XReg) (fmt : BitVec 1) (s : State) : Out := fpCompare true true pd rs1 rs2 fmt s

/-- FTOI and FTOU: rounded to an integer and saturated; NaN gives 0 (R97). -/
def fpToInt (lo hi : Int) (rd rs1 : XReg) (rm : BitVec 2) (fmt : BitVec 1) (s : State) : Out :=
  let a := s.x rs1
  let f := fmtOf fmt
  complete s (s.writeRd rd (result (BitVec.ofInt 64 (roundInt (rmOf rm) lo hi (f.decode (fpBits f a)) 0).1) [a]))

def execFtoi (rd rs1 : XReg) (rm : BitVec 2) (fmt : BitVec 1) (s : State) : Out :=
  fpToInt (-(2 ^ 63)) (2 ^ 63 - 1) rd rs1 rm fmt s
def execFtou (rd rs1 : XReg) (rm : BitVec 2) (fmt : BitVec 1) (s : State) : Out :=
  fpToInt 0 (2 ^ 64 - 1) rd rs1 rm fmt s

/-- An integer as an exact value. -/
def FV.ofInt (i : Int) : FV := .fin (decide (i < 0)) i.natAbs 0

/-- ITOF and UTOF (R97). -/
def fpFromInt (v : Word → Int) (rd rs1 : XReg) (rm : BitVec 2) (fmt : BitVec 1) (s : State) : Out :=
  let a := s.x rs1
  let f := fmtOf fmt
  complete s (s.writeRd rd (result (fpWord (f.round (rmOf rm) (FV.ofInt (v a.val)) false 0).1) [a]))

def execItof (rd rs1 : XReg) (rm : BitVec 2) (fmt : BitVec 1) (s : State) : Out :=
  fpFromInt (fun a => a.toInt) rd rs1 rm fmt s
def execUtof (rd rs1 : XReg) (rm : BitVec 2) (fmt : BitVec 1) (s : State) : Out :=
  fpFromInt (fun a => (a.toNat : Int)) rd rs1 rm fmt s

/-- FTOF: from the other of the two formats into fmt; widening is exact (R97). -/
def execFtof (rd rs1 : XReg) (rm : BitVec 2) (fmt : BitVec 1) (s : State) : Out :=
  let a := s.x rs1
  let f := fmtOf fmt
  let g := fmtOf (~~~fmt)
  complete s (s.writeRd rd (result (fpWord (f.round (rmOf rm) (g.decode (fpBits g a)) false 0).1) [a]))

end Sys2Proof.Machine
end

