-- ==== Sys2Proof/Machine/Dispatch.lean ====
section
/-! DEFINITION. Sys2Proof/Machine/Dispatch.lean: the meaning of every instruction and of every other step of the machine. -/

namespace Sys2Proof.Machine

/-- One direct call for each constructor. -/
def exec (i : Instr) (s : State) : Host.Outcome State Fault Refusal :=
  match i with
  | .add rd rs1 rs2 => Sys2Proof.Machine.execAdd rd rs1 rs2 s
  | .sub rd rs1 rs2 => Sys2Proof.Machine.execSub rd rs1 rs2 s
  | .and rd rs1 rs2 => Sys2Proof.Machine.execAnd rd rs1 rs2 s
  | .or rd rs1 rs2 => Sys2Proof.Machine.execOr rd rs1 rs2 s
  | .xor rd rs1 rs2 => Sys2Proof.Machine.execXor rd rs1 rs2 s
  | .andn rd rs1 rs2 => Sys2Proof.Machine.execAndn rd rs1 rs2 s
  | .orn rd rs1 rs2 => Sys2Proof.Machine.execOrn rd rs1 rs2 s
  | .sll rd rs1 rs2 => Sys2Proof.Machine.execSll rd rs1 rs2 s
  | .srl rd rs1 rs2 => Sys2Proof.Machine.execSrl rd rs1 rs2 s
  | .sra rd rs1 rs2 => Sys2Proof.Machine.execSra rd rs1 rs2 s
  | .rol rd rs1 rs2 => Sys2Proof.Machine.execRol rd rs1 rs2 s
  | .ror rd rs1 rs2 => Sys2Proof.Machine.execRor rd rs1 rs2 s
  | .slt rd rs1 rs2 => Sys2Proof.Machine.execSlt rd rs1 rs2 s
  | .sltu rd rs1 rs2 => Sys2Proof.Machine.execSltu rd rs1 rs2 s
  | .min rd rs1 rs2 => Sys2Proof.Machine.execMin rd rs1 rs2 s
  | .max rd rs1 rs2 => Sys2Proof.Machine.execMax rd rs1 rs2 s
  | .minu rd rs1 rs2 => Sys2Proof.Machine.execMinu rd rs1 rs2 s
  | .maxu rd rs1 rs2 => Sys2Proof.Machine.execMaxu rd rs1 rs2 s
  | .clz rd rs1 => Sys2Proof.Machine.execClz rd rs1 s
  | .ctz rd rs1 => Sys2Proof.Machine.execCtz rd rs1 s
  | .popc rd rs1 => Sys2Proof.Machine.execPopc rd rs1 s
  | .sextB rd rs1 => Sys2Proof.Machine.execSextB rd rs1 s
  | .sextH rd rs1 => Sys2Proof.Machine.execSextH rd rs1 s
  | .sextW rd rs1 => Sys2Proof.Machine.execSextW rd rs1 s
  | .zextW rd rs1 => Sys2Proof.Machine.execZextW rd rs1 s
  | .mul rd rs1 rs2 => Sys2Proof.Machine.execMul rd rs1 rs2 s
  | .mulhSs rd rs1 rs2 => Sys2Proof.Machine.execMulhSs rd rs1 rs2 s
  | .mulhUu rd rs1 rs2 => Sys2Proof.Machine.execMulhUu rd rs1 rs2 s
  | .mulhUs rd rs1 rs2 => Sys2Proof.Machine.execMulhUs rd rs1 rs2 s
  | .divs rd rs1 rs2 => Sys2Proof.Machine.execDivs rd rs1 rs2 s
  | .divu rd rs1 rs2 => Sys2Proof.Machine.execDivu rd rs1 rs2 s
  | .rems rd rs1 rs2 => Sys2Proof.Machine.execRems rd rs1 rs2 s
  | .remu rd rs1 rs2 => Sys2Proof.Machine.execRemu rd rs1 rs2 s
  | .addi rd rs1 imm => Sys2Proof.Machine.execAddi rd rs1 imm s
  | .andi rd rs1 imm => Sys2Proof.Machine.execAndi rd rs1 imm s
  | .ori rd rs1 imm => Sys2Proof.Machine.execOri rd rs1 imm s
  | .xori rd rs1 imm => Sys2Proof.Machine.execXori rd rs1 imm s
  | .slti rd rs1 imm => Sys2Proof.Machine.execSlti rd rs1 imm s
  | .sltiu rd rs1 imm => Sys2Proof.Machine.execSltiu rd rs1 imm s
  | .slli rd rs1 shamt => Sys2Proof.Machine.execSlli rd rs1 shamt s
  | .srli rd rs1 shamt => Sys2Proof.Machine.execSrli rd rs1 shamt s
  | .srai rd rs1 shamt => Sys2Proof.Machine.execSrai rd rs1 shamt s
  | .rori rd rs1 shamt => Sys2Proof.Machine.execRori rd rs1 shamt s
  | .lih rd h imm => Sys2Proof.Machine.execLih rd h imm s
  | .cmpeq pd rs1 rs2 => Sys2Proof.Machine.execCmpeq pd rs1 rs2 s
  | .cmpne pd rs1 rs2 => Sys2Proof.Machine.execCmpne pd rs1 rs2 s
  | .cmplt pd rs1 rs2 => Sys2Proof.Machine.execCmplt pd rs1 rs2 s
  | .cmpge pd rs1 rs2 => Sys2Proof.Machine.execCmpge pd rs1 rs2 s
  | .cmpltu pd rs1 rs2 => Sys2Proof.Machine.execCmpltu pd rs1 rs2 s
  | .cmpgeu pd rs1 rs2 => Sys2Proof.Machine.execCmpgeu pd rs1 rs2 s
  | .pand pd ps1 ps2 => Sys2Proof.Machine.execPand pd ps1 ps2 s
  | .por pd ps1 ps2 => Sys2Proof.Machine.execPor pd ps1 ps2 s
  | .pxor pd ps1 ps2 => Sys2Proof.Machine.execPxor pd ps1 ps2 s
  | .pandn pd ps1 ps2 => Sys2Proof.Machine.execPandn pd ps1 ps2 s
  | .porn pd ps1 ps2 => Sys2Proof.Machine.execPorn pd ps1 ps2 s
  | .pnot pd ps1 => Sys2Proof.Machine.execPnot pd ps1 s
  | .pfromx pd rs1 => Sys2Proof.Machine.execPfromx pd rs1 s
  | .ptox rd ps1 => Sys2Proof.Machine.execPtox rd ps1 s
  | .beq rs1 rs2 off => Sys2Proof.Machine.execBeq rs1 rs2 off s
  | .bne rs1 rs2 off => Sys2Proof.Machine.execBne rs1 rs2 off s
  | .blt rs1 rs2 off => Sys2Proof.Machine.execBlt rs1 rs2 off s
  | .bge rs1 rs2 off => Sys2Proof.Machine.execBge rs1 rs2 off s
  | .bltu rs1 rs2 off => Sys2Proof.Machine.execBltu rs1 rs2 off s
  | .bgeu rs1 rs2 off => Sys2Proof.Machine.execBgeu rs1 rs2 off s
  | .bp p sense off => Sys2Proof.Machine.execBp p sense off s
  | .j off => Sys2Proof.Machine.execJ off s
  | .jal off => Sys2Proof.Machine.execJal off s
  | .jalr rd rs1 imm => Sys2Proof.Machine.execJalr rd rs1 imm s
  | .lb rd base aq off => Sys2Proof.Machine.execLb rd base aq off s
  | .lbu rd base aq off => Sys2Proof.Machine.execLbu rd base aq off s
  | .lh rd base aq off => Sys2Proof.Machine.execLh rd base aq off s
  | .lhu rd base aq off => Sys2Proof.Machine.execLhu rd base aq off s
  | .lw rd base aq off => Sys2Proof.Machine.execLw rd base aq off s
  | .lwu rd base aq off => Sys2Proof.Machine.execLwu rd base aq off s
  | .ld rd base aq off => Sys2Proof.Machine.execLd rd base aq off s
  | .sb rs base rl off => Sys2Proof.Machine.execSb rs base rl off s
  | .sh rs base rl off => Sys2Proof.Machine.execSh rs base rl off s
  | .sw rs base rl off => Sys2Proof.Machine.execSw rs base rl off s
  | .sd rs base rl off => Sys2Proof.Machine.execSd rs base rl off s
  | .acas rd rs1 rs2 aq rl size => Sys2Proof.Machine.execAcas rd rs1 rs2 aq rl size s
  | .aswap rd rs1 rs2 aq rl size => Sys2Proof.Machine.execAswap rd rs1 rs2 aq rl size s
  | .aadd rd rs1 rs2 aq rl size => Sys2Proof.Machine.execAadd rd rs1 rs2 aq rl size s
  | .aand rd rs1 rs2 aq rl size => Sys2Proof.Machine.execAand rd rs1 rs2 aq rl size s
  | .aor rd rs1 rs2 aq rl size => Sys2Proof.Machine.execAor rd rs1 rs2 aq rl size s
  | .axor rd rs1 rs2 aq rl size => Sys2Proof.Machine.execAxor rd rs1 rs2 aq rl size s
  | .amin rd rs1 rs2 aq rl size => Sys2Proof.Machine.execAmin rd rs1 rs2 aq rl size s
  | .amax rd rs1 rs2 aq rl size => Sys2Proof.Machine.execAmax rd rs1 rs2 aq rl size s
  | .aminu rd rs1 rs2 aq rl size => Sys2Proof.Machine.execAminu rd rs1 rs2 aq rl size s
  | .amaxu rd rs1 rs2 aq rl size => Sys2Proof.Machine.execAmaxu rd rs1 rs2 aq rl size s
  | .fence scope => Sys2Proof.Machine.execFence scope s
  | .fenceQ mask scope => Sys2Proof.Machine.execFenceQ mask scope s
  | .fadd rd rs1 rs2 rm fmt => Sys2Proof.Machine.execFadd rd rs1 rs2 rm fmt s
  | .fsub rd rs1 rs2 rm fmt => Sys2Proof.Machine.execFsub rd rs1 rs2 rm fmt s
  | .fmul rd rs1 rs2 rm fmt => Sys2Proof.Machine.execFmul rd rs1 rs2 rm fmt s
  | .fdiv rd rs1 rs2 rm fmt => Sys2Proof.Machine.execFdiv rd rs1 rs2 rm fmt s
  | .fsqrt rd rs1 rm fmt => Sys2Proof.Machine.execFsqrt rd rs1 rm fmt s
  | .fmin rd rs1 rs2 fmt => Sys2Proof.Machine.execFmin rd rs1 rs2 fmt s
  | .fmax rd rs1 rs2 fmt => Sys2Proof.Machine.execFmax rd rs1 rs2 fmt s
  | .fmac rd rs1 rs2 rm fmt => Sys2Proof.Machine.execFmac rd rs1 rs2 rm fmt s
  | .fneg rd rs1 fmt => Sys2Proof.Machine.execFneg rd rs1 fmt s
  | .fabs rd rs1 fmt => Sys2Proof.Machine.execFabs rd rs1 fmt s
  | .fkind rd rs1 fmt => Sys2Proof.Machine.execFkind rd rs1 fmt s
  | .fcmpeq pd rs1 rs2 fmt => Sys2Proof.Machine.execFcmpeq pd rs1 rs2 fmt s
  | .fcmplt pd rs1 rs2 fmt => Sys2Proof.Machine.execFcmplt pd rs1 rs2 fmt s
  | .fcmple pd rs1 rs2 fmt => Sys2Proof.Machine.execFcmple pd rs1 rs2 fmt s
  | .ftoi rd rs1 rm fmt => Sys2Proof.Machine.execFtoi rd rs1 rm fmt s
  | .ftou rd rs1 rm fmt => Sys2Proof.Machine.execFtou rd rs1 rm fmt s
  | .itof rd rs1 rm fmt => Sys2Proof.Machine.execItof rd rs1 rm fmt s
  | .utof rd rs1 rm fmt => Sys2Proof.Machine.execUtof rd rs1 rm fmt s
  | .ftof rd rs1 rm fmt => Sys2Proof.Machine.execFtof rd rs1 rm fmt s
  | .ecall => Sys2Proof.Machine.execEcall s
  | .ebreak => Sys2Proof.Machine.execEbreak s
  | .tret => Sys2Proof.Machine.execTret s
  | .uiret => Sys2Proof.Machine.execUiret s
  | .crd rd cr => Sys2Proof.Machine.execCrd rd cr s
  | .cwr rs1 cr => Sys2Proof.Machine.execCwr rs1 cr s
  | .cset rd rs1 cr => Sys2Proof.Machine.execCset rd rs1 cr s
  | .cclr rd rs1 cr => Sys2Proof.Machine.execCclr rd rs1 cr s
  | .sleep => Sys2Proof.Machine.execSleep s
  | .dcclean rs1 => Sys2Proof.Machine.execDcclean rs1 s
  | .dcflush rs1 => Sys2Proof.Machine.execDcflush rs1 s
  | .dcinv rs1 => Sys2Proof.Machine.execDcinv rs1 s
  | .icinv rs1 => Sys2Proof.Machine.execIcinv rs1 s
  | .cstart rd rs1 rs2 => Sys2Proof.Machine.execCstart rd rs1 rs2 s
  | .cstop rd rs1 => Sys2Proof.Machine.execCstop rd rs1 s
  | .creap rd rs1 => Sys2Proof.Machine.execCreap rd rs1 s
  | .cself rs1 => Sys2Proof.Machine.execCself rs1 s
  | .forkl rd rs1 => Sys2Proof.Machine.execForkl rd rs1 s
  | .joinl rd => Sys2Proof.Machine.execJoinl rd s
  | .movh hd rs1 => Sys2Proof.Machine.execMovh hd rs1 s
  | .movfh rd hs => Sys2Proof.Machine.execMovfh rd hs s
  | .binit rd rs1 rs2 => Sys2Proof.Machine.execBinit rd rs1 rs2 s
  | .barr rd rs1 rs2 => Sys2Proof.Machine.execBarr rd rs1 rs2 s
  | .bexp rd rs1 rs2 => Sys2Proof.Machine.execBexp rd rs1 rs2 s
  | .bwait rd rs1 rs2 => Sys2Proof.Machine.execBwait rd rs1 rs2 s
  | .btest rd rs1 rs2 => Sys2Proof.Machine.execBtest rd rs1 rs2 s
  | .phasend rd rs1 rs2 => Sys2Proof.Machine.execPhasend rd rs1 rs2 s
  | .chbind rd rs1 => Sys2Proof.Machine.execChbind rd rs1 s
  | .chunbind rd rs1 => Sys2Proof.Machine.execChunbind rd rs1 s
  | .chsend rd rs1 rs2 => Sys2Proof.Machine.execChsend rd rs1 rs2 s
  | .chrecv rd rt rs1 => Sys2Proof.Machine.execChrecv rd rt rs1 s
  | .chsendv rd rs1 vs => Sys2Proof.Machine.execChsendv rd rs1 vs s
  | .chrecvv vd rt rs1 => Sys2Proof.Machine.execChrecvv vd rt rs1 s
  | .chclose rd rs1 => Sys2Proof.Machine.execChclose rd rs1 s
  | .select rd rt rs1 => Sys2Proof.Machine.execSelect rd rt rs1 s
  | .chsendb rd rs1 rs2 => Sys2Proof.Machine.execChsendb rd rs1 rs2 s
  | .chrecvb rd rs1 rs2 => Sys2Proof.Machine.execChrecvb rd rs1 rs2 s
  | .vsetvl rd rs1 => Sys2Proof.Machine.execVsetvl rd rs1 s
  | .vsett rd rs1 => Sys2Proof.Machine.execVsett rd rs1 s
  | .vmode rd rs1 => Sys2Proof.Machine.execVmode rd rs1 s
  | .ctwr rs1 rs2 => Sys2Proof.Machine.execCtwr rs1 rs2 s
  | .ctsel rs1 => Sys2Proof.Machine.execCtsel rs1 s
  | .vadd vd vs1 c x mk => Sys2Proof.Machine.execVadd vd vs1 c x mk s
  | .vsub vd vs1 c x mk => Sys2Proof.Machine.execVsub vd vs1 c x mk s
  | .vrsub vd vs1 c x mk => Sys2Proof.Machine.execVrsub vd vs1 c x mk s
  | .vand vd vs1 c x mk => Sys2Proof.Machine.execVand vd vs1 c x mk s
  | .vor vd vs1 c x mk => Sys2Proof.Machine.execVor vd vs1 c x mk s
  | .vxor vd vs1 c x mk => Sys2Proof.Machine.execVxor vd vs1 c x mk s
  | .vsll vd vs1 c x mk => Sys2Proof.Machine.execVsll vd vs1 c x mk s
  | .vsrl vd vs1 c x mk => Sys2Proof.Machine.execVsrl vd vs1 c x mk s
  | .vsra vd vs1 c x mk => Sys2Proof.Machine.execVsra vd vs1 c x mk s
  | .vmin vd vs1 c x mk => Sys2Proof.Machine.execVmin vd vs1 c x mk s
  | .vmax vd vs1 c x mk => Sys2Proof.Machine.execVmax vd vs1 c x mk s
  | .vminu vd vs1 c x mk => Sys2Proof.Machine.execVminu vd vs1 c x mk s
  | .vmaxu vd vs1 c x mk => Sys2Proof.Machine.execVmaxu vd vs1 c x mk s
  | .vmul vd vs1 c x mk => Sys2Proof.Machine.execVmul vd vs1 c x mk s
  | .vmulh vd vs1 c x mk => Sys2Proof.Machine.execVmulh vd vs1 c x mk s
  | .vmulhu vd vs1 c x mk => Sys2Proof.Machine.execVmulhu vd vs1 c x mk s
  | .vsadd vd vs1 c x mk => Sys2Proof.Machine.execVsadd vd vs1 c x mk s
  | .vsaddu vd vs1 c x mk => Sys2Proof.Machine.execVsaddu vd vs1 c x mk s
  | .vssub vd vs1 c x mk => Sys2Proof.Machine.execVssub vd vs1 c x mk s
  | .vssubu vd vs1 c x mk => Sys2Proof.Machine.execVssubu vd vs1 c x mk s
  | .vmacc vd vs1 c x mk => Sys2Proof.Machine.execVmacc vd vs1 c x mk s
  | .vabs vd vs1 mk => Sys2Proof.Machine.execVabs vd vs1 mk s
  | .vneg vd vs1 mk => Sys2Proof.Machine.execVneg vd vs1 mk s
  | .vcmpeq md vs1 c x mk => Sys2Proof.Machine.execVcmpeq md vs1 c x mk s
  | .vcmpne md vs1 c x mk => Sys2Proof.Machine.execVcmpne md vs1 c x mk s
  | .vcmplt md vs1 c x mk => Sys2Proof.Machine.execVcmplt md vs1 c x mk s
  | .vcmple md vs1 c x mk => Sys2Proof.Machine.execVcmple md vs1 c x mk s
  | .vcmpltu md vs1 c x mk => Sys2Proof.Machine.execVcmpltu md vs1 c x mk s
  | .vcmpleu md vs1 c x mk => Sys2Proof.Machine.execVcmpleu md vs1 c x mk s
  | .vfadd vd vs1 c x mk => Sys2Proof.Machine.execVfadd vd vs1 c x mk s
  | .vfsub vd vs1 c x mk => Sys2Proof.Machine.execVfsub vd vs1 c x mk s
  | .vfmul vd vs1 c x mk => Sys2Proof.Machine.execVfmul vd vs1 c x mk s
  | .vfdiv vd vs1 c x mk => Sys2Proof.Machine.execVfdiv vd vs1 c x mk s
  | .vfsqrt vd vs1 mk => Sys2Proof.Machine.execVfsqrt vd vs1 mk s
  | .vfmin vd vs1 c x mk => Sys2Proof.Machine.execVfmin vd vs1 c x mk s
  | .vfmax vd vs1 c x mk => Sys2Proof.Machine.execVfmax vd vs1 c x mk s
  | .vfmacc vd vs1 c x mk => Sys2Proof.Machine.execVfmacc vd vs1 c x mk s
  | .vfabs vd vs1 mk => Sys2Proof.Machine.execVfabs vd vs1 mk s
  | .vfneg vd vs1 mk => Sys2Proof.Machine.execVfneg vd vs1 mk s
  | .vfcmpeq md vs1 c x mk => Sys2Proof.Machine.execVfcmpeq md vs1 c x mk s
  | .vfcmplt md vs1 c x mk => Sys2Proof.Machine.execVfcmplt md vs1 c x mk s
  | .vfcmple md vs1 c x mk => Sys2Proof.Machine.execVfcmple md vs1 c x mk s
  | .vfcvt vd vs1 tag mk => Sys2Proof.Machine.execVfcvt vd vs1 tag mk s
  | .vquant vd vs1 tag mk => Sys2Proof.Machine.execVquant vd vs1 tag mk s
  | .vdequant vd vs1 tag mk => Sys2Proof.Machine.execVdequant vd vs1 tag mk s
  | .mand md ms1 ms2 x mk => Sys2Proof.Machine.execMand md ms1 ms2 x mk s
  | .mor md ms1 ms2 x mk => Sys2Proof.Machine.execMor md ms1 ms2 x mk s
  | .mxor md ms1 ms2 x mk => Sys2Proof.Machine.execMxor md ms1 ms2 x mk s
  | .mandn md ms1 ms2 x mk => Sys2Proof.Machine.execMandn md ms1 ms2 x mk s
  | .mnot md ms1 x mk => Sys2Proof.Machine.execMnot md ms1 x mk s
  | .mset md x mk => Sys2Proof.Machine.execMset md x mk s
  | .mclr md x mk => Sys2Proof.Machine.execMclr md x mk s
  | .mpopc rd ms1 mk => Sys2Proof.Machine.execMpopc rd ms1 mk s
  | .mfirst rd ms1 mk => Sys2Proof.Machine.execMfirst rd ms1 mk s
  | .vshuf vd vs1 vi mk => Sys2Proof.Machine.execVshuf vd vs1 vi mk s
  | .vslideup vd vs1 rs2 mk => Sys2Proof.Machine.execVslideup vd vs1 rs2 mk s
  | .vslidedn vd vs1 rs2 mk => Sys2Proof.Machine.execVslidedn vd vs1 rs2 mk s
  | .vcompress vd vs1 mr => Sys2Proof.Machine.execVcompress vd vs1 mr s
  | .vexpand vd vs1 mr => Sys2Proof.Machine.execVexpand vd vs1 mr s
  | .vdense vd vs1 c x mk => Sys2Proof.Machine.execVdense vd vs1 c x mk s
  | .vredSum d vs1 x mk => Sys2Proof.Machine.execVredSum d vs1 x mk s
  | .vredMin d vs1 x mk => Sys2Proof.Machine.execVredMin d vs1 x mk s
  | .vredMax d vs1 x mk => Sys2Proof.Machine.execVredMax d vs1 x mk s
  | .vredMinu d vs1 x mk => Sys2Proof.Machine.execVredMinu d vs1 x mk s
  | .vredMaxu d vs1 x mk => Sys2Proof.Machine.execVredMaxu d vs1 x mk s
  | .vredAnd d vs1 x mk => Sys2Proof.Machine.execVredAnd d vs1 x mk s
  | .vredOr d vs1 x mk => Sys2Proof.Machine.execVredOr d vs1 x mk s
  | .vredXor d vs1 x mk => Sys2Proof.Machine.execVredXor d vs1 x mk s
  | .vredFsum d vs1 x mk => Sys2Proof.Machine.execVredFsum d vs1 x mk s
  | .vredFmin d vs1 x mk => Sys2Proof.Machine.execVredFmin d vs1 x mk s
  | .vredFmax d vs1 x mk => Sys2Proof.Machine.execVredFmax d vs1 x mk s
  | .vscanSum vd vs1 mk => Sys2Proof.Machine.execVscanSum vd vs1 mk s
  | .vscanMin vd vs1 mk => Sys2Proof.Machine.execVscanMin vd vs1 mk s
  | .vscanMax vd vs1 mk => Sys2Proof.Machine.execVscanMax vd vs1 mk s
  | .vscanMinu vd vs1 mk => Sys2Proof.Machine.execVscanMinu vd vs1 mk s
  | .vscanMaxu vd vs1 mk => Sys2Proof.Machine.execVscanMaxu vd vs1 mk s
  | .vscanAnd vd vs1 mk => Sys2Proof.Machine.execVscanAnd vd vs1 mk s
  | .vscanOr vd vs1 mk => Sys2Proof.Machine.execVscanOr vd vs1 mk s
  | .vscanXor vd vs1 mk => Sys2Proof.Machine.execVscanXor vd vs1 mk s
  | .vscanFsum vd vs1 mk => Sys2Proof.Machine.execVscanFsum vd vs1 mk s
  | .vmv vd vs1 mk => Sys2Proof.Machine.execVmv vd vs1 mk s
  | .vmerge vd vs1 c x mr => Sys2Proof.Machine.execVmerge vd vs1 c x mr s
  | .vbcast vd rs2 mk => Sys2Proof.Machine.execVbcast vd rs2 mk s
  | .vmvxs rd vs1 => Sys2Proof.Machine.execVmvxs rd vs1 s
  | .vmvsx vd rs2 => Sys2Proof.Machine.execVmvsx vd rs2 s
  | .vid vd mk => Sys2Proof.Machine.execVid vd mk s
  | .vld vd base mk => Sys2Proof.Machine.execVld vd base mk s
  | .vlds vd base rs mk => Sys2Proof.Machine.execVlds vd base rs mk s
  | .vldx vd base vi iw mk => Sys2Proof.Machine.execVldx vd base vi iw mk s
  | .vst vs base mk => Sys2Proof.Machine.execVst vs base mk s
  | .vsts vs base rs mk => Sys2Proof.Machine.execVsts vs base rs mk s
  | .vstx vs base vi iw mk => Sys2Proof.Machine.execVstx vs base vi iw mk s
  | .vldl vd base vi iw mk => Sys2Proof.Machine.execVldl vd base vi iw mk s
  | .vstc vs base vi iw mr => Sys2Proof.Machine.execVstc vs base vi iw mr s
  | .vamoAdd vs base vi mk => Sys2Proof.Machine.execVamoAdd vs base vi mk s
  | .vamoMin vs base vi mk => Sys2Proof.Machine.execVamoMin vs base vi mk s
  | .vamoMax vs base vi mk => Sys2Proof.Machine.execVamoMax vs base vi mk s
  | .vamoFadd vs base vi mk => Sys2Proof.Machine.execVamoFadd vs base vi mk s
  | .mattach rd rs1 => Sys2Proof.Machine.execMattach rd rs1 s
  | .mdetach => Sys2Proof.Machine.execMdetach s
  | .mclaim rd rs1 => Sys2Proof.Machine.execMclaim rd rs1 s
  | .mrelease os => Sys2Proof.Machine.execMrelease os s
  | .mlda os base rs sp fmt => Sys2Proof.Machine.execMlda os base rs sp fmt s
  | .mldb os base rs fmt => Sys2Proof.Machine.execMldb os base rs fmt s
  | .mzero t => Sys2Proof.Machine.execMzero t s
  | .mop t osa osb rs z => Sys2Proof.Machine.execMop t osa osb rs z s
  | .mtmv vd t rs mk => Sys2Proof.Machine.execMtmv vd t rs mk s
  | .mvtm t vs rs mk => Sys2Proof.Machine.execMvtm t vs rs mk s
  | .mtld t base rs => Sys2Proof.Machine.execMtld t base rs s
  | .mtst t base rs h => Sys2Proof.Machine.execMtst t base rs h s
  | .mprune osd oss rs => Sys2Proof.Machine.execMprune osd oss rs s
  | .mhdr rd os l => Sys2Proof.Machine.execMhdr rd os l s
  | .mwait rd rs1 => Sys2Proof.Machine.execMwait rd rs1 s
  | .pcopy rd rs1 => Sys2Proof.Machine.execPcopy rd rs1 s
  | .pfill rd rs1 => Sys2Proof.Machine.execPfill rd rs1 s
  | .pwait rd rs1 => Sys2Proof.Machine.execPwait rd rs1 s
  | .ppoll rd rs1 => Sys2Proof.Machine.execPpoll rd rs1 s
  | .pcancel rd rs1 => Sys2Proof.Machine.execPcancel rd rs1 s
  | .clload rd rs1 rs2 => Sys2Proof.Machine.execClload rd rs1 rs2 s
  | .clquery vd vi rs1 => Sys2Proof.Machine.execClquery vd vi rs1 s
  | .clrun rd rs1 rs2 => Sys2Proof.Machine.execClrun rd rs1 rs2 s
  | .clwait rd rs1 => Sys2Proof.Machine.execClwait rd rs1 s
  | .pfx p sense ce copy => Sys2Proof.Machine.execPfx p sense ce copy s
  | .tlbinv v => Sys2Proof.Machine.execTlbinv v s
  | .vtypeWrite v => Sys2Proof.Machine.execVtypeWrite v s
  | .registerWrite cr v => Sys2Proof.Machine.execRegisterWrite cr v s
  | .interruptEntry => Sys2Proof.Machine.execInterruptEntry s
  | .userCompletion => Sys2Proof.Machine.execUserCompletion s
  | .saveFull => Sys2Proof.Machine.execSaveFull s
  | .localCompare => Sys2Proof.Machine.execLocalCompare s
  | .memoryReply => Sys2Proof.Machine.execMemoryReply s
  | .divideComplete => Sys2Proof.Machine.execDivideComplete s
  | .fenceWaitEnd => Sys2Proof.Machine.execFenceWaitEnd s
  | .vectorOrderWaitEnd => Sys2Proof.Machine.execVectorOrderWaitEnd s
  | .queueEntryFree => Sys2Proof.Machine.execQueueEntryFree s
  | .drainEnd => Sys2Proof.Machine.execDrainEnd s
  | .sleepWake => Sys2Proof.Machine.execSleepWake s
  | .cstopWaitEnd => Sys2Proof.Machine.execCstopWaitEnd s
  | .creapWaitEnd => Sys2Proof.Machine.execCreapWaitEnd s
  | .joinlTakeover => Sys2Proof.Machine.execJoinlTakeover s
  | .hwmRecheck => Sys2Proof.Machine.execHwmRecheck s
  | .ctwrWaitEnd => Sys2Proof.Machine.execCtwrWaitEnd s
  | .streamIndexWaitEnd => Sys2Proof.Machine.execStreamIndexWaitEnd s
  | .tlbinvWaitEnd => Sys2Proof.Machine.execTlbinvWaitEnd s
  | .vectorQueueEntry core base => Sys2Proof.Machine.execVectorQueueEntry core base s
  | .vectorDataPhase core base => Sys2Proof.Machine.execVectorDataPhase core base s
  | .probeQuery n m => Sys2Proof.Machine.execProbeQuery n m s
  | .answer n m => Sys2Proof.Machine.execAnswer n m s
  | .barrierWaitEnd => Sys2Proof.Machine.execBarrierWaitEnd s
  | .scatterDrainEnd => Sys2Proof.Machine.execScatterDrainEnd s
  | .jobWaitEnd => Sys2Proof.Machine.execJobWaitEnd s
  | .attachJob tile => Sys2Proof.Machine.execAttachJob tile s
  | .detachJob tile => Sys2Proof.Machine.execDetachJob tile s
  | .slotReleaseJob tile => Sys2Proof.Machine.execSlotReleaseJob tile s
  | .operandLoadJob tile => Sys2Proof.Machine.execOperandLoadJob tile s
  | .accumulatorJob tile => Sys2Proof.Machine.execAccumulatorJob tile s
  | .mopJob tile => Sys2Proof.Machine.execMopJob tile s
  | .pruneJob tile => Sys2Proof.Machine.execPruneJob tile s
  | .governorWindow tile held => Sys2Proof.Machine.execGovernorWindow tile held s
  | .porterJob tile n => Sys2Proof.Machine.execPorterJob tile n s
  | .completionPlaceWaitEnd => Sys2Proof.Machine.execCompletionPlaceWaitEnd s
  | .blockTransfer tile n => Sys2Proof.Machine.execBlockTransfer tile n s
  | .cellarLoadJob tile => Sys2Proof.Machine.execCellarLoadJob tile s
  | .kernelMove tile => Sys2Proof.Machine.execKernelMove tile s
  | .hbmRefresh tile row => Sys2Proof.Machine.execHbmRefresh tile row s
  | .hbmTempSample stack temp => Sys2Proof.Machine.execHbmTempSample stack temp s
  | .thermalSample die temp => Sys2Proof.Machine.execThermalSample die temp s
  | .droopBegin stack => Sys2Proof.Machine.execDroopBegin stack s
  | .droopEnd stack cycles => Sys2Proof.Machine.execDroopEnd stack cycles s
  | .powerUpdate watts => Sys2Proof.Machine.execPowerUpdate watts s
  | .dispatch lseq tiles => Sys2Proof.Machine.execDispatch lseq tiles s
  | .placementComplete lseq => Sys2Proof.Machine.execPlacementComplete lseq s
  | .preemption lseq => Sys2Proof.Machine.execPreemption lseq s
  | .processRestore lseq => Sys2Proof.Machine.execProcessRestore lseq s
  | .run tile => Sys2Proof.Machine.execRun tile s
  | .quiesce tile => Sys2Proof.Machine.execQuiesce tile s
  | .gate tile => Sys2Proof.Machine.execGate tile s
  | .wake tile => Sys2Proof.Machine.execWake tile s
  | .quiesceComplete tile => Sys2Proof.Machine.execQuiesceComplete tile s
  | .gatingComplete tile => Sys2Proof.Machine.execGatingComplete tile s
  | .wakingComplete tile => Sys2Proof.Machine.execWakingComplete tile s
  | .nak link ftag => Sys2Proof.Machine.execNak link ftag s
  | .ack m => Sys2Proof.Machine.execAck m s
  | .offer m => Sys2Proof.Machine.execOffer m s
  | .commit m => Sys2Proof.Machine.execCommit m s
  | .data m => Sys2Proof.Machine.execData m s
  | .close m => Sys2Proof.Machine.execClose m s
  | .linkUp link => Sys2Proof.Machine.execLinkUp link s
  | .linkTrainingTimeout link => Sys2Proof.Machine.execLinkTrainingTimeout link s
  | .linkRetry link => Sys2Proof.Machine.execLinkRetry link s
  | .ackTimer peer => Sys2Proof.Machine.execAckTimer peer s
  | .resendTimer peer => Sys2Proof.Machine.execResendTimer peer s
  | .admitLaunch m => Sys2Proof.Machine.execAdmit m s
  | .admitted m => Sys2Proof.Machine.execAdmitted m s
  | .image m => Sys2Proof.Machine.execImage m s
  | .reserve m => Sys2Proof.Machine.execReserve m s
  | .reserved m => Sys2Proof.Machine.execReserved m s
  | .place m => Sys2Proof.Machine.execPlace m s
  | .placed m => Sys2Proof.Machine.execPlaced m s
  | .stopped m => Sys2Proof.Machine.execStopped m s
  | .endMsg m => Sys2Proof.Machine.execEndMsg m s
  | .ended m => Sys2Proof.Machine.execEnded m s
  | .knot m => Sys2Proof.Machine.execKnot m s
  | .switch m => Sys2Proof.Machine.execSwitch m s
  | .switched m => Sys2Proof.Machine.execSwitched m s
  | .commitsave m => Sys2Proof.Machine.execCommitsave m s
  | .restore m => Sys2Proof.Machine.execRestore m s
  | .restored m => Sys2Proof.Machine.execRestored m s
  | .join m => Sys2Proof.Machine.execJoin m s
  | .joined m => Sys2Proof.Machine.execJoined m s
  | .park m => Sys2Proof.Machine.execPark m s
  | .stage q => Sys2Proof.Machine.execStage q s
  | .submit q => Sys2Proof.Machine.execSubmit q s
  | .cancel q => Sys2Proof.Machine.execCancel q s
  | .query q => Sys2Proof.Machine.execQuery q s
  | .knotlog q => Sys2Proof.Machine.execKnotlog q s
  | .floor q => Sys2Proof.Machine.execFloor q s
  | .attest q => Sys2Proof.Machine.execAttest q s
  | .release q => Sys2Proof.Machine.execRelease q s
  | .rdmaWrite w => Sys2Proof.Machine.execRdmaWrite w s
  | .deviceReset b => Sys2Proof.Machine.execDeviceReset b s
  | .securityAlarm => Sys2Proof.Machine.execSecurityAlarm s
  | .illegalInsn w => Sys2Proof.Machine.execIllegalInsn w s
  | .pageFaultFetch => Sys2Proof.Machine.execPageFaultFetch s
  | .flitRejected link f => Sys2Proof.Machine.execFlitRejected link f s
  | .transitFlit m => Sys2Proof.Machine.execTransitFlit m s
  | .badCommand q => Sys2Proof.Machine.execBadCommand q s
  | .reportSigned salt => Sys2Proof.Machine.execReportSigned salt s

end Sys2Proof.Machine
end

