-- ==== Sys2Proof/Machine/Sched.lean ====
section
/-! DEFINITION. Sys2Proof/Machine/Sched.lean: what moves next: the issue slots of a core (R12 to R15, R108), what an instruction boundary takes (R24, R27, R63), the step of a prefix's successor (R51), waits (R109), engines, and the events that the outside world or nature brings. -/

namespace Sys2Proof.Machine

/-- The step that ends a wait, where one does (R109); a wait that is over already ends by performing its instruction. -/
def Wait.ending (w : Wait) : Option (State → Out) :=
  match w with
  | .no => none
  | .resume => none
  | .memReply => some execMemoryReply
  | .divide => some execDivideComplete
  | .fence => some execFenceWaitEnd
  | .vectorOrder => some execVectorOrderWaitEnd
  | .queueFree _ => some execQueueEntryFree
  | .drain => some execDrainEnd
  | .sleep => some execSleepWake
  | .cstop _ => some execCstopWaitEnd
  | .creap _ => some execCreapWaitEnd
  | .joinl => some execJoinlTakeover
  | .hwm => some execHwmRecheck
  | .ctwr _ => some execCtwrWaitEnd
  | .reader _ => some execCtwrWaitEnd
  | .streamIndex _ => some execStreamIndexWaitEnd
  | .tlbinv _ => some execTlbinvWaitEnd
  | .channel => none
  | .barrier => some execBarrierWaitEnd
  | .scatter => some execScatterDrainEnd
  | .job => some execJobWaitEnd
  | .place _ => some execCompletionPlaceWaitEnd
  | .release => some execFenceWaitEnd
  | .stopping _ => some execDrainEnd
  | .vfault _ _ _ => some execDrainEnd

/-- Whether a wait ends in the i-cycle in which what it waits for happens (R112, R127, R129); the others end in a slot of their context. -/
def Wait.eager (w : Wait) : Bool :=
  match w with
  | .no => false
  | .memReply => false
  | .divide => false
  | .sleep => false
  | .hwm => false
  | .channel => false
  | _ => true

/-- What the end of a context's wait gives, when the wait is over. -/
def State.waitOver (s : State) (c : Nat) : Option State :=
  let s := { s with cur := c }
  match (s.ctx c).wait.ending with
  | none => none
  | some f => match f s with
    | .next t => if (t.ctx c).wait ≠ (s.ctx c).wait || (t.ctx c).slot ≠ .running then some t else none
    | _ => none

/-- One context's wait ends in this i-cycle, if it does so of its own: what it waited for has happened, or its instruction performs now. Whose turn it is does not change. -/
def State.endEager (run : Insn → State → Out) (s : State) (c : Nat) : Option State :=
  let x := s.ctx c
  if x.slot ≠ .running || !x.wait.eager || !s.clocked (coreOf c) then none
  else
    let u := { s with cur := c, iw := x.uword }
    let r := if x.wait = .resume then (match run x.uword u with
      | .next t => some t
      | _ => none) else u.waitOver c
    r.map fun t => { t with cur := s.cur, iw := s.iw }

/-- Waits that are over end in the i-cycle in which they are, n of them at most; of several the one of the lowest core and slot goes first (R130). -/
def State.endWaits (run : Insn → State → Out) : Nat → State → State
  | 0, s => s
  | n + 1, s => match s.ctxs.findSome? fun kv => s.endEager run kv.1 with
    | some t => State.endWaits run n t
    | none => s

/-- Whether a context is being stopped for a switch and stays where it is (R374). -/
def State.pausedCtx (s : State) (c : Nat) : Bool :=
  (s.ctx c).atBoundary && (match s.procOf c with
    | some l => match s.entry l with
      | some e => e.switching
      | none => false
    | none => false)

/-- What a boundary of a context takes in place of its next instruction: a stop, SAVE_FULL, or an interrupt (R24, R27, R63, R120). -/
def State.boundary (s : State) (c : Nat) : Option (State → Out) :=
  let s := { s with cur := c }
  let x := s.ctx c
  if !x.atBoundary then none
  else if x.stopReq then some fun s => .next (if s.awayOffers c then s.leaveOffers c else s.stopCtx c .halted)
  else if s.saveFullDue then some execSaveFull
  else if s.deliverable || s.interrupt.isSome then some execInterruptEntry
  else none

/-- The first i-cycle after the core's last in which a context's slot comes round and it may issue (R12 to R14, R108). -/
def State.slotCycle (s : State) (c : Nat) : Nat :=
  let a := max ((s.core (coreOf c)).cyc + 1) (s.ctx c).ready
  a + (slotOf c + 16 - a % 16) % 16

/-- The state at a context's slot in an i-cycle: its core's clock stands there. -/
def State.atSlot (s : State) (c t : Nat) : State := { s with cur := c }.updCore (coreOf c) fun k => { k with cyc := t }

/-- Whether a context would use its slot in an i-cycle: to take something at its boundary, to issue, or to end a wait. -/
def State.wants (s : State) (c t : Nat) : Bool :=
  let x := s.ctx c
  let u := s.atSlot c t
  x.slot == .running && !s.pausedCtx c && ((u.boundary c).isSome || x.wait == .no || (u.waitOver c).isSome)

/-- The context of a core that uses the next slot, with its i-cycle; each is judged at its own slot (R29, R108). -/
def State.nextSlot (s : State) (k : Nat) : Option (Nat × Nat) :=
  if !s.clocked k then none
  else (List.range 16).foldl (fun b i =>
    let c := 16 * k + i
    let t := s.slotCycle c
    if s.wants c t then
      match b with
      | some (_, u) => if t < u then some (c, t) else b
      | none => some (c, t)
    else b) none

/-- The majors that no keeper core has (R21). -/
def keeperLacks (w : Insn) : Bool :=
  let m := (w.extractLsb' 26 6).toNat
  m == 0x21 || m == 0x22 || (0x28 ≤ m && m ≤ 0x2E) || (0x30 ≤ m && m ≤ 0x32)

/-- A fetched word issues (R34, R50, R51): legal or not, prefixed or not. run is the meaning of a word, and legal says whether it has one. A word of a major that no keeper core has raises ILLEGAL_INSN there before a prefix's predicate is looked at (DEDUCED: R21 raises it for every such word that issues, and R51 lists among what a suppressed successor still raises the ILLEGAL_INSN of R34 and R50 only; log entry 80). -/
def State.issueWord (run : Insn → State → Out) (legal : Insn → Bool) (w : Insn) (s : State) : Out :=
  let s := { s with iw := w }
  if !legal w || (isKeeper s.cur && keeperLacks w) then execIllegalInsn w s
  else match s.me.pfx with
    | some p => if pfxIllegal p w then execIllegalInsn w s else if pfxSuppresses s.me p then complete s s else run w s
    | none => run w s

/-- The instruction at pc issues, or the fetch traps (R22, R27). -/
def State.issueHere (run : Insn → State → Out) (legal : Insn → Bool) (s : State) : Out :=
  match s.fetch with
  | .word s w => s.issueWord run legal w
  | .halted => .next s
  | _ => execPageFaultFetch s

/-- A context at its slot: its boundary comes first (R24, R27, R63), then its instruction. -/
def State.slotHere (run : Insn → State → Out) (legal : Insn → Bool) (c : Nat) (s : State) : Out :=
  match s.boundary c with
  | some f => f s
  | none => if s.pausedCtx c then .next s else s.issueHere run legal

/-- A context uses its slot in an i-cycle: what its boundary takes, its instruction, or the end of its wait, after which it may issue in that very slot (R64, R105). -/
def State.useSlot (run : Insn → State → Out) (legal : Insn → Bool) (c t : Nat) (s : State) : Out :=
  let u := s.atSlot c t
  match u.boundary c with
  | some f => f u
  | none =>
    if (u.ctx c).wait = .no then u.issueHere run legal
    else match u.waitOver c with
      | none => .next u
      | some v =>
        if (v.ctx c).wait = .no && (v.ctx c).slot == .running && decide ((v.ctx c).ready ≤ t) then v.slotHere run legal c else .next v

/-- A core has its turn. -/
def State.issueCore (run : Insn → State → Out) (legal : Insn → Bool) (k : Nat) (s : State) : Out :=
  match s.nextSlot k with
  | some (c, t) => s.useSlot run legal c t
  | none => .next s

/-- What the queues of a core and the engines of its tile can do next: each a step that may turn out to change nothing. -/
def State.engineSteps (s : State) (k : Nat) : List (State → Out) :=
  let t := tileOfCore k
  ((s.core k).parts.flatMap fun p => [execVectorQueueEntry k p.base, execVectorDataPhase k p.base])
    ++ (if (s.core k).buf.isEmpty then [] else [fun s => .next (s.performHeld k 0)])
    ++ [execMatrixHead t, execPorterJob t 0, execBlockTransfer t 0, execCellarLoadJob t, execKernelMove t]

/-- The first of some steps that changes a core or its tile. -/
def State.firstChange (s : State) (k : Nat) : List (State → Out) → Option State
  | [] => none
  | f :: fs => match f s with
    | .next t => if t.cores.find k ≠ s.cores.find k || t.tiles.find (tileOfCore k) ≠ s.tiles.find (tileOfCore k) then some t else s.firstChange k fs
    | _ => s.firstChange k fs

/-- The core that has the turn when no schedule says otherwise (log entry 2): that of the last issue, else the first with a context that wants a slot, else none. -/
def State.turn (s : State) : Option Nat :=
  (coreOf s.cur :: (s.ctxs.map fun kv => coreOf kv.1).dedup).find? fun k => (s.nextSlot k).isSome

/-- Whether a core's clock may run on for n i-cycles with no issue: it runs at all (R394, R401), no context of the core would use a slot in them (R108), and none of them passes a compare value that a context waits for (R29). -/
def State.mayIdle (s : State) (k n : Nat) : Bool :=
  let now := (s.core k).cyc
  s.clocked k && (match s.nextSlot k with
    | some (_, t) => decide (now + n < t)
    | none => true) && (List.range 16).all fun i =>
      let x := s.ctx (16 * k + i)
      x.slot != .running || !x.ien.getLsbD 1 || decide (x.ccmp.toNat ≤ now) || decide (now + n ≤ x.ccmp.toNat)

/-- A core's clock runs on with no issue. -/
def State.idle (s : State) (k n : Nat) : State := if s.mayIdle k n then s.updCore k fun c => { c with cyc := c.cyc + n } else s

/-- What moves when no schedule says otherwise (log entry 2): a context, else a queue or engine, else the clock of the core that issued last. Before boot has ended nothing does (R422). -/
def State.defaultStep (run : Insn → State → Out) (legal : Insn → Bool) (s : State) : Out :=
  if !s.sec.up then .next s
  else match s.turn with
    | some k => s.issueCore run legal k
    | none => match (s.ctxs.map fun kv => coreOf kv.1).dedup.findSome? fun k => s.firstChange k (s.engineSteps k) with
      | some t => .next t
      | none => .next (s.idle (coreOf s.cur) 1)

/-- An uncorrectable error in a core's cached data (R365): where the core holds the line dirty, a word is poisoned and counted; a clean line is dropped and fetched again. -/
def State.wayError (s : State) (k a : Nat) : State :=
  let t := s.tile (tileOfCore k)
  match t.held k (a / 64) with
  | none => s
  | some h =>
    if h.st.dirty then
      (s.setTile (tileOfCore k) { t with mem := t.mem.setMark a true }).updCore k fun c => { c with wayue := satInc c.wayue }
    else (s.setTile (tileOfCore k) (t.unhold k (a / 64))).updCore k fun c => { c with wayce := satInc c.wayce }

/-- An uncorrectable error in operand memory poisons an element (R365). -/
def OpSlot.damage (o : OpSlot) (row n : Nat) (scale : Bool) : OpSlot :=
  let hit := fun (m : List (List OpEl)) => m.modify row fun r => r.modify n fun x => (x.1, true)
  if scale then { o with scales := hit o.scales } else { o with els := hit o.els }

/-- An uncorrectable error in a tile's operand memory or tile store (R365). -/
def Engines.damageOperand (g : Engines) (slot row n : Nat) (scale : Bool) : Engines :=
  match g.slots.find slot with
  | some o => { g with slots := g.slots.set slot (o.damage row n scale) }
  | none => g

def Engines.damageAcc (g : Engines) (key n : Nat) : Engines :=
  match g.acc.find key with
  | some r => { g with acc := g.acc.set key (r.modify n fun x => (x.1, true)) }
  | none => g

/-- Whether a row's meaning is reached by an issue slot only: it has a word (R34), or it is the trap that stands in for one (R22, R34). -/
def Instr.slotOnly (i : Instr) : Bool :=
  (encode i).isSome || (match i with
    | .illegalInsn _ => true
    | .pageFaultFetch => true
    | _ => false)

/-- A change in a tile whose clocks run. -/
def State.inTile (s : State) (t : Nat) (f : Tile → Tile) : State := if s.clocked (8 * t) then s.updTile t f else s

/-- One entry of the schedule. -/
def State.act (run : Insn → State → Out) (legal : Insn → Bool) (a : Act) (s : State) : Out :=
  match a with
  | .issue k => if s.sec.up then s.issueCore run legal k else .next s
  | .event i => if Instr.slotOnly i then .next s else exec i s
  | .idle k n => .next (s.idle k n)
  | .delay c n => .next (if (s.ctx c).wait = .memReply then s.updCtx c fun x => { x with ready := x.ready + n } else s)
  | .hold k on => .next (s.updCore k fun c => { c with hold := on })
  | .perform k n => .next (if s.clocked k then s.performHeld k n else s)
  | .writeBack t l => .next (s.inTile t fun x => x.writeBack l)
  | .evictTlb k n => .next (s.updCore k fun c => { c with tlb := c.tlb.eraseIdx n })
  | .evictWalker t n => .next (s.updTile t fun x => { x with walker := x.walker.eraseIdx n })
  | .evictL1i k l => .next (s.updCore k fun c => { c with l1i := c.l1i.erase l })
  | .evict k l => .next (s.inTile (tileOfCore k) fun x => x.evict k l)
  | .demote k l => .next (s.inTile (tileOfCore k) fun x => x.leaveL1 (s.ways k) k l)
  | .launch k b => .next (s.launchStep k b)
  | .element k b i j => .next (s.elementStep k b i j)
  | .matrixLine t n => .next (s.matrixLine t n)
  | .cellarLine t n => .next (s.cellarLine t n)
  | .stretch k n => .next (s.stretchMore k n)
  | .idleFlit l f => .next (s.idleFlit l f)
  | .hbmError t l => .next (s.updTile t fun x => { x with latent := natsInsert x.latent l })
  | .hbmCorrected t => .next (s.inTile t fun x => { x with hbmce := satInc x.hbmce })
  | .wayCorrected k => .next (if s.clocked k then s.updCore k fun c => { c with wayce := satInc c.wayce } else s)
  | .wayError k a => .next (if s.clocked k then s.wayError k a else s)
  | .operandError t d r n sc => .next (s.inTile t fun x => { x with eng := x.eng.damageOperand d r n sc })
  | .accError t r n => .next (s.inTile t fun x => { x with eng := x.eng.damageAcc r n })
  | .parityError k r l => .next (s.updCore k fun c => { c with parity := (r, l) :: c.parity })

/-- Whether the schedule is about to choose tiles for a dispatch (R233, log entry 63). -/
def State.choosesTiles (s : State) : Bool :=
  match s.sched with
  | .event (.dispatch _ _) :: _ => true
  | _ => false

/-- How many waits may end at one moment: the instruction of each may wait again. -/
def State.waitBound (s : State) : Nat := 2 * s.ctxs.length + 1

/-- What follows whatever moved, at the same moment: waits that are over end (R112, R127), the Innkeeper applies its rules (R233), and the channel units settle (R209, R220). -/
def State.aftermath (run : Insn → State → Out) (s : State) : State :=
  let s := State.endWaits run s.waitBound s
  let s := (if s.choosesTiles then s else s.innkeep).settle
  State.endWaits run s.waitBound s

/-- The outcome of a step with what follows it. -/
def settled (run : Insn → State → Out) (o : Out) : Out :=
  match o with
  | .next s => .next (s.aftermath run)
  | .fault f => .fault f
  | .refused r => .refused r

/-- One step: the head of the schedule, or what moves when there is none. -/
def State.stepWith (run : Insn → State → Out) (legal : Insn → Bool) (s : State) : Out :=
  settled run (match s.sched with
    | a :: rest => State.act run legal a { s with sched := rest }
    | [] => s.defaultStep run legal)

/-- The meaning of a word: that of the instruction it decodes to. -/
noncomputable def execWord (w : Insn) (s : State) : Out :=
  match decode w with
  | some i => exec i s
  | none => execIllegalInsn w s

/-- Whether a word is an instruction (R34). -/
noncomputable def legalWord (w : Insn) : Bool := (decode w).isSome

/-- Where withFetchWord places a program on a machine that has not booted: page tables at 0x10000 that map address 0x10000, for reading and execution at U and S, to the frame at 0x20000. -/
def placedMemory : Memory :=
  Memory.empty.setBytes (wbytes 0x10000 (leBytes 8 0x11001) false ++ wbytes 0x11000 (leBytes 8 0x12001) false
    ++ wbytes 0x12000 (leBytes 8 0x13001) false ++ wbytes 0x13008 (leBytes 8 (0x20000 + 55)) false)

/-- A machine that has booted and on whose tile 0 one process is placed: slot 0 of core 0 starts at S and address 0x10000. It stands for the steps that log entry 8 names. -/
def State.placeProgram (s : State) : State :=
  { s with
    cur := 0
    sec := { s.sec with up := true }
    ctxs := s.ctxs.set 0 (Ctx.start 0x10000#64 1#2)
    tiles := s.tiles.set 0 { s.tile 0 with
      mem := placedMemory, old := [], dir := [], latent := [], root := 16#19, walker := [], place := some { ltag := 1#64, cores := 1, tiles := 1, index := 0, va := 0x20000#64 } }
    cores := s.cores.set 0 { s.core 0 with tlb := [], l1i := [] } }

/-- Where the tile or keeper memory holds the word at the pc of the context that issues. -/
def State.placeWord (s : State) (bs : List Byte) : State :=
  let va := s.me.pc
  let put := fun (s : State) (pa : Nat) =>
    (if isKeeper s.cur then { s with kmem := s.kmem.write (wbytes pa bs false) }
     else s.updTile (tileOf s.cur) fun t => { t with mem := t.mem.write (wbytes pa bs false) }).updMyCore fun k => { k with l1i := k.l1i.erase (pa / 64) }
  if isKeeper s.cur && s.me.priv == 3#2 then put s va.toNat
  else match (s.translate (coreOf s.cur) s.me.priv va .fetch).2 with
    | .ok pa => put s pa
    | _ => s

end Sys2Proof.Machine
end

