-- ==== Sys2Proof/Machine/Run.lean ====
section
/-! DEFINITION. Sys2Proof/Machine/Run.lean: the meaning of a word reached without building its Instr, which lets the machine run as compiled code (a compiled constructor has room for fewer rows than the table has). runWord_eq says that it is the meaning of the instruction that the word decodes to. -/

namespace Sys2Proof.Machine

/-- A meaning, where the fields of the word are well formed. -/
def go (wf : Bool) (f : State → Out) : Option (State → Out) := if wf then some f else none

/-- The meanings of major 0x01, by the fields that decode it. -/
def run01 (a b c : BitVec 5) (f : BitVec 11) : Option (State → Out) :=
  match f.toNat with
  | 0 => go (true) (execAdd a b c)
  | 1 => go (true) (execSub a b c)
  | 2 => go (true) (execAnd a b c)
  | 3 => go (true) (execOr a b c)
  | 4 => go (true) (execXor a b c)
  | 5 => go (true) (execAndn a b c)
  | 6 => go (true) (execOrn a b c)
  | 8 => go (true) (execSll a b c)
  | 9 => go (true) (execSrl a b c)
  | 10 => go (true) (execSra a b c)
  | 11 => go (true) (execRol a b c)
  | 12 => go (true) (execRor a b c)
  | 16 => go (true) (execSlt a b c)
  | 17 => go (true) (execSltu a b c)
  | 18 => go (true) (execMin a b c)
  | 19 => go (true) (execMax a b c)
  | 20 => go (true) (execMinu a b c)
  | 21 => go (true) (execMaxu a b c)
  | 24 => if c == 0#5 then go (true) (execClz a b) else none
  | 25 => if c == 0#5 then go (true) (execCtz a b) else none
  | 26 => if c == 0#5 then go (true) (execPopc a b) else none
  | 27 => if c == 0#5 then go (true) (execSextB a b) else none
  | 28 => if c == 0#5 then go (true) (execSextH a b) else none
  | 29 => if c == 0#5 then go (true) (execSextW a b) else none
  | 30 => if c == 0#5 then go (true) (execZextW a b) else none
  | 32 => go (true) (execMul a b c)
  | 33 => go (true) (execMulhSs a b c)
  | 34 => go (true) (execMulhUu a b c)
  | 35 => go (true) (execMulhUs a b c)
  | 36 => go (true) (execDivs a b c)
  | 37 => go (true) (execDivu a b c)
  | 38 => go (true) (execRems a b c)
  | 39 => go (true) (execRemu a b c)
  | _ => none

/-- The meanings of major 0x0A, by the fields that decode it. -/
def run0A (a b c : BitVec 5) (f : BitVec 11) : Option (State → Out) :=
  match f.toNat with
  | 0 => if a.extractLsb' 3 2 == 0#2 then go (true) (execCmpeq (a.extractLsb' 0 3) b c) else none
  | 1 => if a.extractLsb' 3 2 == 0#2 then go (true) (execCmpne (a.extractLsb' 0 3) b c) else none
  | 2 => if a.extractLsb' 3 2 == 0#2 then go (true) (execCmplt (a.extractLsb' 0 3) b c) else none
  | 3 => if a.extractLsb' 3 2 == 0#2 then go (true) (execCmpge (a.extractLsb' 0 3) b c) else none
  | 4 => if a.extractLsb' 3 2 == 0#2 then go (true) (execCmpltu (a.extractLsb' 0 3) b c) else none
  | 5 => if a.extractLsb' 3 2 == 0#2 then go (true) (execCmpgeu (a.extractLsb' 0 3) b c) else none
  | _ => none

/-- The meanings of major 0x0C, by the fields that decode it. -/
def run0C (a b c : BitVec 5) (f : BitVec 11) : Option (State → Out) :=
  match f.toNat with
  | 0 => if a.extractLsb' 3 2 == 0#2 && b.extractLsb' 3 2 == 0#2 && c.extractLsb' 3 2 == 0#2 then go (true) (execPand (a.extractLsb' 0 3) (b.extractLsb' 0 3) (c.extractLsb' 0 3)) else none
  | 1 => if a.extractLsb' 3 2 == 0#2 && b.extractLsb' 3 2 == 0#2 && c.extractLsb' 3 2 == 0#2 then go (true) (execPor (a.extractLsb' 0 3) (b.extractLsb' 0 3) (c.extractLsb' 0 3)) else none
  | 2 => if a.extractLsb' 3 2 == 0#2 && b.extractLsb' 3 2 == 0#2 && c.extractLsb' 3 2 == 0#2 then go (true) (execPxor (a.extractLsb' 0 3) (b.extractLsb' 0 3) (c.extractLsb' 0 3)) else none
  | 3 => if a.extractLsb' 3 2 == 0#2 && b.extractLsb' 3 2 == 0#2 && c.extractLsb' 3 2 == 0#2 then go (true) (execPandn (a.extractLsb' 0 3) (b.extractLsb' 0 3) (c.extractLsb' 0 3)) else none
  | 4 => if a.extractLsb' 3 2 == 0#2 && b.extractLsb' 3 2 == 0#2 && c.extractLsb' 3 2 == 0#2 then go (true) (execPorn (a.extractLsb' 0 3) (b.extractLsb' 0 3) (c.extractLsb' 0 3)) else none
  | 5 => if a.extractLsb' 3 2 == 0#2 && b.extractLsb' 3 2 == 0#2 && c == 0#5 then go (true) (execPnot (a.extractLsb' 0 3) (b.extractLsb' 0 3)) else none
  | 6 => if a.extractLsb' 3 2 == 0#2 && c == 0#5 then go (true) (execPfromx (a.extractLsb' 0 3) b) else none
  | 7 => if b.extractLsb' 3 2 == 0#2 && c == 0#5 then go (true) (execPtox a (b.extractLsb' 0 3)) else none
  | _ => none

/-- The meanings of major 0x1C, by the fields that decode it. -/
def run1C (a b c : BitVec 5) (f : BitVec 11) : Option (State → Out) :=
  match (f.extractLsb' 0 4).toNat with
  | 0 => if f.extractLsb' 4 3 == 0#3 then go (true) (execAcas a b c (f.extractLsb' 10 1) (f.extractLsb' 9 1) (f.extractLsb' 7 2)) else none
  | 1 => if f.extractLsb' 4 3 == 0#3 then go (true) (execAswap a b c (f.extractLsb' 10 1) (f.extractLsb' 9 1) (f.extractLsb' 7 2)) else none
  | 2 => if f.extractLsb' 4 3 == 0#3 then go (true) (execAadd a b c (f.extractLsb' 10 1) (f.extractLsb' 9 1) (f.extractLsb' 7 2)) else none
  | 3 => if f.extractLsb' 4 3 == 0#3 then go (true) (execAand a b c (f.extractLsb' 10 1) (f.extractLsb' 9 1) (f.extractLsb' 7 2)) else none
  | 4 => if f.extractLsb' 4 3 == 0#3 then go (true) (execAor a b c (f.extractLsb' 10 1) (f.extractLsb' 9 1) (f.extractLsb' 7 2)) else none
  | 5 => if f.extractLsb' 4 3 == 0#3 then go (true) (execAxor a b c (f.extractLsb' 10 1) (f.extractLsb' 9 1) (f.extractLsb' 7 2)) else none
  | 6 => if f.extractLsb' 4 3 == 0#3 then go (true) (execAmin a b c (f.extractLsb' 10 1) (f.extractLsb' 9 1) (f.extractLsb' 7 2)) else none
  | 7 => if f.extractLsb' 4 3 == 0#3 then go (true) (execAmax a b c (f.extractLsb' 10 1) (f.extractLsb' 9 1) (f.extractLsb' 7 2)) else none
  | 8 => if f.extractLsb' 4 3 == 0#3 then go (true) (execAminu a b c (f.extractLsb' 10 1) (f.extractLsb' 9 1) (f.extractLsb' 7 2)) else none
  | 9 => if f.extractLsb' 4 3 == 0#3 then go (true) (execAmaxu a b c (f.extractLsb' 10 1) (f.extractLsb' 9 1) (f.extractLsb' 7 2)) else none
  | _ => none

/-- The meanings of major 0x1D, by the fields that decode it. -/
def run1D (a b c : BitVec 5) (f : BitVec 11) : Option (State → Out) :=
  match (f.extractLsb' 8 3).toNat with
  | 0 => if a == 0#5 && b == 0#5 && c == 0#5 && f.extractLsb' 2 6 == 0#6 then go (true) (execFence (f.extractLsb' 0 2)) else none
  | 1 => if a == 0#5 && b == 0#5 && c == 0#5 && f.extractLsb' 7 1 == 0#1 then go ((f.extractLsb' 2 5) != 0#5) (execFenceQ (f.extractLsb' 2 5) (f.extractLsb' 0 2)) else none
  | _ => none

/-- The meanings of major 0x1E, by the fields that decode it. -/
def run1E (a b c : BitVec 5) (f : BitVec 11) : Option (State → Out) :=
  match (f.extractLsb' 0 7).toNat with
  | 0 => if f.extractLsb' 10 1 == 0#1 then go (true) (execFadd a b c (f.extractLsb' 8 2) (f.extractLsb' 7 1)) else none
  | 1 => if f.extractLsb' 10 1 == 0#1 then go (true) (execFsub a b c (f.extractLsb' 8 2) (f.extractLsb' 7 1)) else none
  | 2 => if f.extractLsb' 10 1 == 0#1 then go (true) (execFmul a b c (f.extractLsb' 8 2) (f.extractLsb' 7 1)) else none
  | 3 => if f.extractLsb' 10 1 == 0#1 then go (true) (execFdiv a b c (f.extractLsb' 8 2) (f.extractLsb' 7 1)) else none
  | 4 => if c == 0#5 && f.extractLsb' 10 1 == 0#1 then go (true) (execFsqrt a b (f.extractLsb' 8 2) (f.extractLsb' 7 1)) else none
  | 5 => if f.extractLsb' 8 3 == 0#3 then go (true) (execFmin a b c (f.extractLsb' 7 1)) else none
  | 6 => if f.extractLsb' 8 3 == 0#3 then go (true) (execFmax a b c (f.extractLsb' 7 1)) else none
  | 7 => if f.extractLsb' 10 1 == 0#1 then go (true) (execFmac a b c (f.extractLsb' 8 2) (f.extractLsb' 7 1)) else none
  | 8 => if c == 0#5 && f.extractLsb' 8 3 == 0#3 then go (true) (execFneg a b (f.extractLsb' 7 1)) else none
  | 9 => if c == 0#5 && f.extractLsb' 8 3 == 0#3 then go (true) (execFabs a b (f.extractLsb' 7 1)) else none
  | 10 => if c == 0#5 && f.extractLsb' 8 3 == 0#3 then go (true) (execFkind a b (f.extractLsb' 7 1)) else none
  | 16 => if a.extractLsb' 3 2 == 0#2 && f.extractLsb' 8 3 == 0#3 then go (true) (execFcmpeq (a.extractLsb' 0 3) b c (f.extractLsb' 7 1)) else none
  | 17 => if a.extractLsb' 3 2 == 0#2 && f.extractLsb' 8 3 == 0#3 then go (true) (execFcmplt (a.extractLsb' 0 3) b c (f.extractLsb' 7 1)) else none
  | 18 => if a.extractLsb' 3 2 == 0#2 && f.extractLsb' 8 3 == 0#3 then go (true) (execFcmple (a.extractLsb' 0 3) b c (f.extractLsb' 7 1)) else none
  | 32 => if c == 0#5 && f.extractLsb' 10 1 == 0#1 then go (true) (execFtoi a b (f.extractLsb' 8 2) (f.extractLsb' 7 1)) else none
  | 33 => if c == 0#5 && f.extractLsb' 10 1 == 0#1 then go (true) (execFtou a b (f.extractLsb' 8 2) (f.extractLsb' 7 1)) else none
  | 34 => if c == 0#5 && f.extractLsb' 10 1 == 0#1 then go (true) (execItof a b (f.extractLsb' 8 2) (f.extractLsb' 7 1)) else none
  | 35 => if c == 0#5 && f.extractLsb' 10 1 == 0#1 then go (true) (execUtof a b (f.extractLsb' 8 2) (f.extractLsb' 7 1)) else none
  | 36 => if c == 0#5 && f.extractLsb' 10 1 == 0#1 then go ((f.extractLsb' 7 1) == 1#1 || (f.extractLsb' 8 2) == 0#2) (execFtof a b (f.extractLsb' 8 2) (f.extractLsb' 7 1)) else none
  | _ => none

/-- The meanings of major 0x1F, by the fields that decode it. -/
def run1F (a b c : BitVec 5) (f : BitVec 11) : Option (State → Out) :=
  match c.toNat with
  | 0 => if a == 0#5 && b == 0#5 && f == 0#11 then go true execEcall else none
  | 1 => if a == 0#5 && b == 0#5 && f == 0#11 then go true execEbreak else none
  | 2 => if a == 0#5 && b == 0#5 && f == 0#11 then go true execTret else none
  | 3 => if a == 0#5 && b == 0#5 && f == 0#11 then go true execUiret else none
  | 4 => if b == 0#5 then go (true) (execCrd a f) else none
  | 5 => if a == 0#5 then go (true) (execCwr b f) else none
  | 6 => go (true) (execCset a b f)
  | 7 => go (true) (execCclr a b f)
  | 8 => if a == 0#5 && b == 0#5 && f == 0#11 then go true execSleep else none
  | 9 => if a == 0#5 && f == 0#11 then go (true) (execDcclean b) else none
  | 10 => if a == 0#5 && f == 0#11 then go (true) (execDcflush b) else none
  | 11 => if a == 0#5 && f == 0#11 then go (true) (execDcinv b) else none
  | 12 => if a == 0#5 && f == 0#11 then go (true) (execIcinv b) else none
  | _ => none

/-- The meanings of major 0x20, by the fields that decode it. -/
def run20 (a b c : BitVec 5) (f : BitVec 11) : Option (State → Out) :=
  match f.toNat with
  | 0 => go (true) (execCstart a b c)
  | 1 => if c == 0#5 then go (true) (execCstop a b) else none
  | 2 => if c == 0#5 then go (true) (execCreap a b) else none
  | 3 => if a == 0#5 && c == 0#5 then go (true) (execCself b) else none
  | 4 => if c == 0#5 then go (true) (execForkl a b) else none
  | 5 => if b == 0#5 && c == 0#5 then go (true) (execJoinl a) else none
  | 6 => if a.extractLsb' 3 2 == 0#2 && c == 0#5 then go (true) (execMovh (a.extractLsb' 0 3) b) else none
  | 7 => if b.extractLsb' 3 2 == 0#2 && c == 0#5 then go (true) (execMovfh a (b.extractLsb' 0 3)) else none
  | _ => none

/-- The meanings of major 0x21, by the fields that decode it. -/
def run21 (a b c : BitVec 5) (f : BitVec 11) : Option (State → Out) :=
  match f.toNat with
  | 0 => go (true) (execBinit a b c)
  | 1 => go (true) (execBarr a b c)
  | 2 => go (true) (execBexp a b c)
  | 3 => go (true) (execBwait a b c)
  | 4 => go (true) (execBtest a b c)
  | 5 => go (true) (execPhasend a b c)
  | _ => none

/-- The meanings of major 0x22, by the fields that decode it. -/
def run22 (a b c : BitVec 5) (f : BitVec 11) : Option (State → Out) :=
  match f.toNat with
  | 0 => if c == 0#5 then go (true) (execChbind a b) else none
  | 1 => if c == 0#5 then go (true) (execChunbind a b) else none
  | 2 => go (true) (execChsend a b c)
  | 3 => go (true) (execChrecv a c b)
  | 4 => go (vdst c) (execChsendv a b c)
  | 5 => go (vdst a) (execChrecvv a c b)
  | 6 => if c == 0#5 then go (true) (execChclose a b) else none
  | 7 => go (true) (execSelect a c b)
  | 8 => go (true) (execChsendb a b c)
  | 9 => go (true) (execChrecvb a b c)
  | _ => none

/-- The meanings of major 0x28, by the fields that decode it. -/
def run28 (a b c : BitVec 5) (f : BitVec 11) : Option (State → Out) :=
  match f.toNat with
  | 0 => if c == 0#5 then go (true) (execVsetvl a b) else none
  | 1 => if c == 0#5 then go (true) (execVsett a b) else none
  | 2 => if c == 0#5 then go (true) (execVmode a b) else none
  | 3 => if a == 0#5 then go (true) (execCtwr b c) else none
  | 4 => if a == 0#5 && c == 0#5 then go (true) (execCtsel b) else none
  | _ => none

/-- The meanings of major 0x29, by the fields that decode it. -/
def run29 (a b c : BitVec 5) (f : BitVec 11) : Option (State → Out) :=
  match (f.extractLsb' 0 7).toNat with
  | 0 => (maskOf (f.extractLsb' 8 3)).bind fun mk => go (vdst a && vsrc b && vsrcX c (f.extractLsb' 7 1)) (execVadd a b c (f.extractLsb' 7 1) mk)
  | 1 => (maskOf (f.extractLsb' 8 3)).bind fun mk => go (vdst a && vsrc b && vsrcX c (f.extractLsb' 7 1)) (execVsub a b c (f.extractLsb' 7 1) mk)
  | 2 => (maskOf (f.extractLsb' 8 3)).bind fun mk => go (vdst a && vsrc b && vsrcX c (f.extractLsb' 7 1)) (execVrsub a b c (f.extractLsb' 7 1) mk)
  | 3 => (maskOf (f.extractLsb' 8 3)).bind fun mk => go (vdst a && vsrc b && vsrcX c (f.extractLsb' 7 1)) (execVand a b c (f.extractLsb' 7 1) mk)
  | 4 => (maskOf (f.extractLsb' 8 3)).bind fun mk => go (vdst a && vsrc b && vsrcX c (f.extractLsb' 7 1)) (execVor a b c (f.extractLsb' 7 1) mk)
  | 5 => (maskOf (f.extractLsb' 8 3)).bind fun mk => go (vdst a && vsrc b && vsrcX c (f.extractLsb' 7 1)) (execVxor a b c (f.extractLsb' 7 1) mk)
  | 6 => (maskOf (f.extractLsb' 8 3)).bind fun mk => go (vdst a && vsrc b && vsrcX c (f.extractLsb' 7 1)) (execVsll a b c (f.extractLsb' 7 1) mk)
  | 7 => (maskOf (f.extractLsb' 8 3)).bind fun mk => go (vdst a && vsrc b && vsrcX c (f.extractLsb' 7 1)) (execVsrl a b c (f.extractLsb' 7 1) mk)
  | 8 => (maskOf (f.extractLsb' 8 3)).bind fun mk => go (vdst a && vsrc b && vsrcX c (f.extractLsb' 7 1)) (execVsra a b c (f.extractLsb' 7 1) mk)
  | 9 => (maskOf (f.extractLsb' 8 3)).bind fun mk => go (vdst a && vsrc b && vsrcX c (f.extractLsb' 7 1)) (execVmin a b c (f.extractLsb' 7 1) mk)
  | 10 => (maskOf (f.extractLsb' 8 3)).bind fun mk => go (vdst a && vsrc b && vsrcX c (f.extractLsb' 7 1)) (execVmax a b c (f.extractLsb' 7 1) mk)
  | 11 => (maskOf (f.extractLsb' 8 3)).bind fun mk => go (vdst a && vsrc b && vsrcX c (f.extractLsb' 7 1)) (execVminu a b c (f.extractLsb' 7 1) mk)
  | 12 => (maskOf (f.extractLsb' 8 3)).bind fun mk => go (vdst a && vsrc b && vsrcX c (f.extractLsb' 7 1)) (execVmaxu a b c (f.extractLsb' 7 1) mk)
  | 13 => (maskOf (f.extractLsb' 8 3)).bind fun mk => go (vdst a && vsrc b && vsrcX c (f.extractLsb' 7 1)) (execVmul a b c (f.extractLsb' 7 1) mk)
  | 14 => (maskOf (f.extractLsb' 8 3)).bind fun mk => go (vdst a && vsrc b && vsrcX c (f.extractLsb' 7 1)) (execVmulh a b c (f.extractLsb' 7 1) mk)
  | 15 => (maskOf (f.extractLsb' 8 3)).bind fun mk => go (vdst a && vsrc b && vsrcX c (f.extractLsb' 7 1)) (execVmulhu a b c (f.extractLsb' 7 1) mk)
  | 16 => (maskOf (f.extractLsb' 8 3)).bind fun mk => go (vdst a && vsrc b && vsrcX c (f.extractLsb' 7 1)) (execVsadd a b c (f.extractLsb' 7 1) mk)
  | 17 => (maskOf (f.extractLsb' 8 3)).bind fun mk => go (vdst a && vsrc b && vsrcX c (f.extractLsb' 7 1)) (execVsaddu a b c (f.extractLsb' 7 1) mk)
  | 18 => (maskOf (f.extractLsb' 8 3)).bind fun mk => go (vdst a && vsrc b && vsrcX c (f.extractLsb' 7 1)) (execVssub a b c (f.extractLsb' 7 1) mk)
  | 19 => (maskOf (f.extractLsb' 8 3)).bind fun mk => go (vdst a && vsrc b && vsrcX c (f.extractLsb' 7 1)) (execVssubu a b c (f.extractLsb' 7 1) mk)
  | 20 => (maskOf (f.extractLsb' 8 3)).bind fun mk => go (vdst a && vsrc b && vsrcX c (f.extractLsb' 7 1)) (execVmacc a b c (f.extractLsb' 7 1) mk)
  | 21 => if c == 0#5 && f.extractLsb' 7 1 == 0#1 then (maskOf (f.extractLsb' 8 3)).bind fun mk => go (vdst a && vsrc b) (execVabs a b mk) else none
  | 22 => if c == 0#5 && f.extractLsb' 7 1 == 0#1 then (maskOf (f.extractLsb' 8 3)).bind fun mk => go (vdst a && vsrc b) (execVneg a b mk) else none
  | 24 => if a.extractLsb' 2 3 == 6#3 then (maskOf (f.extractLsb' 8 3)).bind fun mk => go (vsrc b && vsrcX c (f.extractLsb' 7 1)) (execVcmpeq (a.extractLsb' 0 2) b c (f.extractLsb' 7 1) mk) else none
  | 25 => if a.extractLsb' 2 3 == 6#3 then (maskOf (f.extractLsb' 8 3)).bind fun mk => go (vsrc b && vsrcX c (f.extractLsb' 7 1)) (execVcmpne (a.extractLsb' 0 2) b c (f.extractLsb' 7 1) mk) else none
  | 26 => if a.extractLsb' 2 3 == 6#3 then (maskOf (f.extractLsb' 8 3)).bind fun mk => go (vsrc b && vsrcX c (f.extractLsb' 7 1)) (execVcmplt (a.extractLsb' 0 2) b c (f.extractLsb' 7 1) mk) else none
  | 27 => if a.extractLsb' 2 3 == 6#3 then (maskOf (f.extractLsb' 8 3)).bind fun mk => go (vsrc b && vsrcX c (f.extractLsb' 7 1)) (execVcmple (a.extractLsb' 0 2) b c (f.extractLsb' 7 1) mk) else none
  | 28 => if a.extractLsb' 2 3 == 6#3 then (maskOf (f.extractLsb' 8 3)).bind fun mk => go (vsrc b && vsrcX c (f.extractLsb' 7 1)) (execVcmpltu (a.extractLsb' 0 2) b c (f.extractLsb' 7 1) mk) else none
  | 29 => if a.extractLsb' 2 3 == 6#3 then (maskOf (f.extractLsb' 8 3)).bind fun mk => go (vsrc b && vsrcX c (f.extractLsb' 7 1)) (execVcmpleu (a.extractLsb' 0 2) b c (f.extractLsb' 7 1) mk) else none
  | _ => none

/-- The meanings of major 0x2A, by the fields that decode it. -/
def run2A (a b c : BitVec 5) (f : BitVec 11) : Option (State → Out) :=
  match (f.extractLsb' 0 7).toNat with
  | 0 => (maskOf (f.extractLsb' 8 3)).bind fun mk => go (vdst a && vsrc b && vsrcX c (f.extractLsb' 7 1)) (execVfadd a b c (f.extractLsb' 7 1) mk)
  | 1 => (maskOf (f.extractLsb' 8 3)).bind fun mk => go (vdst a && vsrc b && vsrcX c (f.extractLsb' 7 1)) (execVfsub a b c (f.extractLsb' 7 1) mk)
  | 2 => (maskOf (f.extractLsb' 8 3)).bind fun mk => go (vdst a && vsrc b && vsrcX c (f.extractLsb' 7 1)) (execVfmul a b c (f.extractLsb' 7 1) mk)
  | 3 => (maskOf (f.extractLsb' 8 3)).bind fun mk => go (vdst a && vsrc b && vsrcX c (f.extractLsb' 7 1)) (execVfdiv a b c (f.extractLsb' 7 1) mk)
  | 4 => if c == 0#5 && f.extractLsb' 7 1 == 0#1 then (maskOf (f.extractLsb' 8 3)).bind fun mk => go (vdst a && vsrc b) (execVfsqrt a b mk) else none
  | 5 => (maskOf (f.extractLsb' 8 3)).bind fun mk => go (vdst a && vsrc b && vsrcX c (f.extractLsb' 7 1)) (execVfmin a b c (f.extractLsb' 7 1) mk)
  | 6 => (maskOf (f.extractLsb' 8 3)).bind fun mk => go (vdst a && vsrc b && vsrcX c (f.extractLsb' 7 1)) (execVfmax a b c (f.extractLsb' 7 1) mk)
  | 7 => (maskOf (f.extractLsb' 8 3)).bind fun mk => go (vdst a && vsrc b && vsrcX c (f.extractLsb' 7 1)) (execVfmacc a b c (f.extractLsb' 7 1) mk)
  | 9 => if c == 0#5 && f.extractLsb' 7 1 == 0#1 then (maskOf (f.extractLsb' 8 3)).bind fun mk => go (vdst a && vsrc b) (execVfabs a b mk) else none
  | 10 => if c == 0#5 && f.extractLsb' 7 1 == 0#1 then (maskOf (f.extractLsb' 8 3)).bind fun mk => go (vdst a && vsrc b) (execVfneg a b mk) else none
  | 16 => if a.extractLsb' 2 3 == 6#3 then (maskOf (f.extractLsb' 8 3)).bind fun mk => go (vsrc b && vsrcX c (f.extractLsb' 7 1)) (execVfcmpeq (a.extractLsb' 0 2) b c (f.extractLsb' 7 1) mk) else none
  | 17 => if a.extractLsb' 2 3 == 6#3 then (maskOf (f.extractLsb' 8 3)).bind fun mk => go (vsrc b && vsrcX c (f.extractLsb' 7 1)) (execVfcmplt (a.extractLsb' 0 2) b c (f.extractLsb' 7 1) mk) else none
  | 18 => if a.extractLsb' 2 3 == 6#3 then (maskOf (f.extractLsb' 8 3)).bind fun mk => go (vsrc b && vsrcX c (f.extractLsb' 7 1)) (execVfcmple (a.extractLsb' 0 2) b c (f.extractLsb' 7 1) mk) else none
  | 32 => if f.extractLsb' 7 1 == 0#1 then (maskOf (f.extractLsb' 8 3)).bind fun mk => go (vdst a && vsrc b) (execVfcvt a b c mk) else none
  | 33 => if f.extractLsb' 7 1 == 0#1 then (maskOf (f.extractLsb' 8 3)).bind fun mk => go (vdst a && vsrc b) (execVquant a b c mk) else none
  | 34 => if f.extractLsb' 7 1 == 0#1 then (maskOf (f.extractLsb' 8 3)).bind fun mk => go (vdst a && vsrc b) (execVdequant a b c mk) else none
  | _ => none

/-- The meanings of major 0x2B, by the fields that decode it. -/
def run2B (a b c : BitVec 5) (f : BitVec 11) : Option (State → Out) :=
  match (f.extractLsb' 0 7).toNat with
  | 0 => if a.extractLsb' 2 3 == 6#3 && b.extractLsb' 2 3 == 6#3 && c.extractLsb' 2 3 == 6#3 then (maskOf (f.extractLsb' 8 3)).bind fun mk => go (true) (execMand (a.extractLsb' 0 2) (b.extractLsb' 0 2) (c.extractLsb' 0 2) (f.extractLsb' 7 1) mk) else none
  | 1 => if a.extractLsb' 2 3 == 6#3 && b.extractLsb' 2 3 == 6#3 && c.extractLsb' 2 3 == 6#3 then (maskOf (f.extractLsb' 8 3)).bind fun mk => go (true) (execMor (a.extractLsb' 0 2) (b.extractLsb' 0 2) (c.extractLsb' 0 2) (f.extractLsb' 7 1) mk) else none
  | 2 => if a.extractLsb' 2 3 == 6#3 && b.extractLsb' 2 3 == 6#3 && c.extractLsb' 2 3 == 6#3 then (maskOf (f.extractLsb' 8 3)).bind fun mk => go (true) (execMxor (a.extractLsb' 0 2) (b.extractLsb' 0 2) (c.extractLsb' 0 2) (f.extractLsb' 7 1) mk) else none
  | 3 => if a.extractLsb' 2 3 == 6#3 && b.extractLsb' 2 3 == 6#3 && c.extractLsb' 2 3 == 6#3 then (maskOf (f.extractLsb' 8 3)).bind fun mk => go (true) (execMandn (a.extractLsb' 0 2) (b.extractLsb' 0 2) (c.extractLsb' 0 2) (f.extractLsb' 7 1) mk) else none
  | 4 => if a.extractLsb' 2 3 == 6#3 && b.extractLsb' 2 3 == 6#3 && c == 0#5 then (maskOf (f.extractLsb' 8 3)).bind fun mk => go (true) (execMnot (a.extractLsb' 0 2) (b.extractLsb' 0 2) (f.extractLsb' 7 1) mk) else none
  | 5 => if a.extractLsb' 2 3 == 6#3 && b == 0#5 && c == 0#5 then (maskOf (f.extractLsb' 8 3)).bind fun mk => go (true) (execMset (a.extractLsb' 0 2) (f.extractLsb' 7 1) mk) else none
  | 6 => if a.extractLsb' 2 3 == 6#3 && b == 0#5 && c == 0#5 then (maskOf (f.extractLsb' 8 3)).bind fun mk => go (true) (execMclr (a.extractLsb' 0 2) (f.extractLsb' 7 1) mk) else none
  | 8 => if b.extractLsb' 2 3 == 6#3 && c == 0#5 && f.extractLsb' 7 1 == 1#1 then (maskOf (f.extractLsb' 8 3)).bind fun mk => go (true) (execMpopc a (b.extractLsb' 0 2) mk) else none
  | 9 => if b.extractLsb' 2 3 == 6#3 && c == 0#5 && f.extractLsb' 7 1 == 1#1 then (maskOf (f.extractLsb' 8 3)).bind fun mk => go (true) (execMfirst a (b.extractLsb' 0 2) mk) else none
  | _ => none

/-- The meanings of major 0x2C, by the fields that decode it. -/
def run2C (a b c : BitVec 5) (f : BitVec 11) : Option (State → Out) :=
  match (f.extractLsb' 0 7).toNat with
  | 0 => if f.extractLsb' 7 1 == 0#1 then (maskOf (f.extractLsb' 8 3)).bind fun mk => go (vdst a && vsrc b && vsrc c) (execVshuf a b c mk) else none
  | 1 => if f.extractLsb' 7 1 == 1#1 then (maskOf (f.extractLsb' 8 3)).bind fun mk => go (vdst a && vsrc b) (execVslideup a b c mk) else none
  | 2 => if f.extractLsb' 7 1 == 1#1 then (maskOf (f.extractLsb' 8 3)).bind fun mk => go (vdst a && vsrc b) (execVslidedn a b c mk) else none
  | 3 => if c == 0#5 && f.extractLsb' 10 1 == 1#1 && f.extractLsb' 7 1 == 0#1 then go (vdst a && vsrc b) (execVcompress a b (f.extractLsb' 8 2)) else none
  | 4 => if c == 0#5 && f.extractLsb' 10 1 == 1#1 && f.extractLsb' 7 1 == 0#1 then go (vdst a && vsrc b) (execVexpand a b (f.extractLsb' 8 2)) else none
  | 5 => (maskOf (f.extractLsb' 8 3)).bind fun mk => go (vdst a && vsrc b && ((f.extractLsb' 7 1) == 1#1 || c == 0#5)) (execVdense a b c (f.extractLsb' 7 1) mk)
  | 16 => if c == 0#5 then (maskOf (f.extractLsb' 8 3)).bind fun mk => go (((f.extractLsb' 7 1) == 1#1 || vdst a) && vsrc b) (execVredSum a b (f.extractLsb' 7 1) mk) else none
  | 17 => if c == 0#5 then (maskOf (f.extractLsb' 8 3)).bind fun mk => go (((f.extractLsb' 7 1) == 1#1 || vdst a) && vsrc b) (execVredMin a b (f.extractLsb' 7 1) mk) else none
  | 18 => if c == 0#5 then (maskOf (f.extractLsb' 8 3)).bind fun mk => go (((f.extractLsb' 7 1) == 1#1 || vdst a) && vsrc b) (execVredMax a b (f.extractLsb' 7 1) mk) else none
  | 19 => if c == 0#5 then (maskOf (f.extractLsb' 8 3)).bind fun mk => go (((f.extractLsb' 7 1) == 1#1 || vdst a) && vsrc b) (execVredMinu a b (f.extractLsb' 7 1) mk) else none
  | 20 => if c == 0#5 then (maskOf (f.extractLsb' 8 3)).bind fun mk => go (((f.extractLsb' 7 1) == 1#1 || vdst a) && vsrc b) (execVredMaxu a b (f.extractLsb' 7 1) mk) else none
  | 21 => if c == 0#5 then (maskOf (f.extractLsb' 8 3)).bind fun mk => go (((f.extractLsb' 7 1) == 1#1 || vdst a) && vsrc b) (execVredAnd a b (f.extractLsb' 7 1) mk) else none
  | 22 => if c == 0#5 then (maskOf (f.extractLsb' 8 3)).bind fun mk => go (((f.extractLsb' 7 1) == 1#1 || vdst a) && vsrc b) (execVredOr a b (f.extractLsb' 7 1) mk) else none
  | 23 => if c == 0#5 then (maskOf (f.extractLsb' 8 3)).bind fun mk => go (((f.extractLsb' 7 1) == 1#1 || vdst a) && vsrc b) (execVredXor a b (f.extractLsb' 7 1) mk) else none
  | 24 => if c == 0#5 then (maskOf (f.extractLsb' 8 3)).bind fun mk => go (((f.extractLsb' 7 1) == 1#1 || vdst a) && vsrc b) (execVredFsum a b (f.extractLsb' 7 1) mk) else none
  | 25 => if c == 0#5 then (maskOf (f.extractLsb' 8 3)).bind fun mk => go (((f.extractLsb' 7 1) == 1#1 || vdst a) && vsrc b) (execVredFmin a b (f.extractLsb' 7 1) mk) else none
  | 26 => if c == 0#5 then (maskOf (f.extractLsb' 8 3)).bind fun mk => go (((f.extractLsb' 7 1) == 1#1 || vdst a) && vsrc b) (execVredFmax a b (f.extractLsb' 7 1) mk) else none
  | 32 => if c == 0#5 && f.extractLsb' 7 1 == 0#1 then (maskOf (f.extractLsb' 8 3)).bind fun mk => go (vdst a && vsrc b) (execVscanSum a b mk) else none
  | 33 => if c == 0#5 && f.extractLsb' 7 1 == 0#1 then (maskOf (f.extractLsb' 8 3)).bind fun mk => go (vdst a && vsrc b) (execVscanMin a b mk) else none
  | 34 => if c == 0#5 && f.extractLsb' 7 1 == 0#1 then (maskOf (f.extractLsb' 8 3)).bind fun mk => go (vdst a && vsrc b) (execVscanMax a b mk) else none
  | 35 => if c == 0#5 && f.extractLsb' 7 1 == 0#1 then (maskOf (f.extractLsb' 8 3)).bind fun mk => go (vdst a && vsrc b) (execVscanMinu a b mk) else none
  | 36 => if c == 0#5 && f.extractLsb' 7 1 == 0#1 then (maskOf (f.extractLsb' 8 3)).bind fun mk => go (vdst a && vsrc b) (execVscanMaxu a b mk) else none
  | 37 => if c == 0#5 && f.extractLsb' 7 1 == 0#1 then (maskOf (f.extractLsb' 8 3)).bind fun mk => go (vdst a && vsrc b) (execVscanAnd a b mk) else none
  | 38 => if c == 0#5 && f.extractLsb' 7 1 == 0#1 then (maskOf (f.extractLsb' 8 3)).bind fun mk => go (vdst a && vsrc b) (execVscanOr a b mk) else none
  | 39 => if c == 0#5 && f.extractLsb' 7 1 == 0#1 then (maskOf (f.extractLsb' 8 3)).bind fun mk => go (vdst a && vsrc b) (execVscanXor a b mk) else none
  | 40 => if c == 0#5 && f.extractLsb' 7 1 == 0#1 then (maskOf (f.extractLsb' 8 3)).bind fun mk => go (vdst a && vsrc b) (execVscanFsum a b mk) else none
  | _ => none

/-- The meanings of major 0x2D, by the fields that decode it. -/
def run2D (a b c : BitVec 5) (f : BitVec 11) : Option (State → Out) :=
  match (f.extractLsb' 4 4).toNat with
  | 0 => if c == 0#5 && f.extractLsb' 2 2 == 0#2 && f.extractLsb' 0 2 == 0#2 then (maskOf (f.extractLsb' 8 3)).bind fun mk => go (vdst a) (execVld a b mk) else none
  | 1 => if f.extractLsb' 2 2 == 0#2 && f.extractLsb' 0 2 == 0#2 then (maskOf (f.extractLsb' 8 3)).bind fun mk => go (vdst a) (execVlds a b c mk) else none
  | 2 => if f.extractLsb' 2 2 == 0#2 then (maskOf (f.extractLsb' 8 3)).bind fun mk => go (vdst a && vsrc c && (f.extractLsb' 0 2) != 3#2) (execVldx a b c (f.extractLsb' 0 2) mk) else none
  | 3 => if c == 0#5 && f.extractLsb' 2 2 == 0#2 && f.extractLsb' 0 2 == 0#2 then (maskOf (f.extractLsb' 8 3)).bind fun mk => go (vsrc a) (execVst a b mk) else none
  | 4 => if f.extractLsb' 2 2 == 0#2 && f.extractLsb' 0 2 == 0#2 then (maskOf (f.extractLsb' 8 3)).bind fun mk => go (vsrc a) (execVsts a b c mk) else none
  | 5 => if f.extractLsb' 2 2 == 0#2 then (maskOf (f.extractLsb' 8 3)).bind fun mk => go (vsrc a && vsrc c && (f.extractLsb' 0 2) != 3#2) (execVstx a b c (f.extractLsb' 0 2) mk) else none
  | 6 => if f.extractLsb' 2 2 == 0#2 then (maskOf (f.extractLsb' 8 3)).bind fun mk => go (vdst a && vsrc c && (f.extractLsb' 0 2) != 3#2) (execVldl a b c (f.extractLsb' 0 2) mk) else none
  | 7 => if f.extractLsb' 10 1 == 1#1 && f.extractLsb' 2 2 == 0#2 then go (vdst a && vsrc c && (f.extractLsb' 0 2) != 3#2) (execVstc a b c (f.extractLsb' 0 2) (f.extractLsb' 8 2)) else none
  | 8 => if f.extractLsb' 2 2 == 0#2 && f.extractLsb' 0 2 == 0#2 then (maskOf (f.extractLsb' 8 3)).bind fun mk => go (vdst a && vdst c) (execVamoAdd a b c mk) else if f.extractLsb' 2 2 == 0#2 && f.extractLsb' 0 2 == 1#2 then (maskOf (f.extractLsb' 8 3)).bind fun mk => go (vdst a && vdst c) (execVamoMin a b c mk) else if f.extractLsb' 2 2 == 0#2 && f.extractLsb' 0 2 == 2#2 then (maskOf (f.extractLsb' 8 3)).bind fun mk => go (vdst a && vdst c) (execVamoMax a b c mk) else if f.extractLsb' 2 2 == 0#2 && f.extractLsb' 0 2 == 3#2 then (maskOf (f.extractLsb' 8 3)).bind fun mk => go (vdst a && vdst c) (execVamoFadd a b c mk) else none
  | _ => none

/-- The meanings of major 0x2E, by the fields that decode it. -/
def run2E (a b c : BitVec 5) (f : BitVec 11) : Option (State → Out) :=
  match (f.extractLsb' 0 7).toNat with
  | 0 => if c == 0#5 && f.extractLsb' 7 1 == 0#1 then (maskOf (f.extractLsb' 8 3)).bind fun mk => go (vdst a && vsrc b) (execVmv a b mk) else none
  | 1 => if f.extractLsb' 10 1 == 1#1 then go (vdst a && vsrc b && vsrcX c (f.extractLsb' 7 1)) (execVmerge a b c (f.extractLsb' 7 1) (f.extractLsb' 8 2)) else none
  | 2 => if b == 0#5 && f.extractLsb' 7 1 == 1#1 then (maskOf (f.extractLsb' 8 3)).bind fun mk => go (vdst a) (execVbcast a c mk) else none
  | 3 => if c == 0#5 && f.extractLsb' 8 3 == 0#3 && f.extractLsb' 7 1 == 1#1 then go (vsrc b) (execVmvxs a b) else none
  | 4 => if b == 0#5 && f.extractLsb' 8 3 == 0#3 && f.extractLsb' 7 1 == 1#1 then go (vdst a) (execVmvsx a c) else none
  | 5 => if b == 0#5 && c == 0#5 && f.extractLsb' 7 1 == 0#1 then (maskOf (f.extractLsb' 8 3)).bind fun mk => go (vdst a) (execVid a mk) else none
  | _ => none

/-- The meanings of major 0x30, by the fields that decode it. -/
def run30 (a b c : BitVec 5) (f : BitVec 11) : Option (State → Out) :=
  match (f.extractLsb' 4 5).toNat with
  | 0 => if c == 0#5 && f.extractLsb' 9 2 == 0#2 && f.extractLsb' 0 4 == 0#4 then go (true) (execMattach a b) else none
  | 1 => if a == 0#5 && b == 0#5 && c == 0#5 && f.extractLsb' 9 2 == 0#2 && f.extractLsb' 0 4 == 0#4 then go true execMdetach else none
  | 2 => if c == 0#5 && f.extractLsb' 9 2 == 0#2 && f.extractLsb' 0 4 == 0#4 then go (true) (execMclaim a b) else none
  | 3 => if a.extractLsb' 4 1 == 0#1 && b == 0#5 && c == 0#5 && f.extractLsb' 9 2 == 0#2 && f.extractLsb' 0 4 == 0#4 then go (true) (execMrelease (a.extractLsb' 0 4)) else none
  | 4 => if a.extractLsb' 4 1 == 0#1 && f.extractLsb' 9 2 == 0#2 && f.extractLsb' 3 1 == 0#1 then go (true) (execMlda (a.extractLsb' 0 4) b c (f.extractLsb' 2 1) (f.extractLsb' 0 2)) else none
  | 5 => if a.extractLsb' 4 1 == 0#1 && f.extractLsb' 9 2 == 0#2 && f.extractLsb' 2 2 == 0#2 then go (true) (execMldb (a.extractLsb' 0 4) b c (f.extractLsb' 0 2)) else none
  | 6 => if a == 0#5 && b == 0#5 && c == 0#5 && f.extractLsb' 0 4 == 0#4 then go (true) (execMzero (f.extractLsb' 9 2)) else none
  | 7 => if a.extractLsb' 4 1 == 0#1 && b.extractLsb' 4 1 == 0#1 && f.extractLsb' 1 3 == 0#3 then go (true) (execMop (f.extractLsb' 9 2) (a.extractLsb' 0 4) (b.extractLsb' 0 4) c (f.extractLsb' 0 1)) else none
  | 8 => if c == 0#5 then (maskOf4 (f.extractLsb' 0 4)).bind fun mk => go (vdst a) (execMtmv a (f.extractLsb' 9 2) b mk) else none
  | 9 => if c == 0#5 then (maskOf4 (f.extractLsb' 0 4)).bind fun mk => go (vdst a) (execMvtm (f.extractLsb' 9 2) a b mk) else none
  | 10 => if a == 0#5 && f.extractLsb' 0 4 == 0#4 then go (true) (execMtld (f.extractLsb' 9 2) b c) else none
  | 11 => if a == 0#5 && f.extractLsb' 1 3 == 0#3 then go (true) (execMtst (f.extractLsb' 9 2) b c (f.extractLsb' 0 1)) else none
  | 12 => if a.extractLsb' 4 1 == 0#1 && b.extractLsb' 4 1 == 0#1 && f.extractLsb' 9 2 == 0#2 && f.extractLsb' 0 4 == 0#4 then go (true) (execMprune (a.extractLsb' 0 4) (b.extractLsb' 0 4) c) else none
  | 13 => if b.extractLsb' 4 1 == 0#1 && c == 0#5 && f.extractLsb' 9 2 == 0#2 && f.extractLsb' 1 3 == 0#3 then go (true) (execMhdr a (b.extractLsb' 0 4) (f.extractLsb' 0 1)) else none
  | 14 => if c == 0#5 && f.extractLsb' 9 2 == 0#2 && f.extractLsb' 0 4 == 0#4 then go (true) (execMwait a b) else none
  | _ => none

/-- The meanings of major 0x31, by the fields that decode it. -/
def run31 (a b c : BitVec 5) (f : BitVec 11) : Option (State → Out) :=
  match f.toNat with
  | 0 => if c == 0#5 then go (true) (execPcopy a b) else none
  | 1 => if c == 0#5 then go (true) (execPfill a b) else none
  | 2 => if c == 0#5 then go (true) (execPwait a b) else none
  | 3 => if c == 0#5 then go (true) (execPpoll a b) else none
  | 4 => if c == 0#5 then go (true) (execPcancel a b) else none
  | _ => none

/-- The meanings of major 0x32, by the fields that decode it. -/
def run32 (a b c : BitVec 5) (f : BitVec 11) : Option (State → Out) :=
  match f.toNat with
  | 0 => go (true) (execClload a b c)
  | 1 => go (vdst a && vdst c) (execClquery a c b)
  | 2 => go (true) (execClrun a b c)
  | 3 => if c == 0#5 then go (true) (execClwait a b) else none
  | _ => none

/-- The meanings of major 0x08, by the fields that decode it. -/
def run08 (a b : BitVec 5) (i : BitVec 16) : Option (State → Out) :=
  match (i.extractLsb' 14 2).toNat with
  | 0 => if i.extractLsb' 6 8 == 0#8 then go (true) (execSlli a b (i.extractLsb' 0 6)) else none
  | 1 => if i.extractLsb' 6 8 == 0#8 then go (true) (execSrli a b (i.extractLsb' 0 6)) else none
  | 2 => if i.extractLsb' 6 8 == 0#8 then go (true) (execSrai a b (i.extractLsb' 0 6)) else none
  | 3 => if i.extractLsb' 6 8 == 0#8 then go (true) (execRori a b (i.extractLsb' 0 6)) else none
  | _ => none

/-- The meanings of major 0x1A, by the fields that decode it. -/
def run1A (a b : BitVec 5) (i : BitVec 16) : Option (State → Out) :=
  match (i.extractLsb' 13 3).toNat with
  | 0 => go (true) (execLb a b (i.extractLsb' 12 1) (i.extractLsb' 0 12))
  | 1 => go (true) (execLbu a b (i.extractLsb' 12 1) (i.extractLsb' 0 12))
  | 2 => go (true) (execLh a b (i.extractLsb' 12 1) (i.extractLsb' 0 12))
  | 3 => go (true) (execLhu a b (i.extractLsb' 12 1) (i.extractLsb' 0 12))
  | 4 => go (true) (execLw a b (i.extractLsb' 12 1) (i.extractLsb' 0 12))
  | 5 => go (true) (execLwu a b (i.extractLsb' 12 1) (i.extractLsb' 0 12))
  | 6 => go (true) (execLd a b (i.extractLsb' 12 1) (i.extractLsb' 0 12))
  | _ => none

/-- The meanings of major 0x1B, by the fields that decode it. -/
def run1B (a b : BitVec 5) (i : BitVec 16) : Option (State → Out) :=
  match (i.extractLsb' 13 3).toNat with
  | 0 => go (true) (execSb a b (i.extractLsb' 12 1) (i.extractLsb' 0 12))
  | 2 => go (true) (execSh a b (i.extractLsb' 12 1) (i.extractLsb' 0 12))
  | 4 => go (true) (execSw a b (i.extractLsb' 12 1) (i.extractLsb' 0 12))
  | 6 => go (true) (execSd a b (i.extractLsb' 12 1) (i.extractLsb' 0 12))
  | _ => none

/-- The meaning that the word of each major has, through its table (R33). -/
def runRaw (w : Insn) : Option (State → Out) :=
  let a := w.extractLsb' 21 5
  let b := w.extractLsb' 16 5
  let c := w.extractLsb' 11 5
  let f := w.extractLsb' 0 11
  let i := w.extractLsb' 0 16
  match (w.extractLsb' 26 6).toNat with
  | 1 => run01 a b c f
  | 2 => go (true) (execAddi a b i)
  | 3 => go (true) (execAndi a b i)
  | 4 => go (true) (execOri a b i)
  | 5 => go (true) (execXori a b i)
  | 6 => go (true) (execSlti a b i)
  | 7 => go (true) (execSltiu a b i)
  | 8 => run08 a b i
  | 9 => if b.extractLsb' 2 3 == 0#3 then go (true) (execLih a (b.extractLsb' 0 2) i) else none
  | 10 => run0A a b c f
  | 12 => run0C a b c f
  | 16 => go (true) (execBeq a b i)
  | 17 => go (true) (execBne a b i)
  | 18 => go (true) (execBlt a b i)
  | 19 => go (true) (execBge a b i)
  | 20 => go (true) (execBltu a b i)
  | 21 => go (true) (execBgeu a b i)
  | 22 => if a.extractLsb' 3 2 == 0#2 && b.extractLsb' 1 4 == 0#4 then go (true) (execBp (a.extractLsb' 0 3) (b.extractLsb' 0 1) i) else none
  | 23 => go (true) (execJ (w.extractLsb' 0 26))
  | 24 => go (true) (execJal (w.extractLsb' 0 26))
  | 25 => go (true) (execJalr a b i)
  | 26 => run1A a b i
  | 27 => run1B a b i
  | 28 => run1C a b c f
  | 29 => run1D a b c f
  | 30 => run1E a b c f
  | 31 => run1F a b c f
  | 32 => run20 a b c f
  | 33 => run21 a b c f
  | 34 => run22 a b c f
  | 40 => run28 a b c f
  | 41 => run29 a b c f
  | 42 => run2A a b c f
  | 43 => run2B a b c f
  | 44 => run2C a b c f
  | 45 => run2D a b c f
  | 46 => run2E a b c f
  | 48 => run30 a b c f
  | 49 => run31 a b c f
  | 50 => run32 a b c f
  | 63 => if c == 0#5 && f == 0#11 then go ((a.extractLsb' 0 1) == 1#1 || b == 0#5) (execPfx (a.extractLsb' 2 3) (a.extractLsb' 1 1) (a.extractLsb' 0 1) b) else none
  | _ => none

/-- The meaning of a word; none where it is no instruction. -/
def runWord (w : Insn) : Option (State → Out) := runRaw w

theorem go_eq (i : Instr) : Option.map exec ((some i).filter Instr.wf) = go i.wf (exec i) := by
  by_cases h : i.wf = true <;> simp [go, Option.filter, h]

theorem none_eq : Option.map exec ((none : Option Instr).filter Instr.wf) = none := rfl

theorem ite_eq {p : Prop} [Decidable p] {x y : Option Instr} {x' y' : Option (State → Out)}
    (hx : Option.map exec (x.filter Instr.wf) = x') (hy : Option.map exec (y.filter Instr.wf) = y') :
    Option.map exec ((if p then x else y).filter Instr.wf) = if p then x' else y' := by
  split <;> assumption

theorem mask_eq (o : Option VMask) (g : VMask → Instr) :
    Option.map exec ((o.map g).filter Instr.wf) = o.bind fun mk => go (g mk).wf (exec (g mk)) := by
  cases o with
  | none => rfl
  | some mk => exact go_eq (g mk)

theorem run01_eq (a b c : BitVec 5) (f : BitVec 11) : Option.map exec ((decode01 a b c f).filter Instr.wf) = run01 a b c f := by
  unfold decode01 run01
  generalize f.toNat = n
  iterate 40 (rcases n with _ | n; · first | exact none_eq | exact go_eq _ | exact ite_eq (go_eq _) none_eq)
  rfl

theorem run0A_eq (a b c : BitVec 5) (f : BitVec 11) : Option.map exec ((decode0A a b c f).filter Instr.wf) = run0A a b c f := by
  unfold decode0A run0A
  generalize f.toNat = n
  iterate 6 (rcases n with _ | n; · first | exact none_eq | exact ite_eq (go_eq _) none_eq)
  rfl

theorem run0C_eq (a b c : BitVec 5) (f : BitVec 11) : Option.map exec ((decode0C a b c f).filter Instr.wf) = run0C a b c f := by
  unfold decode0C run0C
  generalize f.toNat = n
  iterate 8 (rcases n with _ | n; · first | exact none_eq | exact ite_eq (go_eq _) none_eq)
  rfl

theorem run1C_eq (a b c : BitVec 5) (f : BitVec 11) : Option.map exec ((decode1C a b c f).filter Instr.wf) = run1C a b c f := by
  unfold decode1C run1C
  generalize (f.extractLsb' 0 4).toNat = n
  iterate 10 (rcases n with _ | n; · first | exact none_eq | exact ite_eq (go_eq _) none_eq)
  rfl

theorem run1D_eq (a b c : BitVec 5) (f : BitVec 11) : Option.map exec ((decode1D a b c f).filter Instr.wf) = run1D a b c f := by
  unfold decode1D run1D
  generalize (f.extractLsb' 8 3).toNat = n
  iterate 2 (rcases n with _ | n; · first | exact none_eq | exact ite_eq (go_eq _) none_eq)
  rfl

theorem run1E_eq (a b c : BitVec 5) (f : BitVec 11) : Option.map exec ((decode1E a b c f).filter Instr.wf) = run1E a b c f := by
  unfold decode1E run1E
  generalize (f.extractLsb' 0 7).toNat = n
  iterate 37 (rcases n with _ | n; · first | exact none_eq | exact ite_eq (go_eq _) none_eq)
  rfl

theorem run1F_eq (a b c : BitVec 5) (f : BitVec 11) : Option.map exec ((decode1F a b c f).filter Instr.wf) = run1F a b c f := by
  unfold decode1F run1F
  generalize c.toNat = n
  iterate 13 (rcases n with _ | n; · first | exact none_eq | exact go_eq _ | exact ite_eq (go_eq _) none_eq)
  rfl

theorem run20_eq (a b c : BitVec 5) (f : BitVec 11) : Option.map exec ((decode20 a b c f).filter Instr.wf) = run20 a b c f := by
  unfold decode20 run20
  generalize f.toNat = n
  iterate 8 (rcases n with _ | n; · first | exact none_eq | exact go_eq _ | exact ite_eq (go_eq _) none_eq)
  rfl

theorem run21_eq (a b c : BitVec 5) (f : BitVec 11) : Option.map exec ((decode21 a b c f).filter Instr.wf) = run21 a b c f := by
  unfold decode21 run21
  generalize f.toNat = n
  iterate 6 (rcases n with _ | n; · first | exact none_eq | exact go_eq _)
  rfl

theorem run22_eq (a b c : BitVec 5) (f : BitVec 11) : Option.map exec ((decode22 a b c f).filter Instr.wf) = run22 a b c f := by
  unfold decode22 run22
  generalize f.toNat = n
  iterate 10 (rcases n with _ | n; · first | exact none_eq | exact go_eq _ | exact ite_eq (go_eq _) none_eq)
  rfl

theorem run28_eq (a b c : BitVec 5) (f : BitVec 11) : Option.map exec ((decode28 a b c f).filter Instr.wf) = run28 a b c f := by
  unfold decode28 run28
  generalize f.toNat = n
  iterate 5 (rcases n with _ | n; · first | exact none_eq | exact ite_eq (go_eq _) none_eq)
  rfl

theorem run29_eq (a b c : BitVec 5) (f : BitVec 11) : Option.map exec ((decode29 a b c f).filter Instr.wf) = run29 a b c f := by
  unfold decode29 run29
  generalize (f.extractLsb' 0 7).toNat = n
  iterate 30 (rcases n with _ | n; · first | exact none_eq | exact mask_eq _ _ | exact ite_eq (mask_eq _ _) none_eq)
  rfl

theorem run2A_eq (a b c : BitVec 5) (f : BitVec 11) : Option.map exec ((decode2A a b c f).filter Instr.wf) = run2A a b c f := by
  unfold decode2A run2A
  generalize (f.extractLsb' 0 7).toNat = n
  iterate 35 (rcases n with _ | n; · first | exact none_eq | exact mask_eq _ _ | exact ite_eq (mask_eq _ _) none_eq)
  rfl

theorem run2B_eq (a b c : BitVec 5) (f : BitVec 11) : Option.map exec ((decode2B a b c f).filter Instr.wf) = run2B a b c f := by
  unfold decode2B run2B
  generalize (f.extractLsb' 0 7).toNat = n
  iterate 10 (rcases n with _ | n; · first | exact none_eq | exact ite_eq (mask_eq _ _) none_eq)
  rfl

theorem run2C_eq (a b c : BitVec 5) (f : BitVec 11) : Option.map exec ((decode2C a b c f).filter Instr.wf) = run2C a b c f := by
  unfold decode2C run2C
  generalize (f.extractLsb' 0 7).toNat = n
  iterate 41 (rcases n with _ | n; · first | exact none_eq | exact mask_eq _ _ | exact ite_eq (go_eq _) none_eq | exact ite_eq (mask_eq _ _) none_eq)
  rfl

theorem run2D_eq (a b c : BitVec 5) (f : BitVec 11) : Option.map exec ((decode2D a b c f).filter Instr.wf) = run2D a b c f := by
  unfold decode2D run2D
  generalize (f.extractLsb' 4 4).toNat = n
  iterate 9 (rcases n with _ | n; · first | exact none_eq | exact ite_eq (go_eq _) none_eq | exact ite_eq (mask_eq _ _) none_eq | exact ite_eq (mask_eq _ _) (ite_eq (mask_eq _ _) (ite_eq (mask_eq _ _) (ite_eq (mask_eq _ _) none_eq))))
  rfl

theorem run2E_eq (a b c : BitVec 5) (f : BitVec 11) : Option.map exec ((decode2E a b c f).filter Instr.wf) = run2E a b c f := by
  unfold decode2E run2E
  generalize (f.extractLsb' 0 7).toNat = n
  iterate 6 (rcases n with _ | n; · first | exact none_eq | exact ite_eq (go_eq _) none_eq | exact ite_eq (mask_eq _ _) none_eq)
  rfl

theorem run30_eq (a b c : BitVec 5) (f : BitVec 11) : Option.map exec ((decode30 a b c f).filter Instr.wf) = run30 a b c f := by
  unfold decode30 run30
  generalize (f.extractLsb' 4 5).toNat = n
  iterate 15 (rcases n with _ | n; · first | exact none_eq | exact ite_eq (go_eq _) none_eq | exact ite_eq (mask_eq _ _) none_eq)
  rfl

theorem run31_eq (a b c : BitVec 5) (f : BitVec 11) : Option.map exec ((decode31 a b c f).filter Instr.wf) = run31 a b c f := by
  unfold decode31 run31
  generalize f.toNat = n
  iterate 5 (rcases n with _ | n; · first | exact none_eq | exact ite_eq (go_eq _) none_eq)
  rfl

theorem run32_eq (a b c : BitVec 5) (f : BitVec 11) : Option.map exec ((decode32 a b c f).filter Instr.wf) = run32 a b c f := by
  unfold decode32 run32
  generalize f.toNat = n
  iterate 4 (rcases n with _ | n; · first | exact none_eq | exact go_eq _ | exact ite_eq (go_eq _) none_eq)
  rfl

theorem run08_eq (a b : BitVec 5) (i : BitVec 16) : Option.map exec ((decode08 a b i).filter Instr.wf) = run08 a b i := by
  unfold decode08 run08
  generalize (i.extractLsb' 14 2).toNat = n
  iterate 4 (rcases n with _ | n; · first | exact none_eq | exact ite_eq (go_eq _) none_eq)
  rfl

theorem run1A_eq (a b : BitVec 5) (i : BitVec 16) : Option.map exec ((decode1A a b i).filter Instr.wf) = run1A a b i := by
  unfold decode1A run1A
  generalize (i.extractLsb' 13 3).toNat = n
  iterate 7 (rcases n with _ | n; · first | exact none_eq | exact go_eq _)
  rfl

theorem run1B_eq (a b : BitVec 5) (i : BitVec 16) : Option.map exec ((decode1B a b i).filter Instr.wf) = run1B a b i := by
  unfold decode1B run1B
  generalize (i.extractLsb' 13 3).toNat = n
  iterate 7 (rcases n with _ | n; · first | exact none_eq | exact go_eq _)
  rfl

theorem runRaw_eq (w : Insn) : Option.map exec ((decodeRaw w).filter Instr.wf) = runRaw w := by
  unfold decodeRaw runRaw
  generalize (w.extractLsb' 26 6).toNat = n
  rcases n with _ | n; · exact none_eq
  rcases n with _ | n; · exact run01_eq _ _ _ _
  rcases n with _ | n; · exact go_eq _
  rcases n with _ | n; · exact go_eq _
  rcases n with _ | n; · exact go_eq _
  rcases n with _ | n; · exact go_eq _
  rcases n with _ | n; · exact go_eq _
  rcases n with _ | n; · exact go_eq _
  rcases n with _ | n; · exact run08_eq _ _ _
  rcases n with _ | n; · exact ite_eq (go_eq _) none_eq
  rcases n with _ | n; · exact run0A_eq _ _ _ _
  rcases n with _ | n; · exact none_eq
  rcases n with _ | n; · exact run0C_eq _ _ _ _
  rcases n with _ | n; · exact none_eq
  rcases n with _ | n; · exact none_eq
  rcases n with _ | n; · exact none_eq
  rcases n with _ | n; · exact go_eq _
  rcases n with _ | n; · exact go_eq _
  rcases n with _ | n; · exact go_eq _
  rcases n with _ | n; · exact go_eq _
  rcases n with _ | n; · exact go_eq _
  rcases n with _ | n; · exact go_eq _
  rcases n with _ | n; · exact ite_eq (go_eq _) none_eq
  rcases n with _ | n; · exact go_eq _
  rcases n with _ | n; · exact go_eq _
  rcases n with _ | n; · exact go_eq _
  rcases n with _ | n; · exact run1A_eq _ _ _
  rcases n with _ | n; · exact run1B_eq _ _ _
  rcases n with _ | n; · exact run1C_eq _ _ _ _
  rcases n with _ | n; · exact run1D_eq _ _ _ _
  rcases n with _ | n; · exact run1E_eq _ _ _ _
  rcases n with _ | n; · exact run1F_eq _ _ _ _
  rcases n with _ | n; · exact run20_eq _ _ _ _
  rcases n with _ | n; · exact run21_eq _ _ _ _
  rcases n with _ | n; · exact run22_eq _ _ _ _
  rcases n with _ | n; · exact none_eq
  rcases n with _ | n; · exact none_eq
  rcases n with _ | n; · exact none_eq
  rcases n with _ | n; · exact none_eq
  rcases n with _ | n; · exact none_eq
  rcases n with _ | n; · exact run28_eq _ _ _ _
  rcases n with _ | n; · exact run29_eq _ _ _ _
  rcases n with _ | n; · exact run2A_eq _ _ _ _
  rcases n with _ | n; · exact run2B_eq _ _ _ _
  rcases n with _ | n; · exact run2C_eq _ _ _ _
  rcases n with _ | n; · exact run2D_eq _ _ _ _
  rcases n with _ | n; · exact run2E_eq _ _ _ _
  rcases n with _ | n; · exact none_eq
  rcases n with _ | n; · exact run30_eq _ _ _ _
  rcases n with _ | n; · exact run31_eq _ _ _ _
  rcases n with _ | n; · exact run32_eq _ _ _ _
  rcases n with _ | n; · exact none_eq
  rcases n with _ | n; · exact none_eq
  rcases n with _ | n; · exact none_eq
  rcases n with _ | n; · exact none_eq
  rcases n with _ | n; · exact none_eq
  rcases n with _ | n; · exact none_eq
  rcases n with _ | n; · exact none_eq
  rcases n with _ | n; · exact none_eq
  rcases n with _ | n; · exact none_eq
  rcases n with _ | n; · exact none_eq
  rcases n with _ | n; · exact none_eq
  rcases n with _ | n; · exact none_eq
  rcases n with _ | n; · exact ite_eq (go_eq _) none_eq
  rfl

/-- Running a word is running what it decodes to. -/
theorem runWord_eq (w : Insn) : runWord w = (decode w).map exec := (runRaw_eq w).symm

/-- The meaning of a word as compiled code has it. -/
def runInsn (w : Insn) (s : State) : Out :=
  match runWord w with
  | some f => f s
  | none => execIllegalInsn w s

@[csimp] theorem execWord_eq_runInsn : @execWord = @runInsn := by
  funext w s
  unfold execWord runInsn
  rw [runWord_eq]
  cases decode w <;> rfl

/-- Whether a word is an instruction, as compiled code has it. -/
def runLegal (w : Insn) : Bool := (runWord w).isSome

@[csimp] theorem legalWord_eq_runLegal : @legalWord = @runLegal := by
  funext w
  unfold legalWord runLegal
  rw [runWord_eq]
  cases decode w <;> rfl

end Sys2Proof.Machine
end

