-- ==== Sys2Proof/Machine/Step.lean ====
section
/-! DEFINITION. Sys2Proof/Machine/Step.lean: one step of the machine, and how an instruction comes to be the next one. -/

namespace Sys2Proof.Machine

/-- One step: the head of the schedule, else what moves by itself. -/
def step (s : State) : Host.Outcome State Fault Refusal := s.stepWith execWord legalWord

/-- s with an instruction where step fetches its next one: on a machine that has not booted, a program is first placed (log entry 8). Instructions are one 32-bit word, so bits above nbits are those of that word (R31). -/
def State.withFetchWord (s : State) (_nbits w : Nat) : State :=
  let s := { s with sched := [] }
  (if s.sec.up then s else s.placeProgram).placeWord (leBytes 4 w)

end Sys2Proof.Machine
end

