-- ==== Sys2Proof/Laws/Encode.lean ====
section
/-! SUPPORT. Sys2Proof/Laws/Encode.lean: the fields of the three word layouts read back from a word that was laid out (R31), and the parts of a field that is laid out of parts. -/

namespace Sys2Proof

-- The package is also compiled as one text, where a thread for each small theorem is more than there is room for.
set_option Elab.async false

/-- Field m of a word of this format. -/
@[simp] theorem encO_major (m : BitVec 6) (a : BitVec 5) (b : BitVec 5) (c : BitVec 5) (f : BitVec 11) :
    (encO m a b c f).extractLsb' 26 6 = m := by
  apply BitVec.eq_of_getLsbD_eq
  intro i hi
  simp only [encO, BitVec.getLsbD_extractLsb', BitVec.getLsbD_append, hi, decide_true, Bool.true_and]
  have h1 : ¬ 26 + i < 11 := by omega
  have h2 : ¬ 26 + i - 11 < 5 := by omega
  have h3 : ¬ 26 + i - 11 - 5 < 5 := by omega
  have h4 : ¬ 26 + i - 11 - 5 - 5 < 5 := by omega
  simp only [h1, h2, h3, h4, if_false]
  congr 1; omega

/-- Field a of a word of this format. -/
@[simp] theorem encO_a (m : BitVec 6) (a : BitVec 5) (b : BitVec 5) (c : BitVec 5) (f : BitVec 11) :
    (encO m a b c f).extractLsb' 21 5 = a := by
  apply BitVec.eq_of_getLsbD_eq
  intro i hi
  simp only [encO, BitVec.getLsbD_extractLsb', BitVec.getLsbD_append, hi, decide_true, Bool.true_and]
  have h1 : ¬ 21 + i < 11 := by omega
  have h2 : ¬ 21 + i - 11 < 5 := by omega
  have h3 : ¬ 21 + i - 11 - 5 < 5 := by omega
  have h4 : 21 + i - 11 - 5 - 5 < 5 := by omega
  simp only [h1, h2, h3, h4, if_false, if_true]
  congr 1; omega

/-- Field b of a word of this format. -/
@[simp] theorem encO_b (m : BitVec 6) (a : BitVec 5) (b : BitVec 5) (c : BitVec 5) (f : BitVec 11) :
    (encO m a b c f).extractLsb' 16 5 = b := by
  apply BitVec.eq_of_getLsbD_eq
  intro i hi
  simp only [encO, BitVec.getLsbD_extractLsb', BitVec.getLsbD_append, hi, decide_true, Bool.true_and]
  have h1 : ¬ 16 + i < 11 := by omega
  have h2 : ¬ 16 + i - 11 < 5 := by omega
  have h3 : 16 + i - 11 - 5 < 5 := by omega
  simp only [h1, h2, h3, if_false, if_true]
  congr 1; omega

/-- Field c of a word of this format. -/
@[simp] theorem encO_c (m : BitVec 6) (a : BitVec 5) (b : BitVec 5) (c : BitVec 5) (f : BitVec 11) :
    (encO m a b c f).extractLsb' 11 5 = c := by
  apply BitVec.eq_of_getLsbD_eq
  intro i hi
  simp only [encO, BitVec.getLsbD_extractLsb', BitVec.getLsbD_append, hi, decide_true, Bool.true_and]
  have h1 : ¬ 11 + i < 11 := by omega
  have h2 : 11 + i - 11 < 5 := by omega
  simp only [h1, h2, if_false, if_true]
  congr 1; omega

/-- Field f of a word of this format. -/
@[simp] theorem encO_f (m : BitVec 6) (a : BitVec 5) (b : BitVec 5) (c : BitVec 5) (f : BitVec 11) :
    (encO m a b c f).extractLsb' 0 11 = f := by
  apply BitVec.eq_of_getLsbD_eq
  intro i hi
  simp only [encO, BitVec.getLsbD_extractLsb', BitVec.getLsbD_append, hi, decide_true, Bool.true_and]
  have h1 : 0 + i < 11 := by omega
  simp only [h1, if_true]
  congr 1; omega

/-- Field m of a word of this format. -/
@[simp] theorem encI_major (m : BitVec 6) (a : BitVec 5) (b : BitVec 5) (i16 : BitVec 16) :
    (encI m a b i16).extractLsb' 26 6 = m := by
  apply BitVec.eq_of_getLsbD_eq
  intro i hi
  simp only [encI, BitVec.getLsbD_extractLsb', BitVec.getLsbD_append, hi, decide_true, Bool.true_and]
  have h1 : ¬ 26 + i < 16 := by omega
  have h2 : ¬ 26 + i - 16 < 5 := by omega
  have h3 : ¬ 26 + i - 16 - 5 < 5 := by omega
  simp only [h1, h2, h3, if_false]
  congr 1; omega

/-- Field a of a word of this format. -/
@[simp] theorem encI_a (m : BitVec 6) (a : BitVec 5) (b : BitVec 5) (i16 : BitVec 16) :
    (encI m a b i16).extractLsb' 21 5 = a := by
  apply BitVec.eq_of_getLsbD_eq
  intro i hi
  simp only [encI, BitVec.getLsbD_extractLsb', BitVec.getLsbD_append, hi, decide_true, Bool.true_and]
  have h1 : ¬ 21 + i < 16 := by omega
  have h2 : ¬ 21 + i - 16 < 5 := by omega
  have h3 : 21 + i - 16 - 5 < 5 := by omega
  simp only [h1, h2, h3, if_false, if_true]
  congr 1; omega

/-- Field b of a word of this format. -/
@[simp] theorem encI_b (m : BitVec 6) (a : BitVec 5) (b : BitVec 5) (i16 : BitVec 16) :
    (encI m a b i16).extractLsb' 16 5 = b := by
  apply BitVec.eq_of_getLsbD_eq
  intro i hi
  simp only [encI, BitVec.getLsbD_extractLsb', BitVec.getLsbD_append, hi, decide_true, Bool.true_and]
  have h1 : ¬ 16 + i < 16 := by omega
  have h2 : 16 + i - 16 < 5 := by omega
  simp only [h1, h2, if_false, if_true]
  congr 1; omega

/-- Field i16 of a word of this format. -/
@[simp] theorem encI_imm (m : BitVec 6) (a : BitVec 5) (b : BitVec 5) (i16 : BitVec 16) :
    (encI m a b i16).extractLsb' 0 16 = i16 := by
  apply BitVec.eq_of_getLsbD_eq
  intro i hi
  simp only [encI, BitVec.getLsbD_extractLsb', BitVec.getLsbD_append, hi, decide_true, Bool.true_and]
  have h1 : 0 + i < 16 := by omega
  simp only [h1, if_true]
  congr 1; omega

/-- Field m of a word of this format. -/
@[simp] theorem encJ_major (m : BitVec 6) (o : BitVec 26) :
    (encJ m o).extractLsb' 26 6 = m := by
  apply BitVec.eq_of_getLsbD_eq
  intro i hi
  simp only [encJ, BitVec.getLsbD_extractLsb', BitVec.getLsbD_append, hi, decide_true, Bool.true_and]
  have h1 : ¬ 26 + i < 26 := by omega
  simp only [h1, if_false]
  congr 1; omega

/-- Field o of a word of this format. -/
@[simp] theorem encJ_off (m : BitVec 6) (o : BitVec 26) :
    (encJ m o).extractLsb' 0 26 = o := by
  apply BitVec.eq_of_getLsbD_eq
  intro i hi
  simp only [encJ, BitVec.getLsbD_extractLsb', BitVec.getLsbD_append, hi, decide_true, Bool.true_and]
  have h1 : 0 + i < 26 := by omega
  simp only [h1, if_true]
  congr 1; omega

@[simp] theorem sub_1_4_at_0_4 (p0 : BitVec 1) (p1 : BitVec 4) :
    BitVec.extractLsb' (n := 5) 0 4 (p0 ++ p1) = p1 := by
  apply BitVec.eq_of_getLsbD_eq
  intro i hi
  simp only [BitVec.getLsbD_extractLsb', BitVec.getLsbD_append, hi, decide_true, Bool.true_and]
  split_ifs <;> first | omega | (congr 1; done) | (congr 1; omega)

@[simp] theorem sub_1_4_at_4_1 (p0 : BitVec 1) (p1 : BitVec 4) :
    BitVec.extractLsb' (n := 5) 4 1 (p0 ++ p1) = p0 := by
  apply BitVec.eq_of_getLsbD_eq
  intro i hi
  simp only [BitVec.getLsbD_extractLsb', BitVec.getLsbD_append, hi, decide_true, Bool.true_and]
  split_ifs <;> first | omega | (congr 1; done) | (congr 1; omega)

@[simp] theorem sub_2_3_at_0_3 (p0 : BitVec 2) (p1 : BitVec 3) :
    BitVec.extractLsb' (n := 5) 0 3 (p0 ++ p1) = p1 := by
  apply BitVec.eq_of_getLsbD_eq
  intro i hi
  simp only [BitVec.getLsbD_extractLsb', BitVec.getLsbD_append, hi, decide_true, Bool.true_and]
  split_ifs <;> first | omega | (congr 1; done) | (congr 1; omega)

@[simp] theorem sub_2_3_at_3_2 (p0 : BitVec 2) (p1 : BitVec 3) :
    BitVec.extractLsb' (n := 5) 3 2 (p0 ++ p1) = p0 := by
  apply BitVec.eq_of_getLsbD_eq
  intro i hi
  simp only [BitVec.getLsbD_extractLsb', BitVec.getLsbD_append, hi, decide_true, Bool.true_and]
  split_ifs <;> first | omega | (congr 1; done) | (congr 1; omega)

@[simp] theorem sub_3_1_1_at_0_1 (p0 : BitVec 3) (p1 : BitVec 1) (p2 : BitVec 1) :
    BitVec.extractLsb' (n := 5) 0 1 (p0 ++ p1 ++ p2) = p2 := by
  apply BitVec.eq_of_getLsbD_eq
  intro i hi
  simp only [BitVec.getLsbD_extractLsb', BitVec.getLsbD_append, hi, decide_true, Bool.true_and]
  split_ifs <;> first | omega | (congr 1; done) | (congr 1; omega)

@[simp] theorem sub_3_1_1_at_1_1 (p0 : BitVec 3) (p1 : BitVec 1) (p2 : BitVec 1) :
    BitVec.extractLsb' (n := 5) 1 1 (p0 ++ p1 ++ p2) = p1 := by
  apply BitVec.eq_of_getLsbD_eq
  intro i hi
  simp only [BitVec.getLsbD_extractLsb', BitVec.getLsbD_append, hi, decide_true, Bool.true_and]
  split_ifs <;> first | omega | (congr 1; done) | (congr 1; omega)

@[simp] theorem sub_3_1_1_at_2_3 (p0 : BitVec 3) (p1 : BitVec 1) (p2 : BitVec 1) :
    BitVec.extractLsb' (n := 5) 2 3 (p0 ++ p1 ++ p2) = p0 := by
  apply BitVec.eq_of_getLsbD_eq
  intro i hi
  simp only [BitVec.getLsbD_extractLsb', BitVec.getLsbD_append, hi, decide_true, Bool.true_and]
  split_ifs <;> first | omega | (congr 1; done) | (congr 1; omega)

@[simp] theorem sub_3_2_at_0_2 (p0 : BitVec 3) (p1 : BitVec 2) :
    BitVec.extractLsb' (n := 5) 0 2 (p0 ++ p1) = p1 := by
  apply BitVec.eq_of_getLsbD_eq
  intro i hi
  simp only [BitVec.getLsbD_extractLsb', BitVec.getLsbD_append, hi, decide_true, Bool.true_and]
  split_ifs <;> first | omega | (congr 1; done) | (congr 1; omega)

@[simp] theorem sub_3_2_at_2_3 (p0 : BitVec 3) (p1 : BitVec 2) :
    BitVec.extractLsb' (n := 5) 2 3 (p0 ++ p1) = p0 := by
  apply BitVec.eq_of_getLsbD_eq
  intro i hi
  simp only [BitVec.getLsbD_extractLsb', BitVec.getLsbD_append, hi, decide_true, Bool.true_and]
  split_ifs <;> first | omega | (congr 1; done) | (congr 1; omega)

@[simp] theorem sub_4_1_at_0_1 (p0 : BitVec 4) (p1 : BitVec 1) :
    BitVec.extractLsb' (n := 5) 0 1 (p0 ++ p1) = p1 := by
  apply BitVec.eq_of_getLsbD_eq
  intro i hi
  simp only [BitVec.getLsbD_extractLsb', BitVec.getLsbD_append, hi, decide_true, Bool.true_and]
  split_ifs <;> first | omega | (congr 1; done) | (congr 1; omega)

@[simp] theorem sub_4_1_at_1_4 (p0 : BitVec 4) (p1 : BitVec 1) :
    BitVec.extractLsb' (n := 5) 1 4 (p0 ++ p1) = p0 := by
  apply BitVec.eq_of_getLsbD_eq
  intro i hi
  simp only [BitVec.getLsbD_extractLsb', BitVec.getLsbD_append, hi, decide_true, Bool.true_and]
  split_ifs <;> first | omega | (congr 1; done) | (congr 1; omega)

@[simp] theorem sub_1_1_2_3_4_at_0_4 (p0 : BitVec 1) (p1 : BitVec 1) (p2 : BitVec 2) (p3 : BitVec 3) (p4 : BitVec 4) :
    BitVec.extractLsb' (n := 11) 0 4 (p0 ++ p1 ++ p2 ++ p3 ++ p4) = p4 := by
  apply BitVec.eq_of_getLsbD_eq
  intro i hi
  simp only [BitVec.getLsbD_extractLsb', BitVec.getLsbD_append, hi, decide_true, Bool.true_and]
  split_ifs <;> first | omega | (congr 1; done) | (congr 1; omega)

@[simp] theorem sub_1_1_2_3_4_at_4_3 (p0 : BitVec 1) (p1 : BitVec 1) (p2 : BitVec 2) (p3 : BitVec 3) (p4 : BitVec 4) :
    BitVec.extractLsb' (n := 11) 4 3 (p0 ++ p1 ++ p2 ++ p3 ++ p4) = p3 := by
  apply BitVec.eq_of_getLsbD_eq
  intro i hi
  simp only [BitVec.getLsbD_extractLsb', BitVec.getLsbD_append, hi, decide_true, Bool.true_and]
  split_ifs <;> first | omega | (congr 1; done) | (congr 1; omega)

@[simp] theorem sub_1_1_2_3_4_at_7_2 (p0 : BitVec 1) (p1 : BitVec 1) (p2 : BitVec 2) (p3 : BitVec 3) (p4 : BitVec 4) :
    BitVec.extractLsb' (n := 11) 7 2 (p0 ++ p1 ++ p2 ++ p3 ++ p4) = p2 := by
  apply BitVec.eq_of_getLsbD_eq
  intro i hi
  simp only [BitVec.getLsbD_extractLsb', BitVec.getLsbD_append, hi, decide_true, Bool.true_and]
  split_ifs <;> first | omega | (congr 1; done) | (congr 1; omega)

@[simp] theorem sub_1_1_2_3_4_at_9_1 (p0 : BitVec 1) (p1 : BitVec 1) (p2 : BitVec 2) (p3 : BitVec 3) (p4 : BitVec 4) :
    BitVec.extractLsb' (n := 11) 9 1 (p0 ++ p1 ++ p2 ++ p3 ++ p4) = p1 := by
  apply BitVec.eq_of_getLsbD_eq
  intro i hi
  simp only [BitVec.getLsbD_extractLsb', BitVec.getLsbD_append, hi, decide_true, Bool.true_and]
  split_ifs <;> first | omega | (congr 1; done) | (congr 1; omega)

@[simp] theorem sub_1_1_2_3_4_at_10_1 (p0 : BitVec 1) (p1 : BitVec 1) (p2 : BitVec 2) (p3 : BitVec 3) (p4 : BitVec 4) :
    BitVec.extractLsb' (n := 11) 10 1 (p0 ++ p1 ++ p2 ++ p3 ++ p4) = p0 := by
  apply BitVec.eq_of_getLsbD_eq
  intro i hi
  simp only [BitVec.getLsbD_extractLsb', BitVec.getLsbD_append, hi, decide_true, Bool.true_and]
  split_ifs <;> first | omega | (congr 1; done) | (congr 1; omega)

@[simp] theorem sub_1_1_2_7_at_0_4 (p0 : BitVec 1) (p1 : BitVec 1) (p2 : BitVec 2) (p3 : BitVec 7) :
    BitVec.extractLsb' (n := 11) 0 4 (p0 ++ p1 ++ p2 ++ p3) = p3.extractLsb' 0 4 := by
  apply BitVec.eq_of_getLsbD_eq
  intro i hi
  simp only [BitVec.getLsbD_extractLsb', BitVec.getLsbD_append, hi, decide_true, Bool.true_and]
  split_ifs <;> first | omega | (congr 1; done) | (congr 1; omega)

@[simp] theorem sub_1_1_2_7_at_4_3 (p0 : BitVec 1) (p1 : BitVec 1) (p2 : BitVec 2) (p3 : BitVec 7) :
    BitVec.extractLsb' (n := 11) 4 3 (p0 ++ p1 ++ p2 ++ p3) = p3.extractLsb' 4 3 := by
  apply BitVec.eq_of_getLsbD_eq
  intro i hi
  simp only [BitVec.getLsbD_extractLsb', BitVec.getLsbD_append, hi, decide_true, Bool.true_and]
  split_ifs <;> first | omega | (congr 1; done) | (congr 1; omega)

@[simp] theorem sub_1_1_2_7_at_7_2 (p0 : BitVec 1) (p1 : BitVec 1) (p2 : BitVec 2) (p3 : BitVec 7) :
    BitVec.extractLsb' (n := 11) 7 2 (p0 ++ p1 ++ p2 ++ p3) = p2 := by
  apply BitVec.eq_of_getLsbD_eq
  intro i hi
  simp only [BitVec.getLsbD_extractLsb', BitVec.getLsbD_append, hi, decide_true, Bool.true_and]
  split_ifs <;> first | omega | (congr 1; done) | (congr 1; omega)

@[simp] theorem sub_1_1_2_7_at_9_1 (p0 : BitVec 1) (p1 : BitVec 1) (p2 : BitVec 2) (p3 : BitVec 7) :
    BitVec.extractLsb' (n := 11) 9 1 (p0 ++ p1 ++ p2 ++ p3) = p1 := by
  apply BitVec.eq_of_getLsbD_eq
  intro i hi
  simp only [BitVec.getLsbD_extractLsb', BitVec.getLsbD_append, hi, decide_true, Bool.true_and]
  split_ifs <;> first | omega | (congr 1; done) | (congr 1; omega)

@[simp] theorem sub_1_1_2_7_at_10_1 (p0 : BitVec 1) (p1 : BitVec 1) (p2 : BitVec 2) (p3 : BitVec 7) :
    BitVec.extractLsb' (n := 11) 10 1 (p0 ++ p1 ++ p2 ++ p3) = p0 := by
  apply BitVec.eq_of_getLsbD_eq
  intro i hi
  simp only [BitVec.getLsbD_extractLsb', BitVec.getLsbD_append, hi, decide_true, Bool.true_and]
  split_ifs <;> first | omega | (congr 1; done) | (congr 1; omega)

@[simp] theorem sub_1_2_1_7_at_0_7 (p0 : BitVec 1) (p1 : BitVec 2) (p2 : BitVec 1) (p3 : BitVec 7) :
    BitVec.extractLsb' (n := 11) 0 7 (p0 ++ p1 ++ p2 ++ p3) = p3 := by
  apply BitVec.eq_of_getLsbD_eq
  intro i hi
  simp only [BitVec.getLsbD_extractLsb', BitVec.getLsbD_append, hi, decide_true, Bool.true_and]
  split_ifs <;> first | omega | (congr 1; done) | (congr 1; omega)

@[simp] theorem sub_1_2_1_7_at_7_1 (p0 : BitVec 1) (p1 : BitVec 2) (p2 : BitVec 1) (p3 : BitVec 7) :
    BitVec.extractLsb' (n := 11) 7 1 (p0 ++ p1 ++ p2 ++ p3) = p2 := by
  apply BitVec.eq_of_getLsbD_eq
  intro i hi
  simp only [BitVec.getLsbD_extractLsb', BitVec.getLsbD_append, hi, decide_true, Bool.true_and]
  split_ifs <;> first | omega | (congr 1; done) | (congr 1; omega)

@[simp] theorem sub_1_2_1_7_at_8_2 (p0 : BitVec 1) (p1 : BitVec 2) (p2 : BitVec 1) (p3 : BitVec 7) :
    BitVec.extractLsb' (n := 11) 8 2 (p0 ++ p1 ++ p2 ++ p3) = p1 := by
  apply BitVec.eq_of_getLsbD_eq
  intro i hi
  simp only [BitVec.getLsbD_extractLsb', BitVec.getLsbD_append, hi, decide_true, Bool.true_and]
  split_ifs <;> first | omega | (congr 1; done) | (congr 1; omega)

@[simp] theorem sub_1_2_1_7_at_10_1 (p0 : BitVec 1) (p1 : BitVec 2) (p2 : BitVec 1) (p3 : BitVec 7) :
    BitVec.extractLsb' (n := 11) 10 1 (p0 ++ p1 ++ p2 ++ p3) = p0 := by
  apply BitVec.eq_of_getLsbD_eq
  intro i hi
  simp only [BitVec.getLsbD_extractLsb', BitVec.getLsbD_append, hi, decide_true, Bool.true_and]
  split_ifs <;> first | omega | (congr 1; done) | (congr 1; omega)

@[simp] theorem sub_1_2_4_2_2_at_0_2 (p0 : BitVec 1) (p1 : BitVec 2) (p2 : BitVec 4) (p3 : BitVec 2) (p4 : BitVec 2) :
    BitVec.extractLsb' (n := 11) 0 2 (p0 ++ p1 ++ p2 ++ p3 ++ p4) = p4 := by
  apply BitVec.eq_of_getLsbD_eq
  intro i hi
  simp only [BitVec.getLsbD_extractLsb', BitVec.getLsbD_append, hi, decide_true, Bool.true_and]
  split_ifs <;> first | omega | (congr 1; done) | (congr 1; omega)

@[simp] theorem sub_1_2_4_2_2_at_2_2 (p0 : BitVec 1) (p1 : BitVec 2) (p2 : BitVec 4) (p3 : BitVec 2) (p4 : BitVec 2) :
    BitVec.extractLsb' (n := 11) 2 2 (p0 ++ p1 ++ p2 ++ p3 ++ p4) = p3 := by
  apply BitVec.eq_of_getLsbD_eq
  intro i hi
  simp only [BitVec.getLsbD_extractLsb', BitVec.getLsbD_append, hi, decide_true, Bool.true_and]
  split_ifs <;> first | omega | (congr 1; done) | (congr 1; omega)

@[simp] theorem sub_1_2_4_2_2_at_4_4 (p0 : BitVec 1) (p1 : BitVec 2) (p2 : BitVec 4) (p3 : BitVec 2) (p4 : BitVec 2) :
    BitVec.extractLsb' (n := 11) 4 4 (p0 ++ p1 ++ p2 ++ p3 ++ p4) = p2 := by
  apply BitVec.eq_of_getLsbD_eq
  intro i hi
  simp only [BitVec.getLsbD_extractLsb', BitVec.getLsbD_append, hi, decide_true, Bool.true_and]
  split_ifs <;> first | omega | (congr 1; done) | (congr 1; omega)

@[simp] theorem sub_1_2_4_2_2_at_8_2 (p0 : BitVec 1) (p1 : BitVec 2) (p2 : BitVec 4) (p3 : BitVec 2) (p4 : BitVec 2) :
    BitVec.extractLsb' (n := 11) 8 2 (p0 ++ p1 ++ p2 ++ p3 ++ p4) = p1 := by
  apply BitVec.eq_of_getLsbD_eq
  intro i hi
  simp only [BitVec.getLsbD_extractLsb', BitVec.getLsbD_append, hi, decide_true, Bool.true_and]
  split_ifs <;> first | omega | (congr 1; done) | (congr 1; omega)

@[simp] theorem sub_1_2_4_2_2_at_10_1 (p0 : BitVec 1) (p1 : BitVec 2) (p2 : BitVec 4) (p3 : BitVec 2) (p4 : BitVec 2) :
    BitVec.extractLsb' (n := 11) 10 1 (p0 ++ p1 ++ p2 ++ p3 ++ p4) = p0 := by
  apply BitVec.eq_of_getLsbD_eq
  intro i hi
  simp only [BitVec.getLsbD_extractLsb', BitVec.getLsbD_append, hi, decide_true, Bool.true_and]
  split_ifs <;> first | omega | (congr 1; done) | (congr 1; omega)

@[simp] theorem sub_1_2_6_2_at_0_2 (p0 : BitVec 1) (p1 : BitVec 2) (p2 : BitVec 6) (p3 : BitVec 2) :
    BitVec.extractLsb' (n := 11) 0 2 (p0 ++ p1 ++ p2 ++ p3) = p3 := by
  apply BitVec.eq_of_getLsbD_eq
  intro i hi
  simp only [BitVec.getLsbD_extractLsb', BitVec.getLsbD_append, hi, decide_true, Bool.true_and]
  split_ifs <;> first | omega | (congr 1; done) | (congr 1; omega)

@[simp] theorem sub_1_2_6_2_at_2_2 (p0 : BitVec 1) (p1 : BitVec 2) (p2 : BitVec 6) (p3 : BitVec 2) :
    BitVec.extractLsb' (n := 11) 2 2 (p0 ++ p1 ++ p2 ++ p3) = p2.extractLsb' 0 2 := by
  apply BitVec.eq_of_getLsbD_eq
  intro i hi
  simp only [BitVec.getLsbD_extractLsb', BitVec.getLsbD_append, hi, decide_true, Bool.true_and]
  split_ifs <;> first | omega | (congr 1; done) | (congr 1; omega)

@[simp] theorem sub_1_2_6_2_at_4_4 (p0 : BitVec 1) (p1 : BitVec 2) (p2 : BitVec 6) (p3 : BitVec 2) :
    BitVec.extractLsb' (n := 11) 4 4 (p0 ++ p1 ++ p2 ++ p3) = p2.extractLsb' 2 4 := by
  apply BitVec.eq_of_getLsbD_eq
  intro i hi
  simp only [BitVec.getLsbD_extractLsb', BitVec.getLsbD_append, hi, decide_true, Bool.true_and]
  split_ifs <;> first | omega | (congr 1; done) | (congr 1; omega)

@[simp] theorem sub_1_2_6_2_at_8_2 (p0 : BitVec 1) (p1 : BitVec 2) (p2 : BitVec 6) (p3 : BitVec 2) :
    BitVec.extractLsb' (n := 11) 8 2 (p0 ++ p1 ++ p2 ++ p3) = p1 := by
  apply BitVec.eq_of_getLsbD_eq
  intro i hi
  simp only [BitVec.getLsbD_extractLsb', BitVec.getLsbD_append, hi, decide_true, Bool.true_and]
  split_ifs <;> first | omega | (congr 1; done) | (congr 1; omega)

@[simp] theorem sub_1_2_6_2_at_10_1 (p0 : BitVec 1) (p1 : BitVec 2) (p2 : BitVec 6) (p3 : BitVec 2) :
    BitVec.extractLsb' (n := 11) 10 1 (p0 ++ p1 ++ p2 ++ p3) = p0 := by
  apply BitVec.eq_of_getLsbD_eq
  intro i hi
  simp only [BitVec.getLsbD_extractLsb', BitVec.getLsbD_append, hi, decide_true, Bool.true_and]
  split_ifs <;> first | omega | (congr 1; done) | (congr 1; omega)

@[simp] theorem sub_1_2_8_at_0_7 (p0 : BitVec 1) (p1 : BitVec 2) (p2 : BitVec 8) :
    BitVec.extractLsb' (n := 11) 0 7 (p0 ++ p1 ++ p2) = p2.extractLsb' 0 7 := by
  apply BitVec.eq_of_getLsbD_eq
  intro i hi
  simp only [BitVec.getLsbD_extractLsb', BitVec.getLsbD_append, hi, decide_true, Bool.true_and]
  split_ifs <;> first | omega | (congr 1; done) | (congr 1; omega)

@[simp] theorem sub_1_2_8_at_7_1 (p0 : BitVec 1) (p1 : BitVec 2) (p2 : BitVec 8) :
    BitVec.extractLsb' (n := 11) 7 1 (p0 ++ p1 ++ p2) = p2.extractLsb' 7 1 := by
  apply BitVec.eq_of_getLsbD_eq
  intro i hi
  simp only [BitVec.getLsbD_extractLsb', BitVec.getLsbD_append, hi, decide_true, Bool.true_and]
  split_ifs <;> first | omega | (congr 1; done) | (congr 1; omega)

@[simp] theorem sub_1_2_8_at_8_2 (p0 : BitVec 1) (p1 : BitVec 2) (p2 : BitVec 8) :
    BitVec.extractLsb' (n := 11) 8 2 (p0 ++ p1 ++ p2) = p1 := by
  apply BitVec.eq_of_getLsbD_eq
  intro i hi
  simp only [BitVec.getLsbD_extractLsb', BitVec.getLsbD_append, hi, decide_true, Bool.true_and]
  split_ifs <;> first | omega | (congr 1; done) | (congr 1; omega)

@[simp] theorem sub_1_2_8_at_10_1 (p0 : BitVec 1) (p1 : BitVec 2) (p2 : BitVec 8) :
    BitVec.extractLsb' (n := 11) 10 1 (p0 ++ p1 ++ p2) = p0 := by
  apply BitVec.eq_of_getLsbD_eq
  intro i hi
  simp only [BitVec.getLsbD_extractLsb', BitVec.getLsbD_append, hi, decide_true, Bool.true_and]
  split_ifs <;> first | omega | (congr 1; done) | (congr 1; omega)

@[simp] theorem sub_2_5_1_1_2_at_0_2 (p0 : BitVec 2) (p1 : BitVec 5) (p2 : BitVec 1) (p3 : BitVec 1) (p4 : BitVec 2) :
    BitVec.extractLsb' (n := 11) 0 2 (p0 ++ p1 ++ p2 ++ p3 ++ p4) = p4 := by
  apply BitVec.eq_of_getLsbD_eq
  intro i hi
  simp only [BitVec.getLsbD_extractLsb', BitVec.getLsbD_append, hi, decide_true, Bool.true_and]
  split_ifs <;> first | omega | (congr 1; done) | (congr 1; omega)

@[simp] theorem sub_2_5_1_1_2_at_2_1 (p0 : BitVec 2) (p1 : BitVec 5) (p2 : BitVec 1) (p3 : BitVec 1) (p4 : BitVec 2) :
    BitVec.extractLsb' (n := 11) 2 1 (p0 ++ p1 ++ p2 ++ p3 ++ p4) = p3 := by
  apply BitVec.eq_of_getLsbD_eq
  intro i hi
  simp only [BitVec.getLsbD_extractLsb', BitVec.getLsbD_append, hi, decide_true, Bool.true_and]
  split_ifs <;> first | omega | (congr 1; done) | (congr 1; omega)

@[simp] theorem sub_2_5_1_1_2_at_3_1 (p0 : BitVec 2) (p1 : BitVec 5) (p2 : BitVec 1) (p3 : BitVec 1) (p4 : BitVec 2) :
    BitVec.extractLsb' (n := 11) 3 1 (p0 ++ p1 ++ p2 ++ p3 ++ p4) = p2 := by
  apply BitVec.eq_of_getLsbD_eq
  intro i hi
  simp only [BitVec.getLsbD_extractLsb', BitVec.getLsbD_append, hi, decide_true, Bool.true_and]
  split_ifs <;> first | omega | (congr 1; done) | (congr 1; omega)

@[simp] theorem sub_2_5_1_1_2_at_4_5 (p0 : BitVec 2) (p1 : BitVec 5) (p2 : BitVec 1) (p3 : BitVec 1) (p4 : BitVec 2) :
    BitVec.extractLsb' (n := 11) 4 5 (p0 ++ p1 ++ p2 ++ p3 ++ p4) = p1 := by
  apply BitVec.eq_of_getLsbD_eq
  intro i hi
  simp only [BitVec.getLsbD_extractLsb', BitVec.getLsbD_append, hi, decide_true, Bool.true_and]
  split_ifs <;> first | omega | (congr 1; done) | (congr 1; omega)

@[simp] theorem sub_2_5_1_1_2_at_9_2 (p0 : BitVec 2) (p1 : BitVec 5) (p2 : BitVec 1) (p3 : BitVec 1) (p4 : BitVec 2) :
    BitVec.extractLsb' (n := 11) 9 2 (p0 ++ p1 ++ p2 ++ p3 ++ p4) = p0 := by
  apply BitVec.eq_of_getLsbD_eq
  intro i hi
  simp only [BitVec.getLsbD_extractLsb', BitVec.getLsbD_append, hi, decide_true, Bool.true_and]
  split_ifs <;> first | omega | (congr 1; done) | (congr 1; omega)

@[simp] theorem sub_2_5_2_2_at_0_2 (p0 : BitVec 2) (p1 : BitVec 5) (p2 : BitVec 2) (p3 : BitVec 2) :
    BitVec.extractLsb' (n := 11) 0 2 (p0 ++ p1 ++ p2 ++ p3) = p3 := by
  apply BitVec.eq_of_getLsbD_eq
  intro i hi
  simp only [BitVec.getLsbD_extractLsb', BitVec.getLsbD_append, hi, decide_true, Bool.true_and]
  split_ifs <;> first | omega | (congr 1; done) | (congr 1; omega)

@[simp] theorem sub_2_5_2_2_at_2_2 (p0 : BitVec 2) (p1 : BitVec 5) (p2 : BitVec 2) (p3 : BitVec 2) :
    BitVec.extractLsb' (n := 11) 2 2 (p0 ++ p1 ++ p2 ++ p3) = p2 := by
  apply BitVec.eq_of_getLsbD_eq
  intro i hi
  simp only [BitVec.getLsbD_extractLsb', BitVec.getLsbD_append, hi, decide_true, Bool.true_and]
  split_ifs <;> first | omega | (congr 1; done) | (congr 1; omega)

@[simp] theorem sub_2_5_2_2_at_4_5 (p0 : BitVec 2) (p1 : BitVec 5) (p2 : BitVec 2) (p3 : BitVec 2) :
    BitVec.extractLsb' (n := 11) 4 5 (p0 ++ p1 ++ p2 ++ p3) = p1 := by
  apply BitVec.eq_of_getLsbD_eq
  intro i hi
  simp only [BitVec.getLsbD_extractLsb', BitVec.getLsbD_append, hi, decide_true, Bool.true_and]
  split_ifs <;> first | omega | (congr 1; done) | (congr 1; omega)

@[simp] theorem sub_2_5_2_2_at_9_2 (p0 : BitVec 2) (p1 : BitVec 5) (p2 : BitVec 2) (p3 : BitVec 2) :
    BitVec.extractLsb' (n := 11) 9 2 (p0 ++ p1 ++ p2 ++ p3) = p0 := by
  apply BitVec.eq_of_getLsbD_eq
  intro i hi
  simp only [BitVec.getLsbD_extractLsb', BitVec.getLsbD_append, hi, decide_true, Bool.true_and]
  split_ifs <;> first | omega | (congr 1; done) | (congr 1; omega)

@[simp] theorem sub_2_5_3_1_at_0_1 (p0 : BitVec 2) (p1 : BitVec 5) (p2 : BitVec 3) (p3 : BitVec 1) :
    BitVec.extractLsb' (n := 11) 0 1 (p0 ++ p1 ++ p2 ++ p3) = p3 := by
  apply BitVec.eq_of_getLsbD_eq
  intro i hi
  simp only [BitVec.getLsbD_extractLsb', BitVec.getLsbD_append, hi, decide_true, Bool.true_and]
  split_ifs <;> first | omega | (congr 1; done) | (congr 1; omega)

@[simp] theorem sub_2_5_3_1_at_1_3 (p0 : BitVec 2) (p1 : BitVec 5) (p2 : BitVec 3) (p3 : BitVec 1) :
    BitVec.extractLsb' (n := 11) 1 3 (p0 ++ p1 ++ p2 ++ p3) = p2 := by
  apply BitVec.eq_of_getLsbD_eq
  intro i hi
  simp only [BitVec.getLsbD_extractLsb', BitVec.getLsbD_append, hi, decide_true, Bool.true_and]
  split_ifs <;> first | omega | (congr 1; done) | (congr 1; omega)

@[simp] theorem sub_2_5_3_1_at_4_5 (p0 : BitVec 2) (p1 : BitVec 5) (p2 : BitVec 3) (p3 : BitVec 1) :
    BitVec.extractLsb' (n := 11) 4 5 (p0 ++ p1 ++ p2 ++ p3) = p1 := by
  apply BitVec.eq_of_getLsbD_eq
  intro i hi
  simp only [BitVec.getLsbD_extractLsb', BitVec.getLsbD_append, hi, decide_true, Bool.true_and]
  split_ifs <;> first | omega | (congr 1; done) | (congr 1; omega)

@[simp] theorem sub_2_5_3_1_at_9_2 (p0 : BitVec 2) (p1 : BitVec 5) (p2 : BitVec 3) (p3 : BitVec 1) :
    BitVec.extractLsb' (n := 11) 9 2 (p0 ++ p1 ++ p2 ++ p3) = p0 := by
  apply BitVec.eq_of_getLsbD_eq
  intro i hi
  simp only [BitVec.getLsbD_extractLsb', BitVec.getLsbD_append, hi, decide_true, Bool.true_and]
  split_ifs <;> first | omega | (congr 1; done) | (congr 1; omega)

@[simp] theorem sub_2_5_4_at_0_4 (p0 : BitVec 2) (p1 : BitVec 5) (p2 : BitVec 4) :
    BitVec.extractLsb' (n := 11) 0 4 (p0 ++ p1 ++ p2) = p2 := by
  apply BitVec.eq_of_getLsbD_eq
  intro i hi
  simp only [BitVec.getLsbD_extractLsb', BitVec.getLsbD_append, hi, decide_true, Bool.true_and]
  split_ifs <;> first | omega | (congr 1; done) | (congr 1; omega)

@[simp] theorem sub_2_5_4_at_4_5 (p0 : BitVec 2) (p1 : BitVec 5) (p2 : BitVec 4) :
    BitVec.extractLsb' (n := 11) 4 5 (p0 ++ p1 ++ p2) = p1 := by
  apply BitVec.eq_of_getLsbD_eq
  intro i hi
  simp only [BitVec.getLsbD_extractLsb', BitVec.getLsbD_append, hi, decide_true, Bool.true_and]
  split_ifs <;> first | omega | (congr 1; done) | (congr 1; omega)

@[simp] theorem sub_2_5_4_at_9_2 (p0 : BitVec 2) (p1 : BitVec 5) (p2 : BitVec 4) :
    BitVec.extractLsb' (n := 11) 9 2 (p0 ++ p1 ++ p2) = p0 := by
  apply BitVec.eq_of_getLsbD_eq
  intro i hi
  simp only [BitVec.getLsbD_extractLsb', BitVec.getLsbD_append, hi, decide_true, Bool.true_and]
  split_ifs <;> first | omega | (congr 1; done) | (congr 1; omega)

@[simp] theorem sub_2_8_1_at_0_1 (p0 : BitVec 2) (p1 : BitVec 8) (p2 : BitVec 1) :
    BitVec.extractLsb' (n := 11) 0 1 (p0 ++ p1 ++ p2) = p2 := by
  apply BitVec.eq_of_getLsbD_eq
  intro i hi
  simp only [BitVec.getLsbD_extractLsb', BitVec.getLsbD_append, hi, decide_true, Bool.true_and]
  split_ifs <;> first | omega | (congr 1; done) | (congr 1; omega)

@[simp] theorem sub_2_8_1_at_1_3 (p0 : BitVec 2) (p1 : BitVec 8) (p2 : BitVec 1) :
    BitVec.extractLsb' (n := 11) 1 3 (p0 ++ p1 ++ p2) = p1.extractLsb' 0 3 := by
  apply BitVec.eq_of_getLsbD_eq
  intro i hi
  simp only [BitVec.getLsbD_extractLsb', BitVec.getLsbD_append, hi, decide_true, Bool.true_and]
  split_ifs <;> first | omega | (congr 1; done) | (congr 1; omega)

@[simp] theorem sub_2_8_1_at_4_5 (p0 : BitVec 2) (p1 : BitVec 8) (p2 : BitVec 1) :
    BitVec.extractLsb' (n := 11) 4 5 (p0 ++ p1 ++ p2) = p1.extractLsb' 3 5 := by
  apply BitVec.eq_of_getLsbD_eq
  intro i hi
  simp only [BitVec.getLsbD_extractLsb', BitVec.getLsbD_append, hi, decide_true, Bool.true_and]
  split_ifs <;> first | omega | (congr 1; done) | (congr 1; omega)

@[simp] theorem sub_2_8_1_at_9_2 (p0 : BitVec 2) (p1 : BitVec 8) (p2 : BitVec 1) :
    BitVec.extractLsb' (n := 11) 9 2 (p0 ++ p1 ++ p2) = p0 := by
  apply BitVec.eq_of_getLsbD_eq
  intro i hi
  simp only [BitVec.getLsbD_extractLsb', BitVec.getLsbD_append, hi, decide_true, Bool.true_and]
  split_ifs <;> first | omega | (congr 1; done) | (congr 1; omega)

@[simp] theorem sub_2_9_at_0_4 (p0 : BitVec 2) (p1 : BitVec 9) :
    BitVec.extractLsb' (n := 11) 0 4 (p0 ++ p1) = p1.extractLsb' 0 4 := by
  apply BitVec.eq_of_getLsbD_eq
  intro i hi
  simp only [BitVec.getLsbD_extractLsb', BitVec.getLsbD_append, hi, decide_true, Bool.true_and]
  split_ifs <;> first | omega | (congr 1; done) | (congr 1; omega)

@[simp] theorem sub_2_9_at_4_5 (p0 : BitVec 2) (p1 : BitVec 9) :
    BitVec.extractLsb' (n := 11) 4 5 (p0 ++ p1) = p1.extractLsb' 4 5 := by
  apply BitVec.eq_of_getLsbD_eq
  intro i hi
  simp only [BitVec.getLsbD_extractLsb', BitVec.getLsbD_append, hi, decide_true, Bool.true_and]
  split_ifs <;> first | omega | (congr 1; done) | (congr 1; omega)

@[simp] theorem sub_2_9_at_9_2 (p0 : BitVec 2) (p1 : BitVec 9) :
    BitVec.extractLsb' (n := 11) 9 2 (p0 ++ p1) = p0 := by
  apply BitVec.eq_of_getLsbD_eq
  intro i hi
  simp only [BitVec.getLsbD_extractLsb', BitVec.getLsbD_append, hi, decide_true, Bool.true_and]
  split_ifs <;> first | omega | (congr 1; done) | (congr 1; omega)

@[simp] theorem sub_3_1_7_at_0_7 (p0 : BitVec 3) (p1 : BitVec 1) (p2 : BitVec 7) :
    BitVec.extractLsb' (n := 11) 0 7 (p0 ++ p1 ++ p2) = p2 := by
  apply BitVec.eq_of_getLsbD_eq
  intro i hi
  simp only [BitVec.getLsbD_extractLsb', BitVec.getLsbD_append, hi, decide_true, Bool.true_and]
  split_ifs <;> first | omega | (congr 1; done) | (congr 1; omega)

@[simp] theorem sub_3_1_7_at_7_1 (p0 : BitVec 3) (p1 : BitVec 1) (p2 : BitVec 7) :
    BitVec.extractLsb' (n := 11) 7 1 (p0 ++ p1 ++ p2) = p1 := by
  apply BitVec.eq_of_getLsbD_eq
  intro i hi
  simp only [BitVec.getLsbD_extractLsb', BitVec.getLsbD_append, hi, decide_true, Bool.true_and]
  split_ifs <;> first | omega | (congr 1; done) | (congr 1; omega)

@[simp] theorem sub_3_1_7_at_8_3 (p0 : BitVec 3) (p1 : BitVec 1) (p2 : BitVec 7) :
    BitVec.extractLsb' (n := 11) 8 3 (p0 ++ p1 ++ p2) = p0 := by
  apply BitVec.eq_of_getLsbD_eq
  intro i hi
  simp only [BitVec.getLsbD_extractLsb', BitVec.getLsbD_append, hi, decide_true, Bool.true_and]
  split_ifs <;> first | omega | (congr 1; done) | (congr 1; omega)

@[simp] theorem sub_3_4_2_2_at_0_2 (p0 : BitVec 3) (p1 : BitVec 4) (p2 : BitVec 2) (p3 : BitVec 2) :
    BitVec.extractLsb' (n := 11) 0 2 (p0 ++ p1 ++ p2 ++ p3) = p3 := by
  apply BitVec.eq_of_getLsbD_eq
  intro i hi
  simp only [BitVec.getLsbD_extractLsb', BitVec.getLsbD_append, hi, decide_true, Bool.true_and]
  split_ifs <;> first | omega | (congr 1; done) | (congr 1; omega)

@[simp] theorem sub_3_4_2_2_at_2_2 (p0 : BitVec 3) (p1 : BitVec 4) (p2 : BitVec 2) (p3 : BitVec 2) :
    BitVec.extractLsb' (n := 11) 2 2 (p0 ++ p1 ++ p2 ++ p3) = p2 := by
  apply BitVec.eq_of_getLsbD_eq
  intro i hi
  simp only [BitVec.getLsbD_extractLsb', BitVec.getLsbD_append, hi, decide_true, Bool.true_and]
  split_ifs <;> first | omega | (congr 1; done) | (congr 1; omega)

@[simp] theorem sub_3_4_2_2_at_4_4 (p0 : BitVec 3) (p1 : BitVec 4) (p2 : BitVec 2) (p3 : BitVec 2) :
    BitVec.extractLsb' (n := 11) 4 4 (p0 ++ p1 ++ p2 ++ p3) = p1 := by
  apply BitVec.eq_of_getLsbD_eq
  intro i hi
  simp only [BitVec.getLsbD_extractLsb', BitVec.getLsbD_append, hi, decide_true, Bool.true_and]
  split_ifs <;> first | omega | (congr 1; done) | (congr 1; omega)

@[simp] theorem sub_3_4_2_2_at_8_3 (p0 : BitVec 3) (p1 : BitVec 4) (p2 : BitVec 2) (p3 : BitVec 2) :
    BitVec.extractLsb' (n := 11) 8 3 (p0 ++ p1 ++ p2 ++ p3) = p0 := by
  apply BitVec.eq_of_getLsbD_eq
  intro i hi
  simp only [BitVec.getLsbD_extractLsb', BitVec.getLsbD_append, hi, decide_true, Bool.true_and]
  split_ifs <;> first | omega | (congr 1; done) | (congr 1; omega)

@[simp] theorem sub_3_6_2_at_0_2 (p0 : BitVec 3) (p1 : BitVec 6) (p2 : BitVec 2) :
    BitVec.extractLsb' (n := 11) 0 2 (p0 ++ p1 ++ p2) = p2 := by
  apply BitVec.eq_of_getLsbD_eq
  intro i hi
  simp only [BitVec.getLsbD_extractLsb', BitVec.getLsbD_append, hi, decide_true, Bool.true_and]
  split_ifs <;> first | omega | (congr 1; done) | (congr 1; omega)

@[simp] theorem sub_3_6_2_at_2_2 (p0 : BitVec 3) (p1 : BitVec 6) (p2 : BitVec 2) :
    BitVec.extractLsb' (n := 11) 2 2 (p0 ++ p1 ++ p2) = p1.extractLsb' 0 2 := by
  apply BitVec.eq_of_getLsbD_eq
  intro i hi
  simp only [BitVec.getLsbD_extractLsb', BitVec.getLsbD_append, hi, decide_true, Bool.true_and]
  split_ifs <;> first | omega | (congr 1; done) | (congr 1; omega)

@[simp] theorem sub_3_6_2_at_4_4 (p0 : BitVec 3) (p1 : BitVec 6) (p2 : BitVec 2) :
    BitVec.extractLsb' (n := 11) 4 4 (p0 ++ p1 ++ p2) = p1.extractLsb' 2 4 := by
  apply BitVec.eq_of_getLsbD_eq
  intro i hi
  simp only [BitVec.getLsbD_extractLsb', BitVec.getLsbD_append, hi, decide_true, Bool.true_and]
  split_ifs <;> first | omega | (congr 1; done) | (congr 1; omega)

@[simp] theorem sub_3_6_2_at_8_3 (p0 : BitVec 3) (p1 : BitVec 6) (p2 : BitVec 2) :
    BitVec.extractLsb' (n := 11) 8 3 (p0 ++ p1 ++ p2) = p0 := by
  apply BitVec.eq_of_getLsbD_eq
  intro i hi
  simp only [BitVec.getLsbD_extractLsb', BitVec.getLsbD_append, hi, decide_true, Bool.true_and]
  split_ifs <;> first | omega | (congr 1; done) | (congr 1; omega)

@[simp] theorem sub_3_8_at_0_2 (p0 : BitVec 3) (p1 : BitVec 8) :
    BitVec.extractLsb' (n := 11) 0 2 (p0 ++ p1) = p1.extractLsb' 0 2 := by
  apply BitVec.eq_of_getLsbD_eq
  intro i hi
  simp only [BitVec.getLsbD_extractLsb', BitVec.getLsbD_append, hi, decide_true, Bool.true_and]
  split_ifs <;> first | omega | (congr 1; done) | (congr 1; omega)

@[simp] theorem sub_3_8_at_0_7 (p0 : BitVec 3) (p1 : BitVec 8) :
    BitVec.extractLsb' (n := 11) 0 7 (p0 ++ p1) = p1.extractLsb' 0 7 := by
  apply BitVec.eq_of_getLsbD_eq
  intro i hi
  simp only [BitVec.getLsbD_extractLsb', BitVec.getLsbD_append, hi, decide_true, Bool.true_and]
  split_ifs <;> first | omega | (congr 1; done) | (congr 1; omega)

@[simp] theorem sub_3_8_at_2_2 (p0 : BitVec 3) (p1 : BitVec 8) :
    BitVec.extractLsb' (n := 11) 2 2 (p0 ++ p1) = p1.extractLsb' 2 2 := by
  apply BitVec.eq_of_getLsbD_eq
  intro i hi
  simp only [BitVec.getLsbD_extractLsb', BitVec.getLsbD_append, hi, decide_true, Bool.true_and]
  split_ifs <;> first | omega | (congr 1; done) | (congr 1; omega)

@[simp] theorem sub_3_8_at_4_4 (p0 : BitVec 3) (p1 : BitVec 8) :
    BitVec.extractLsb' (n := 11) 4 4 (p0 ++ p1) = p1.extractLsb' 4 4 := by
  apply BitVec.eq_of_getLsbD_eq
  intro i hi
  simp only [BitVec.getLsbD_extractLsb', BitVec.getLsbD_append, hi, decide_true, Bool.true_and]
  split_ifs <;> first | omega | (congr 1; done) | (congr 1; omega)

@[simp] theorem sub_3_8_at_7_1 (p0 : BitVec 3) (p1 : BitVec 8) :
    BitVec.extractLsb' (n := 11) 7 1 (p0 ++ p1) = p1.extractLsb' 7 1 := by
  apply BitVec.eq_of_getLsbD_eq
  intro i hi
  simp only [BitVec.getLsbD_extractLsb', BitVec.getLsbD_append, hi, decide_true, Bool.true_and]
  split_ifs <;> first | omega | (congr 1; done) | (congr 1; omega)

@[simp] theorem sub_3_8_at_8_3 (p0 : BitVec 3) (p1 : BitVec 8) :
    BitVec.extractLsb' (n := 11) 8 3 (p0 ++ p1) = p0 := by
  apply BitVec.eq_of_getLsbD_eq
  intro i hi
  simp only [BitVec.getLsbD_extractLsb', BitVec.getLsbD_append, hi, decide_true, Bool.true_and]
  split_ifs <;> first | omega | (congr 1; done) | (congr 1; omega)

@[simp] theorem sub_4_5_2_at_0_2 (p0 : BitVec 4) (p1 : BitVec 5) (p2 : BitVec 2) :
    BitVec.extractLsb' (n := 11) 0 2 (p0 ++ p1 ++ p2) = p2 := by
  apply BitVec.eq_of_getLsbD_eq
  intro i hi
  simp only [BitVec.getLsbD_extractLsb', BitVec.getLsbD_append, hi, decide_true, Bool.true_and]
  split_ifs <;> first | omega | (congr 1; done) | (congr 1; omega)

@[simp] theorem sub_4_5_2_at_2_5 (p0 : BitVec 4) (p1 : BitVec 5) (p2 : BitVec 2) :
    BitVec.extractLsb' (n := 11) 2 5 (p0 ++ p1 ++ p2) = p1 := by
  apply BitVec.eq_of_getLsbD_eq
  intro i hi
  simp only [BitVec.getLsbD_extractLsb', BitVec.getLsbD_append, hi, decide_true, Bool.true_and]
  split_ifs <;> first | omega | (congr 1; done) | (congr 1; omega)

@[simp] theorem sub_4_5_2_at_7_1 (p0 : BitVec 4) (p1 : BitVec 5) (p2 : BitVec 2) :
    BitVec.extractLsb' (n := 11) 7 1 (p0 ++ p1 ++ p2) = p0.extractLsb' 0 1 := by
  apply BitVec.eq_of_getLsbD_eq
  intro i hi
  simp only [BitVec.getLsbD_extractLsb', BitVec.getLsbD_append, hi, decide_true, Bool.true_and]
  split_ifs <;> first | omega | (congr 1; done) | (congr 1; omega)

@[simp] theorem sub_4_5_2_at_8_3 (p0 : BitVec 4) (p1 : BitVec 5) (p2 : BitVec 2) :
    BitVec.extractLsb' (n := 11) 8 3 (p0 ++ p1 ++ p2) = p0.extractLsb' 1 3 := by
  apply BitVec.eq_of_getLsbD_eq
  intro i hi
  simp only [BitVec.getLsbD_extractLsb', BitVec.getLsbD_append, hi, decide_true, Bool.true_and]
  split_ifs <;> first | omega | (congr 1; done) | (congr 1; omega)

@[simp] theorem sub_8_1_2_at_0_2 (p0 : BitVec 8) (p1 : BitVec 1) (p2 : BitVec 2) :
    BitVec.extractLsb' (n := 11) 0 2 (p0 ++ p1 ++ p2) = p2 := by
  apply BitVec.eq_of_getLsbD_eq
  intro i hi
  simp only [BitVec.getLsbD_extractLsb', BitVec.getLsbD_append, hi, decide_true, Bool.true_and]
  split_ifs <;> first | omega | (congr 1; done) | (congr 1; omega)

@[simp] theorem sub_8_1_2_at_2_1 (p0 : BitVec 8) (p1 : BitVec 1) (p2 : BitVec 2) :
    BitVec.extractLsb' (n := 11) 2 1 (p0 ++ p1 ++ p2) = p1 := by
  apply BitVec.eq_of_getLsbD_eq
  intro i hi
  simp only [BitVec.getLsbD_extractLsb', BitVec.getLsbD_append, hi, decide_true, Bool.true_and]
  split_ifs <;> first | omega | (congr 1; done) | (congr 1; omega)

@[simp] theorem sub_8_1_2_at_3_1 (p0 : BitVec 8) (p1 : BitVec 1) (p2 : BitVec 2) :
    BitVec.extractLsb' (n := 11) 3 1 (p0 ++ p1 ++ p2) = p0.extractLsb' 0 1 := by
  apply BitVec.eq_of_getLsbD_eq
  intro i hi
  simp only [BitVec.getLsbD_extractLsb', BitVec.getLsbD_append, hi, decide_true, Bool.true_and]
  split_ifs <;> first | omega | (congr 1; done) | (congr 1; omega)

@[simp] theorem sub_8_1_2_at_4_5 (p0 : BitVec 8) (p1 : BitVec 1) (p2 : BitVec 2) :
    BitVec.extractLsb' (n := 11) 4 5 (p0 ++ p1 ++ p2) = p0.extractLsb' 1 5 := by
  apply BitVec.eq_of_getLsbD_eq
  intro i hi
  simp only [BitVec.getLsbD_extractLsb', BitVec.getLsbD_append, hi, decide_true, Bool.true_and]
  split_ifs <;> first | omega | (congr 1; done) | (congr 1; omega)

@[simp] theorem sub_8_1_2_at_9_2 (p0 : BitVec 8) (p1 : BitVec 1) (p2 : BitVec 2) :
    BitVec.extractLsb' (n := 11) 9 2 (p0 ++ p1 ++ p2) = p0.extractLsb' 6 2 := by
  apply BitVec.eq_of_getLsbD_eq
  intro i hi
  simp only [BitVec.getLsbD_extractLsb', BitVec.getLsbD_append, hi, decide_true, Bool.true_and]
  split_ifs <;> first | omega | (congr 1; done) | (congr 1; omega)

@[simp] theorem sub_9_2_at_0_2 (p0 : BitVec 9) (p1 : BitVec 2) :
    BitVec.extractLsb' (n := 11) 0 2 (p0 ++ p1) = p1 := by
  apply BitVec.eq_of_getLsbD_eq
  intro i hi
  simp only [BitVec.getLsbD_extractLsb', BitVec.getLsbD_append, hi, decide_true, Bool.true_and]
  split_ifs <;> first | omega | (congr 1; done) | (congr 1; omega)

@[simp] theorem sub_9_2_at_2_2 (p0 : BitVec 9) (p1 : BitVec 2) :
    BitVec.extractLsb' (n := 11) 2 2 (p0 ++ p1) = p0.extractLsb' 0 2 := by
  apply BitVec.eq_of_getLsbD_eq
  intro i hi
  simp only [BitVec.getLsbD_extractLsb', BitVec.getLsbD_append, hi, decide_true, Bool.true_and]
  split_ifs <;> first | omega | (congr 1; done) | (congr 1; omega)

@[simp] theorem sub_9_2_at_2_6 (p0 : BitVec 9) (p1 : BitVec 2) :
    BitVec.extractLsb' (n := 11) 2 6 (p0 ++ p1) = p0.extractLsb' 0 6 := by
  apply BitVec.eq_of_getLsbD_eq
  intro i hi
  simp only [BitVec.getLsbD_extractLsb', BitVec.getLsbD_append, hi, decide_true, Bool.true_and]
  split_ifs <;> first | omega | (congr 1; done) | (congr 1; omega)

@[simp] theorem sub_9_2_at_4_5 (p0 : BitVec 9) (p1 : BitVec 2) :
    BitVec.extractLsb' (n := 11) 4 5 (p0 ++ p1) = p0.extractLsb' 2 5 := by
  apply BitVec.eq_of_getLsbD_eq
  intro i hi
  simp only [BitVec.getLsbD_extractLsb', BitVec.getLsbD_append, hi, decide_true, Bool.true_and]
  split_ifs <;> first | omega | (congr 1; done) | (congr 1; omega)

@[simp] theorem sub_9_2_at_8_3 (p0 : BitVec 9) (p1 : BitVec 2) :
    BitVec.extractLsb' (n := 11) 8 3 (p0 ++ p1) = p0.extractLsb' 6 3 := by
  apply BitVec.eq_of_getLsbD_eq
  intro i hi
  simp only [BitVec.getLsbD_extractLsb', BitVec.getLsbD_append, hi, decide_true, Bool.true_and]
  split_ifs <;> first | omega | (congr 1; done) | (congr 1; omega)

@[simp] theorem sub_9_2_at_9_2 (p0 : BitVec 9) (p1 : BitVec 2) :
    BitVec.extractLsb' (n := 11) 9 2 (p0 ++ p1) = p0.extractLsb' 7 2 := by
  apply BitVec.eq_of_getLsbD_eq
  intro i hi
  simp only [BitVec.getLsbD_extractLsb', BitVec.getLsbD_append, hi, decide_true, Bool.true_and]
  split_ifs <;> first | omega | (congr 1; done) | (congr 1; omega)

@[simp] theorem sub_10_1_at_0_1 (p0 : BitVec 10) (p1 : BitVec 1) :
    BitVec.extractLsb' (n := 11) 0 1 (p0 ++ p1) = p1 := by
  apply BitVec.eq_of_getLsbD_eq
  intro i hi
  simp only [BitVec.getLsbD_extractLsb', BitVec.getLsbD_append, hi, decide_true, Bool.true_and]
  split_ifs <;> first | omega | (congr 1; done) | (congr 1; omega)

@[simp] theorem sub_10_1_at_1_3 (p0 : BitVec 10) (p1 : BitVec 1) :
    BitVec.extractLsb' (n := 11) 1 3 (p0 ++ p1) = p0.extractLsb' 0 3 := by
  apply BitVec.eq_of_getLsbD_eq
  intro i hi
  simp only [BitVec.getLsbD_extractLsb', BitVec.getLsbD_append, hi, decide_true, Bool.true_and]
  split_ifs <;> first | omega | (congr 1; done) | (congr 1; omega)

@[simp] theorem sub_10_1_at_4_5 (p0 : BitVec 10) (p1 : BitVec 1) :
    BitVec.extractLsb' (n := 11) 4 5 (p0 ++ p1) = p0.extractLsb' 3 5 := by
  apply BitVec.eq_of_getLsbD_eq
  intro i hi
  simp only [BitVec.getLsbD_extractLsb', BitVec.getLsbD_append, hi, decide_true, Bool.true_and]
  split_ifs <;> first | omega | (congr 1; done) | (congr 1; omega)

@[simp] theorem sub_10_1_at_9_2 (p0 : BitVec 10) (p1 : BitVec 1) :
    BitVec.extractLsb' (n := 11) 9 2 (p0 ++ p1) = p0.extractLsb' 8 2 := by
  apply BitVec.eq_of_getLsbD_eq
  intro i hi
  simp only [BitVec.getLsbD_extractLsb', BitVec.getLsbD_append, hi, decide_true, Bool.true_and]
  split_ifs <;> first | omega | (congr 1; done) | (congr 1; omega)

@[simp] theorem sub_2_8_6_at_0_6 (p0 : BitVec 2) (p1 : BitVec 8) (p2 : BitVec 6) :
    BitVec.extractLsb' (n := 16) 0 6 (p0 ++ p1 ++ p2) = p2 := by
  apply BitVec.eq_of_getLsbD_eq
  intro i hi
  simp only [BitVec.getLsbD_extractLsb', BitVec.getLsbD_append, hi, decide_true, Bool.true_and]
  split_ifs <;> first | omega | (congr 1; done) | (congr 1; omega)

@[simp] theorem sub_2_8_6_at_6_8 (p0 : BitVec 2) (p1 : BitVec 8) (p2 : BitVec 6) :
    BitVec.extractLsb' (n := 16) 6 8 (p0 ++ p1 ++ p2) = p1 := by
  apply BitVec.eq_of_getLsbD_eq
  intro i hi
  simp only [BitVec.getLsbD_extractLsb', BitVec.getLsbD_append, hi, decide_true, Bool.true_and]
  split_ifs <;> first | omega | (congr 1; done) | (congr 1; omega)

@[simp] theorem sub_2_8_6_at_14_2 (p0 : BitVec 2) (p1 : BitVec 8) (p2 : BitVec 6) :
    BitVec.extractLsb' (n := 16) 14 2 (p0 ++ p1 ++ p2) = p0 := by
  apply BitVec.eq_of_getLsbD_eq
  intro i hi
  simp only [BitVec.getLsbD_extractLsb', BitVec.getLsbD_append, hi, decide_true, Bool.true_and]
  split_ifs <;> first | omega | (congr 1; done) | (congr 1; omega)

@[simp] theorem sub_3_1_12_at_0_12 (p0 : BitVec 3) (p1 : BitVec 1) (p2 : BitVec 12) :
    BitVec.extractLsb' (n := 16) 0 12 (p0 ++ p1 ++ p2) = p2 := by
  apply BitVec.eq_of_getLsbD_eq
  intro i hi
  simp only [BitVec.getLsbD_extractLsb', BitVec.getLsbD_append, hi, decide_true, Bool.true_and]
  split_ifs <;> first | omega | (congr 1; done) | (congr 1; omega)

@[simp] theorem sub_3_1_12_at_12_1 (p0 : BitVec 3) (p1 : BitVec 1) (p2 : BitVec 12) :
    BitVec.extractLsb' (n := 16) 12 1 (p0 ++ p1 ++ p2) = p1 := by
  apply BitVec.eq_of_getLsbD_eq
  intro i hi
  simp only [BitVec.getLsbD_extractLsb', BitVec.getLsbD_append, hi, decide_true, Bool.true_and]
  split_ifs <;> first | omega | (congr 1; done) | (congr 1; omega)

@[simp] theorem sub_3_1_12_at_13_3 (p0 : BitVec 3) (p1 : BitVec 1) (p2 : BitVec 12) :
    BitVec.extractLsb' (n := 16) 13 3 (p0 ++ p1 ++ p2) = p0 := by
  apply BitVec.eq_of_getLsbD_eq
  intro i hi
  simp only [BitVec.getLsbD_extractLsb', BitVec.getLsbD_append, hi, decide_true, Bool.true_and]
  split_ifs <;> first | omega | (congr 1; done) | (congr 1; omega)

@[simp] theorem sub_10_6_at_0_6 (p0 : BitVec 10) (p1 : BitVec 6) :
    BitVec.extractLsb' (n := 16) 0 6 (p0 ++ p1) = p1 := by
  apply BitVec.eq_of_getLsbD_eq
  intro i hi
  simp only [BitVec.getLsbD_extractLsb', BitVec.getLsbD_append, hi, decide_true, Bool.true_and]
  split_ifs <;> first | omega | (congr 1; done) | (congr 1; omega)

@[simp] theorem sub_10_6_at_6_8 (p0 : BitVec 10) (p1 : BitVec 6) :
    BitVec.extractLsb' (n := 16) 6 8 (p0 ++ p1) = p0.extractLsb' 0 8 := by
  apply BitVec.eq_of_getLsbD_eq
  intro i hi
  simp only [BitVec.getLsbD_extractLsb', BitVec.getLsbD_append, hi, decide_true, Bool.true_and]
  split_ifs <;> first | omega | (congr 1; done) | (congr 1; omega)

@[simp] theorem sub_10_6_at_14_2 (p0 : BitVec 10) (p1 : BitVec 6) :
    BitVec.extractLsb' (n := 16) 14 2 (p0 ++ p1) = p0.extractLsb' 8 2 := by
  apply BitVec.eq_of_getLsbD_eq
  intro i hi
  simp only [BitVec.getLsbD_extractLsb', BitVec.getLsbD_append, hi, decide_true, Bool.true_and]
  split_ifs <;> first | omega | (congr 1; done) | (congr 1; omega)

theorem decodeRaw_1 (a b c : BitVec 5) (f : BitVec 11) : decodeRaw (encO 1#6 a b c f) = decode01 a b c f := by
  simp only [decodeRaw, encO_major, encO_a, encO_b, encO_c, encO_f]
  rfl

theorem decodeRaw_2 (a b : BitVec 5) (i : BitVec 16) : decodeRaw (encI 2#6 a b i) = some (.addi a b i) := by
  simp only [decodeRaw, encI_major, encI_a, encI_b, encI_imm]
  rfl

theorem decodeRaw_3 (a b : BitVec 5) (i : BitVec 16) : decodeRaw (encI 3#6 a b i) = some (.andi a b i) := by
  simp only [decodeRaw, encI_major, encI_a, encI_b, encI_imm]
  rfl

theorem decodeRaw_4 (a b : BitVec 5) (i : BitVec 16) : decodeRaw (encI 4#6 a b i) = some (.ori a b i) := by
  simp only [decodeRaw, encI_major, encI_a, encI_b, encI_imm]
  rfl

theorem decodeRaw_5 (a b : BitVec 5) (i : BitVec 16) : decodeRaw (encI 5#6 a b i) = some (.xori a b i) := by
  simp only [decodeRaw, encI_major, encI_a, encI_b, encI_imm]
  rfl

theorem decodeRaw_6 (a b : BitVec 5) (i : BitVec 16) : decodeRaw (encI 6#6 a b i) = some (.slti a b i) := by
  simp only [decodeRaw, encI_major, encI_a, encI_b, encI_imm]
  rfl

theorem decodeRaw_7 (a b : BitVec 5) (i : BitVec 16) : decodeRaw (encI 7#6 a b i) = some (.sltiu a b i) := by
  simp only [decodeRaw, encI_major, encI_a, encI_b, encI_imm]
  rfl

theorem decodeRaw_8 (a b : BitVec 5) (i : BitVec 16) : decodeRaw (encI 8#6 a b i) = decode08 a b i := by
  simp only [decodeRaw, encI_major, encI_a, encI_b, encI_imm]
  rfl

theorem decodeRaw_9 (a b : BitVec 5) (i : BitVec 16) : decodeRaw (encI 9#6 a b i) = if b.extractLsb' 2 3 == 0#3 then some (.lih a (b.extractLsb' 0 2) i) else none := by
  simp only [decodeRaw, encI_major, encI_a, encI_b, encI_imm]
  rfl

theorem decodeRaw_10 (a b c : BitVec 5) (f : BitVec 11) : decodeRaw (encO 10#6 a b c f) = decode0A a b c f := by
  simp only [decodeRaw, encO_major, encO_a, encO_b, encO_c, encO_f]
  rfl

theorem decodeRaw_12 (a b c : BitVec 5) (f : BitVec 11) : decodeRaw (encO 12#6 a b c f) = decode0C a b c f := by
  simp only [decodeRaw, encO_major, encO_a, encO_b, encO_c, encO_f]
  rfl

theorem decodeRaw_16 (a b : BitVec 5) (i : BitVec 16) : decodeRaw (encI 16#6 a b i) = some (.beq a b i) := by
  simp only [decodeRaw, encI_major, encI_a, encI_b, encI_imm]
  rfl

theorem decodeRaw_17 (a b : BitVec 5) (i : BitVec 16) : decodeRaw (encI 17#6 a b i) = some (.bne a b i) := by
  simp only [decodeRaw, encI_major, encI_a, encI_b, encI_imm]
  rfl

theorem decodeRaw_18 (a b : BitVec 5) (i : BitVec 16) : decodeRaw (encI 18#6 a b i) = some (.blt a b i) := by
  simp only [decodeRaw, encI_major, encI_a, encI_b, encI_imm]
  rfl

theorem decodeRaw_19 (a b : BitVec 5) (i : BitVec 16) : decodeRaw (encI 19#6 a b i) = some (.bge a b i) := by
  simp only [decodeRaw, encI_major, encI_a, encI_b, encI_imm]
  rfl

theorem decodeRaw_20 (a b : BitVec 5) (i : BitVec 16) : decodeRaw (encI 20#6 a b i) = some (.bltu a b i) := by
  simp only [decodeRaw, encI_major, encI_a, encI_b, encI_imm]
  rfl

theorem decodeRaw_21 (a b : BitVec 5) (i : BitVec 16) : decodeRaw (encI 21#6 a b i) = some (.bgeu a b i) := by
  simp only [decodeRaw, encI_major, encI_a, encI_b, encI_imm]
  rfl

theorem decodeRaw_22 (a b : BitVec 5) (i : BitVec 16) : decodeRaw (encI 22#6 a b i) = if a.extractLsb' 3 2 == 0#2 && b.extractLsb' 1 4 == 0#4 then some (.bp (a.extractLsb' 0 3) (b.extractLsb' 0 1) i) else none := by
  simp only [decodeRaw, encI_major, encI_a, encI_b, encI_imm]
  rfl

theorem decodeRaw_23 (o : BitVec 26) : decodeRaw (encJ 23#6 o) = some (.j o) := by
  simp only [decodeRaw, encJ_major, encJ_off]
  rfl

theorem decodeRaw_24 (o : BitVec 26) : decodeRaw (encJ 24#6 o) = some (.jal o) := by
  simp only [decodeRaw, encJ_major, encJ_off]
  rfl

theorem decodeRaw_25 (a b : BitVec 5) (i : BitVec 16) : decodeRaw (encI 25#6 a b i) = some (.jalr a b i) := by
  simp only [decodeRaw, encI_major, encI_a, encI_b, encI_imm]
  rfl

theorem decodeRaw_26 (a b : BitVec 5) (i : BitVec 16) : decodeRaw (encI 26#6 a b i) = decode1A a b i := by
  simp only [decodeRaw, encI_major, encI_a, encI_b, encI_imm]
  rfl

theorem decodeRaw_27 (a b : BitVec 5) (i : BitVec 16) : decodeRaw (encI 27#6 a b i) = decode1B a b i := by
  simp only [decodeRaw, encI_major, encI_a, encI_b, encI_imm]
  rfl

theorem decodeRaw_28 (a b c : BitVec 5) (f : BitVec 11) : decodeRaw (encO 28#6 a b c f) = decode1C a b c f := by
  simp only [decodeRaw, encO_major, encO_a, encO_b, encO_c, encO_f]
  rfl

theorem decodeRaw_29 (a b c : BitVec 5) (f : BitVec 11) : decodeRaw (encO 29#6 a b c f) = decode1D a b c f := by
  simp only [decodeRaw, encO_major, encO_a, encO_b, encO_c, encO_f]
  rfl

theorem decodeRaw_30 (a b c : BitVec 5) (f : BitVec 11) : decodeRaw (encO 30#6 a b c f) = decode1E a b c f := by
  simp only [decodeRaw, encO_major, encO_a, encO_b, encO_c, encO_f]
  rfl

theorem decodeRaw_31 (a b c : BitVec 5) (f : BitVec 11) : decodeRaw (encO 31#6 a b c f) = decode1F a b c f := by
  simp only [decodeRaw, encO_major, encO_a, encO_b, encO_c, encO_f]
  rfl

theorem decodeRaw_32 (a b c : BitVec 5) (f : BitVec 11) : decodeRaw (encO 32#6 a b c f) = decode20 a b c f := by
  simp only [decodeRaw, encO_major, encO_a, encO_b, encO_c, encO_f]
  rfl

theorem decodeRaw_33 (a b c : BitVec 5) (f : BitVec 11) : decodeRaw (encO 33#6 a b c f) = decode21 a b c f := by
  simp only [decodeRaw, encO_major, encO_a, encO_b, encO_c, encO_f]
  rfl

theorem decodeRaw_34 (a b c : BitVec 5) (f : BitVec 11) : decodeRaw (encO 34#6 a b c f) = decode22 a b c f := by
  simp only [decodeRaw, encO_major, encO_a, encO_b, encO_c, encO_f]
  rfl

theorem decodeRaw_40 (a b c : BitVec 5) (f : BitVec 11) : decodeRaw (encO 40#6 a b c f) = decode28 a b c f := by
  simp only [decodeRaw, encO_major, encO_a, encO_b, encO_c, encO_f]
  rfl

theorem decodeRaw_41 (a b c : BitVec 5) (f : BitVec 11) : decodeRaw (encO 41#6 a b c f) = decode29 a b c f := by
  simp only [decodeRaw, encO_major, encO_a, encO_b, encO_c, encO_f]
  rfl

theorem decodeRaw_42 (a b c : BitVec 5) (f : BitVec 11) : decodeRaw (encO 42#6 a b c f) = decode2A a b c f := by
  simp only [decodeRaw, encO_major, encO_a, encO_b, encO_c, encO_f]
  rfl

theorem decodeRaw_43 (a b c : BitVec 5) (f : BitVec 11) : decodeRaw (encO 43#6 a b c f) = decode2B a b c f := by
  simp only [decodeRaw, encO_major, encO_a, encO_b, encO_c, encO_f]
  rfl

theorem decodeRaw_44 (a b c : BitVec 5) (f : BitVec 11) : decodeRaw (encO 44#6 a b c f) = decode2C a b c f := by
  simp only [decodeRaw, encO_major, encO_a, encO_b, encO_c, encO_f]
  rfl

theorem decodeRaw_45 (a b c : BitVec 5) (f : BitVec 11) : decodeRaw (encO 45#6 a b c f) = decode2D a b c f := by
  simp only [decodeRaw, encO_major, encO_a, encO_b, encO_c, encO_f]
  rfl

theorem decodeRaw_46 (a b c : BitVec 5) (f : BitVec 11) : decodeRaw (encO 46#6 a b c f) = decode2E a b c f := by
  simp only [decodeRaw, encO_major, encO_a, encO_b, encO_c, encO_f]
  rfl

theorem decodeRaw_48 (a b c : BitVec 5) (f : BitVec 11) : decodeRaw (encO 48#6 a b c f) = decode30 a b c f := by
  simp only [decodeRaw, encO_major, encO_a, encO_b, encO_c, encO_f]
  rfl

theorem decodeRaw_49 (a b c : BitVec 5) (f : BitVec 11) : decodeRaw (encO 49#6 a b c f) = decode31 a b c f := by
  simp only [decodeRaw, encO_major, encO_a, encO_b, encO_c, encO_f]
  rfl

theorem decodeRaw_50 (a b c : BitVec 5) (f : BitVec 11) : decodeRaw (encO 50#6 a b c f) = decode32 a b c f := by
  simp only [decodeRaw, encO_major, encO_a, encO_b, encO_c, encO_f]
  rfl

theorem decodeRaw_63 (a b c : BitVec 5) (f : BitVec 11) : decodeRaw (encO 63#6 a b c f) = if c == 0#5 && f == 0#11 then some (.pfx (a.extractLsb' 2 3) (a.extractLsb' 1 1) (a.extractLsb' 0 1) b) else none := by
  simp only [decodeRaw, encO_major, encO_a, encO_b, encO_c, encO_f]
  rfl

@[simp] theorem maskOf_maskBits (mk : VMask) : maskOf (maskBits mk) = some mk := by
  cases mk with
  | none => rfl
  | some m => revert m; decide

@[simp] theorem maskOf4_maskBits4 (mk : VMask) : maskOf4 (maskBits4 mk) = some mk := by
  cases mk with
  | none => rfl
  | some m => revert m; decide

end Sys2Proof
end

