-- ==== Sys2Proof/Laws/PerInstr.lean ====
section
/-! SUPPORT. Sys2Proof/Laws/PerInstr.lean: what is said of every instruction as syntax, one lemma per constructor. RoundTrip: the word that encode lays out for a well-formed instruction decodes to that instruction; a step without a word has none. -/

namespace Sys2Proof.Laws

-- The package is also compiled as one text, where a thread for each small theorem is more than there is room for.
set_option Elab.async false

/-- Decoding the word of a well-formed instruction gives the instruction back, with every operand (R31 to R49). -/
def RoundTrip.Statement (i : Instr) : Prop := i.wf = true → ∀ w : Insn, encode i = some w → decode w = some i

theorem RoundTrip.add (rd : XReg) (rs1 : XReg) (rs2 : XReg) : RoundTrip.Statement (.add rd rs1 rs2) := by
  intro h w hw
  cases hw
  rw [decode, decodeRaw_1]
  simp [decode01, Option.filter, h]
theorem RoundTrip.sub (rd : XReg) (rs1 : XReg) (rs2 : XReg) : RoundTrip.Statement (.sub rd rs1 rs2) := by
  intro h w hw
  cases hw
  rw [decode, decodeRaw_1]
  simp [decode01, Option.filter, h]
theorem RoundTrip.and (rd : XReg) (rs1 : XReg) (rs2 : XReg) : RoundTrip.Statement (.and rd rs1 rs2) := by
  intro h w hw
  cases hw
  rw [decode, decodeRaw_1]
  simp [decode01, Option.filter, h]
theorem RoundTrip.or (rd : XReg) (rs1 : XReg) (rs2 : XReg) : RoundTrip.Statement (.or rd rs1 rs2) := by
  intro h w hw
  cases hw
  rw [decode, decodeRaw_1]
  simp [decode01, Option.filter, h]
theorem RoundTrip.xor (rd : XReg) (rs1 : XReg) (rs2 : XReg) : RoundTrip.Statement (.xor rd rs1 rs2) := by
  intro h w hw
  cases hw
  rw [decode, decodeRaw_1]
  simp [decode01, Option.filter, h]
theorem RoundTrip.andn (rd : XReg) (rs1 : XReg) (rs2 : XReg) : RoundTrip.Statement (.andn rd rs1 rs2) := by
  intro h w hw
  cases hw
  rw [decode, decodeRaw_1]
  simp [decode01, Option.filter, h]
theorem RoundTrip.orn (rd : XReg) (rs1 : XReg) (rs2 : XReg) : RoundTrip.Statement (.orn rd rs1 rs2) := by
  intro h w hw
  cases hw
  rw [decode, decodeRaw_1]
  simp [decode01, Option.filter, h]
theorem RoundTrip.sll (rd : XReg) (rs1 : XReg) (rs2 : XReg) : RoundTrip.Statement (.sll rd rs1 rs2) := by
  intro h w hw
  cases hw
  rw [decode, decodeRaw_1]
  simp [decode01, Option.filter, h]
theorem RoundTrip.srl (rd : XReg) (rs1 : XReg) (rs2 : XReg) : RoundTrip.Statement (.srl rd rs1 rs2) := by
  intro h w hw
  cases hw
  rw [decode, decodeRaw_1]
  simp [decode01, Option.filter, h]
theorem RoundTrip.sra (rd : XReg) (rs1 : XReg) (rs2 : XReg) : RoundTrip.Statement (.sra rd rs1 rs2) := by
  intro h w hw
  cases hw
  rw [decode, decodeRaw_1]
  simp [decode01, Option.filter, h]
theorem RoundTrip.rol (rd : XReg) (rs1 : XReg) (rs2 : XReg) : RoundTrip.Statement (.rol rd rs1 rs2) := by
  intro h w hw
  cases hw
  rw [decode, decodeRaw_1]
  simp [decode01, Option.filter, h]
theorem RoundTrip.ror (rd : XReg) (rs1 : XReg) (rs2 : XReg) : RoundTrip.Statement (.ror rd rs1 rs2) := by
  intro h w hw
  cases hw
  rw [decode, decodeRaw_1]
  simp [decode01, Option.filter, h]
theorem RoundTrip.slt (rd : XReg) (rs1 : XReg) (rs2 : XReg) : RoundTrip.Statement (.slt rd rs1 rs2) := by
  intro h w hw
  cases hw
  rw [decode, decodeRaw_1]
  simp [decode01, Option.filter, h]
theorem RoundTrip.sltu (rd : XReg) (rs1 : XReg) (rs2 : XReg) : RoundTrip.Statement (.sltu rd rs1 rs2) := by
  intro h w hw
  cases hw
  rw [decode, decodeRaw_1]
  simp [decode01, Option.filter, h]
theorem RoundTrip.min (rd : XReg) (rs1 : XReg) (rs2 : XReg) : RoundTrip.Statement (.min rd rs1 rs2) := by
  intro h w hw
  cases hw
  rw [decode, decodeRaw_1]
  simp [decode01, Option.filter, h]
theorem RoundTrip.max (rd : XReg) (rs1 : XReg) (rs2 : XReg) : RoundTrip.Statement (.max rd rs1 rs2) := by
  intro h w hw
  cases hw
  rw [decode, decodeRaw_1]
  simp [decode01, Option.filter, h]
theorem RoundTrip.minu (rd : XReg) (rs1 : XReg) (rs2 : XReg) : RoundTrip.Statement (.minu rd rs1 rs2) := by
  intro h w hw
  cases hw
  rw [decode, decodeRaw_1]
  simp [decode01, Option.filter, h]
theorem RoundTrip.maxu (rd : XReg) (rs1 : XReg) (rs2 : XReg) : RoundTrip.Statement (.maxu rd rs1 rs2) := by
  intro h w hw
  cases hw
  rw [decode, decodeRaw_1]
  simp [decode01, Option.filter, h]
theorem RoundTrip.clz (rd : XReg) (rs1 : XReg) : RoundTrip.Statement (.clz rd rs1) := by
  intro h w hw
  cases hw
  rw [decode, decodeRaw_1]
  simp [decode01, Option.filter, h]
theorem RoundTrip.ctz (rd : XReg) (rs1 : XReg) : RoundTrip.Statement (.ctz rd rs1) := by
  intro h w hw
  cases hw
  rw [decode, decodeRaw_1]
  simp [decode01, Option.filter, h]
theorem RoundTrip.popc (rd : XReg) (rs1 : XReg) : RoundTrip.Statement (.popc rd rs1) := by
  intro h w hw
  cases hw
  rw [decode, decodeRaw_1]
  simp [decode01, Option.filter, h]
theorem RoundTrip.sextB (rd : XReg) (rs1 : XReg) : RoundTrip.Statement (.sextB rd rs1) := by
  intro h w hw
  cases hw
  rw [decode, decodeRaw_1]
  simp [decode01, Option.filter, h]
theorem RoundTrip.sextH (rd : XReg) (rs1 : XReg) : RoundTrip.Statement (.sextH rd rs1) := by
  intro h w hw
  cases hw
  rw [decode, decodeRaw_1]
  simp [decode01, Option.filter, h]
theorem RoundTrip.sextW (rd : XReg) (rs1 : XReg) : RoundTrip.Statement (.sextW rd rs1) := by
  intro h w hw
  cases hw
  rw [decode, decodeRaw_1]
  simp [decode01, Option.filter, h]
theorem RoundTrip.zextW (rd : XReg) (rs1 : XReg) : RoundTrip.Statement (.zextW rd rs1) := by
  intro h w hw
  cases hw
  rw [decode, decodeRaw_1]
  simp [decode01, Option.filter, h]
theorem RoundTrip.mul (rd : XReg) (rs1 : XReg) (rs2 : XReg) : RoundTrip.Statement (.mul rd rs1 rs2) := by
  intro h w hw
  cases hw
  rw [decode, decodeRaw_1]
  simp [decode01, Option.filter, h]
theorem RoundTrip.mulhSs (rd : XReg) (rs1 : XReg) (rs2 : XReg) : RoundTrip.Statement (.mulhSs rd rs1 rs2) := by
  intro h w hw
  cases hw
  rw [decode, decodeRaw_1]
  simp [decode01, Option.filter, h]
theorem RoundTrip.mulhUu (rd : XReg) (rs1 : XReg) (rs2 : XReg) : RoundTrip.Statement (.mulhUu rd rs1 rs2) := by
  intro h w hw
  cases hw
  rw [decode, decodeRaw_1]
  simp [decode01, Option.filter, h]
theorem RoundTrip.mulhUs (rd : XReg) (rs1 : XReg) (rs2 : XReg) : RoundTrip.Statement (.mulhUs rd rs1 rs2) := by
  intro h w hw
  cases hw
  rw [decode, decodeRaw_1]
  simp [decode01, Option.filter, h]
theorem RoundTrip.divs (rd : XReg) (rs1 : XReg) (rs2 : XReg) : RoundTrip.Statement (.divs rd rs1 rs2) := by
  intro h w hw
  cases hw
  rw [decode, decodeRaw_1]
  simp [decode01, Option.filter, h]
theorem RoundTrip.divu (rd : XReg) (rs1 : XReg) (rs2 : XReg) : RoundTrip.Statement (.divu rd rs1 rs2) := by
  intro h w hw
  cases hw
  rw [decode, decodeRaw_1]
  simp [decode01, Option.filter, h]
theorem RoundTrip.rems (rd : XReg) (rs1 : XReg) (rs2 : XReg) : RoundTrip.Statement (.rems rd rs1 rs2) := by
  intro h w hw
  cases hw
  rw [decode, decodeRaw_1]
  simp [decode01, Option.filter, h]
theorem RoundTrip.remu (rd : XReg) (rs1 : XReg) (rs2 : XReg) : RoundTrip.Statement (.remu rd rs1 rs2) := by
  intro h w hw
  cases hw
  rw [decode, decodeRaw_1]
  simp [decode01, Option.filter, h]
theorem RoundTrip.addi (rd : XReg) (rs1 : XReg) (imm : BitVec 16) : RoundTrip.Statement (.addi rd rs1 imm) := by
  intro h w hw
  cases hw
  rw [decode, decodeRaw_2]
  simp [Option.filter, h]
theorem RoundTrip.andi (rd : XReg) (rs1 : XReg) (imm : BitVec 16) : RoundTrip.Statement (.andi rd rs1 imm) := by
  intro h w hw
  cases hw
  rw [decode, decodeRaw_3]
  simp [Option.filter, h]
theorem RoundTrip.ori (rd : XReg) (rs1 : XReg) (imm : BitVec 16) : RoundTrip.Statement (.ori rd rs1 imm) := by
  intro h w hw
  cases hw
  rw [decode, decodeRaw_4]
  simp [Option.filter, h]
theorem RoundTrip.xori (rd : XReg) (rs1 : XReg) (imm : BitVec 16) : RoundTrip.Statement (.xori rd rs1 imm) := by
  intro h w hw
  cases hw
  rw [decode, decodeRaw_5]
  simp [Option.filter, h]
theorem RoundTrip.slti (rd : XReg) (rs1 : XReg) (imm : BitVec 16) : RoundTrip.Statement (.slti rd rs1 imm) := by
  intro h w hw
  cases hw
  rw [decode, decodeRaw_6]
  simp [Option.filter, h]
theorem RoundTrip.sltiu (rd : XReg) (rs1 : XReg) (imm : BitVec 16) : RoundTrip.Statement (.sltiu rd rs1 imm) := by
  intro h w hw
  cases hw
  rw [decode, decodeRaw_7]
  simp [Option.filter, h]
theorem RoundTrip.slli (rd : XReg) (rs1 : XReg) (shamt : BitVec 6) : RoundTrip.Statement (.slli rd rs1 shamt) := by
  intro h w hw
  cases hw
  rw [decode, decodeRaw_8]
  simp [decode08, Option.filter, h]
theorem RoundTrip.srli (rd : XReg) (rs1 : XReg) (shamt : BitVec 6) : RoundTrip.Statement (.srli rd rs1 shamt) := by
  intro h w hw
  cases hw
  rw [decode, decodeRaw_8]
  simp [decode08, Option.filter, h]
theorem RoundTrip.srai (rd : XReg) (rs1 : XReg) (shamt : BitVec 6) : RoundTrip.Statement (.srai rd rs1 shamt) := by
  intro h w hw
  cases hw
  rw [decode, decodeRaw_8]
  simp [decode08, Option.filter, h]
theorem RoundTrip.rori (rd : XReg) (rs1 : XReg) (shamt : BitVec 6) : RoundTrip.Statement (.rori rd rs1 shamt) := by
  intro h w hw
  cases hw
  rw [decode, decodeRaw_8]
  simp [decode08, Option.filter, h]
theorem RoundTrip.lih (rd : XReg) (h : BitVec 2) (imm : BitVec 16) : RoundTrip.Statement (.lih rd h imm) := by
  intro h w hw
  cases hw
  rw [decode, decodeRaw_9]
  simp [Option.filter, h]
theorem RoundTrip.cmpeq (pd : PReg) (rs1 : XReg) (rs2 : XReg) : RoundTrip.Statement (.cmpeq pd rs1 rs2) := by
  intro h w hw
  cases hw
  rw [decode, decodeRaw_10]
  simp [decode0A, Option.filter, h]
theorem RoundTrip.cmpne (pd : PReg) (rs1 : XReg) (rs2 : XReg) : RoundTrip.Statement (.cmpne pd rs1 rs2) := by
  intro h w hw
  cases hw
  rw [decode, decodeRaw_10]
  simp [decode0A, Option.filter, h]
theorem RoundTrip.cmplt (pd : PReg) (rs1 : XReg) (rs2 : XReg) : RoundTrip.Statement (.cmplt pd rs1 rs2) := by
  intro h w hw
  cases hw
  rw [decode, decodeRaw_10]
  simp [decode0A, Option.filter, h]
theorem RoundTrip.cmpge (pd : PReg) (rs1 : XReg) (rs2 : XReg) : RoundTrip.Statement (.cmpge pd rs1 rs2) := by
  intro h w hw
  cases hw
  rw [decode, decodeRaw_10]
  simp [decode0A, Option.filter, h]
theorem RoundTrip.cmpltu (pd : PReg) (rs1 : XReg) (rs2 : XReg) : RoundTrip.Statement (.cmpltu pd rs1 rs2) := by
  intro h w hw
  cases hw
  rw [decode, decodeRaw_10]
  simp [decode0A, Option.filter, h]
theorem RoundTrip.cmpgeu (pd : PReg) (rs1 : XReg) (rs2 : XReg) : RoundTrip.Statement (.cmpgeu pd rs1 rs2) := by
  intro h w hw
  cases hw
  rw [decode, decodeRaw_10]
  simp [decode0A, Option.filter, h]
theorem RoundTrip.pand (pd : PReg) (ps1 : PReg) (ps2 : PReg) : RoundTrip.Statement (.pand pd ps1 ps2) := by
  intro h w hw
  cases hw
  rw [decode, decodeRaw_12]
  simp [decode0C, Option.filter, h]
theorem RoundTrip.por (pd : PReg) (ps1 : PReg) (ps2 : PReg) : RoundTrip.Statement (.por pd ps1 ps2) := by
  intro h w hw
  cases hw
  rw [decode, decodeRaw_12]
  simp [decode0C, Option.filter, h]
theorem RoundTrip.pxor (pd : PReg) (ps1 : PReg) (ps2 : PReg) : RoundTrip.Statement (.pxor pd ps1 ps2) := by
  intro h w hw
  cases hw
  rw [decode, decodeRaw_12]
  simp [decode0C, Option.filter, h]
theorem RoundTrip.pandn (pd : PReg) (ps1 : PReg) (ps2 : PReg) : RoundTrip.Statement (.pandn pd ps1 ps2) := by
  intro h w hw
  cases hw
  rw [decode, decodeRaw_12]
  simp [decode0C, Option.filter, h]
theorem RoundTrip.porn (pd : PReg) (ps1 : PReg) (ps2 : PReg) : RoundTrip.Statement (.porn pd ps1 ps2) := by
  intro h w hw
  cases hw
  rw [decode, decodeRaw_12]
  simp [decode0C, Option.filter, h]
theorem RoundTrip.pnot (pd : PReg) (ps1 : PReg) : RoundTrip.Statement (.pnot pd ps1) := by
  intro h w hw
  cases hw
  rw [decode, decodeRaw_12]
  simp [decode0C, Option.filter, h]
theorem RoundTrip.pfromx (pd : PReg) (rs1 : XReg) : RoundTrip.Statement (.pfromx pd rs1) := by
  intro h w hw
  cases hw
  rw [decode, decodeRaw_12]
  simp [decode0C, Option.filter, h]
theorem RoundTrip.ptox (rd : XReg) (ps1 : PReg) : RoundTrip.Statement (.ptox rd ps1) := by
  intro h w hw
  cases hw
  rw [decode, decodeRaw_12]
  simp [decode0C, Option.filter, h]
theorem RoundTrip.beq (rs1 : XReg) (rs2 : XReg) (off : BitVec 16) : RoundTrip.Statement (.beq rs1 rs2 off) := by
  intro h w hw
  cases hw
  rw [decode, decodeRaw_16]
  simp [Option.filter, h]
theorem RoundTrip.bne (rs1 : XReg) (rs2 : XReg) (off : BitVec 16) : RoundTrip.Statement (.bne rs1 rs2 off) := by
  intro h w hw
  cases hw
  rw [decode, decodeRaw_17]
  simp [Option.filter, h]
theorem RoundTrip.blt (rs1 : XReg) (rs2 : XReg) (off : BitVec 16) : RoundTrip.Statement (.blt rs1 rs2 off) := by
  intro h w hw
  cases hw
  rw [decode, decodeRaw_18]
  simp [Option.filter, h]
theorem RoundTrip.bge (rs1 : XReg) (rs2 : XReg) (off : BitVec 16) : RoundTrip.Statement (.bge rs1 rs2 off) := by
  intro h w hw
  cases hw
  rw [decode, decodeRaw_19]
  simp [Option.filter, h]
theorem RoundTrip.bltu (rs1 : XReg) (rs2 : XReg) (off : BitVec 16) : RoundTrip.Statement (.bltu rs1 rs2 off) := by
  intro h w hw
  cases hw
  rw [decode, decodeRaw_20]
  simp [Option.filter, h]
theorem RoundTrip.bgeu (rs1 : XReg) (rs2 : XReg) (off : BitVec 16) : RoundTrip.Statement (.bgeu rs1 rs2 off) := by
  intro h w hw
  cases hw
  rw [decode, decodeRaw_21]
  simp [Option.filter, h]
theorem RoundTrip.bp (p : PReg) (sense : BitVec 1) (off : BitVec 16) : RoundTrip.Statement (.bp p sense off) := by
  intro h w hw
  cases hw
  rw [decode, decodeRaw_22]
  simp [Option.filter, h]
theorem RoundTrip.j (off : BitVec 26) : RoundTrip.Statement (.j off) := by
  intro h w hw
  cases hw
  rw [decode, decodeRaw_23]
  simp [Option.filter, h]
theorem RoundTrip.jal (off : BitVec 26) : RoundTrip.Statement (.jal off) := by
  intro h w hw
  cases hw
  rw [decode, decodeRaw_24]
  simp [Option.filter, h]
theorem RoundTrip.jalr (rd : XReg) (rs1 : XReg) (imm : BitVec 16) : RoundTrip.Statement (.jalr rd rs1 imm) := by
  intro h w hw
  cases hw
  rw [decode, decodeRaw_25]
  simp [Option.filter, h]
theorem RoundTrip.lb (rd : XReg) (base : XReg) (aq : BitVec 1) (off : BitVec 12) : RoundTrip.Statement (.lb rd base aq off) := by
  intro h w hw
  cases hw
  rw [decode, decodeRaw_26]
  simp [decode1A, Option.filter, h]
theorem RoundTrip.lbu (rd : XReg) (base : XReg) (aq : BitVec 1) (off : BitVec 12) : RoundTrip.Statement (.lbu rd base aq off) := by
  intro h w hw
  cases hw
  rw [decode, decodeRaw_26]
  simp [decode1A, Option.filter, h]
theorem RoundTrip.lh (rd : XReg) (base : XReg) (aq : BitVec 1) (off : BitVec 12) : RoundTrip.Statement (.lh rd base aq off) := by
  intro h w hw
  cases hw
  rw [decode, decodeRaw_26]
  simp [decode1A, Option.filter, h]
theorem RoundTrip.lhu (rd : XReg) (base : XReg) (aq : BitVec 1) (off : BitVec 12) : RoundTrip.Statement (.lhu rd base aq off) := by
  intro h w hw
  cases hw
  rw [decode, decodeRaw_26]
  simp [decode1A, Option.filter, h]
theorem RoundTrip.lw (rd : XReg) (base : XReg) (aq : BitVec 1) (off : BitVec 12) : RoundTrip.Statement (.lw rd base aq off) := by
  intro h w hw
  cases hw
  rw [decode, decodeRaw_26]
  simp [decode1A, Option.filter, h]
theorem RoundTrip.lwu (rd : XReg) (base : XReg) (aq : BitVec 1) (off : BitVec 12) : RoundTrip.Statement (.lwu rd base aq off) := by
  intro h w hw
  cases hw
  rw [decode, decodeRaw_26]
  simp [decode1A, Option.filter, h]
theorem RoundTrip.ld (rd : XReg) (base : XReg) (aq : BitVec 1) (off : BitVec 12) : RoundTrip.Statement (.ld rd base aq off) := by
  intro h w hw
  cases hw
  rw [decode, decodeRaw_26]
  simp [decode1A, Option.filter, h]
theorem RoundTrip.sb (rs : XReg) (base : XReg) (rl : BitVec 1) (off : BitVec 12) : RoundTrip.Statement (.sb rs base rl off) := by
  intro h w hw
  cases hw
  rw [decode, decodeRaw_27]
  simp [decode1B, Option.filter, h]
theorem RoundTrip.sh (rs : XReg) (base : XReg) (rl : BitVec 1) (off : BitVec 12) : RoundTrip.Statement (.sh rs base rl off) := by
  intro h w hw
  cases hw
  rw [decode, decodeRaw_27]
  simp [decode1B, Option.filter, h]
theorem RoundTrip.sw (rs : XReg) (base : XReg) (rl : BitVec 1) (off : BitVec 12) : RoundTrip.Statement (.sw rs base rl off) := by
  intro h w hw
  cases hw
  rw [decode, decodeRaw_27]
  simp [decode1B, Option.filter, h]
theorem RoundTrip.sd (rs : XReg) (base : XReg) (rl : BitVec 1) (off : BitVec 12) : RoundTrip.Statement (.sd rs base rl off) := by
  intro h w hw
  cases hw
  rw [decode, decodeRaw_27]
  simp [decode1B, Option.filter, h]
theorem RoundTrip.acas (rd : XReg) (rs1 : XReg) (rs2 : XReg) (aq : BitVec 1) (rl : BitVec 1) (size : BitVec 2) : RoundTrip.Statement (.acas rd rs1 rs2 aq rl size) := by
  intro h w hw
  cases hw
  rw [decode, decodeRaw_28]
  simp [decode1C, Option.filter, h]
theorem RoundTrip.aswap (rd : XReg) (rs1 : XReg) (rs2 : XReg) (aq : BitVec 1) (rl : BitVec 1) (size : BitVec 2) : RoundTrip.Statement (.aswap rd rs1 rs2 aq rl size) := by
  intro h w hw
  cases hw
  rw [decode, decodeRaw_28]
  simp [decode1C, Option.filter, h]
theorem RoundTrip.aadd (rd : XReg) (rs1 : XReg) (rs2 : XReg) (aq : BitVec 1) (rl : BitVec 1) (size : BitVec 2) : RoundTrip.Statement (.aadd rd rs1 rs2 aq rl size) := by
  intro h w hw
  cases hw
  rw [decode, decodeRaw_28]
  simp [decode1C, Option.filter, h]
theorem RoundTrip.aand (rd : XReg) (rs1 : XReg) (rs2 : XReg) (aq : BitVec 1) (rl : BitVec 1) (size : BitVec 2) : RoundTrip.Statement (.aand rd rs1 rs2 aq rl size) := by
  intro h w hw
  cases hw
  rw [decode, decodeRaw_28]
  simp [decode1C, Option.filter, h]
theorem RoundTrip.aor (rd : XReg) (rs1 : XReg) (rs2 : XReg) (aq : BitVec 1) (rl : BitVec 1) (size : BitVec 2) : RoundTrip.Statement (.aor rd rs1 rs2 aq rl size) := by
  intro h w hw
  cases hw
  rw [decode, decodeRaw_28]
  simp [decode1C, Option.filter, h]
theorem RoundTrip.axor (rd : XReg) (rs1 : XReg) (rs2 : XReg) (aq : BitVec 1) (rl : BitVec 1) (size : BitVec 2) : RoundTrip.Statement (.axor rd rs1 rs2 aq rl size) := by
  intro h w hw
  cases hw
  rw [decode, decodeRaw_28]
  simp [decode1C, Option.filter, h]
theorem RoundTrip.amin (rd : XReg) (rs1 : XReg) (rs2 : XReg) (aq : BitVec 1) (rl : BitVec 1) (size : BitVec 2) : RoundTrip.Statement (.amin rd rs1 rs2 aq rl size) := by
  intro h w hw
  cases hw
  rw [decode, decodeRaw_28]
  simp [decode1C, Option.filter, h]
theorem RoundTrip.amax (rd : XReg) (rs1 : XReg) (rs2 : XReg) (aq : BitVec 1) (rl : BitVec 1) (size : BitVec 2) : RoundTrip.Statement (.amax rd rs1 rs2 aq rl size) := by
  intro h w hw
  cases hw
  rw [decode, decodeRaw_28]
  simp [decode1C, Option.filter, h]
theorem RoundTrip.aminu (rd : XReg) (rs1 : XReg) (rs2 : XReg) (aq : BitVec 1) (rl : BitVec 1) (size : BitVec 2) : RoundTrip.Statement (.aminu rd rs1 rs2 aq rl size) := by
  intro h w hw
  cases hw
  rw [decode, decodeRaw_28]
  simp [decode1C, Option.filter, h]
theorem RoundTrip.amaxu (rd : XReg) (rs1 : XReg) (rs2 : XReg) (aq : BitVec 1) (rl : BitVec 1) (size : BitVec 2) : RoundTrip.Statement (.amaxu rd rs1 rs2 aq rl size) := by
  intro h w hw
  cases hw
  rw [decode, decodeRaw_28]
  simp [decode1C, Option.filter, h]
theorem RoundTrip.fence (scope : BitVec 2) : RoundTrip.Statement (.fence scope) := by
  intro h w hw
  cases hw
  rw [decode, decodeRaw_29]
  simp [decode1D, Option.filter, h]
theorem RoundTrip.fenceQ (mask : BitVec 5) (scope : BitVec 2) : RoundTrip.Statement (.fenceQ mask scope) := by
  intro h w hw
  cases hw
  rw [decode, decodeRaw_29]
  simp [decode1D, Option.filter, h]
theorem RoundTrip.fadd (rd : XReg) (rs1 : XReg) (rs2 : XReg) (rm : BitVec 2) (fmt : BitVec 1) : RoundTrip.Statement (.fadd rd rs1 rs2 rm fmt) := by
  intro h w hw
  cases hw
  rw [decode, decodeRaw_30]
  simp [decode1E, Option.filter, h]
theorem RoundTrip.fsub (rd : XReg) (rs1 : XReg) (rs2 : XReg) (rm : BitVec 2) (fmt : BitVec 1) : RoundTrip.Statement (.fsub rd rs1 rs2 rm fmt) := by
  intro h w hw
  cases hw
  rw [decode, decodeRaw_30]
  simp [decode1E, Option.filter, h]
theorem RoundTrip.fmul (rd : XReg) (rs1 : XReg) (rs2 : XReg) (rm : BitVec 2) (fmt : BitVec 1) : RoundTrip.Statement (.fmul rd rs1 rs2 rm fmt) := by
  intro h w hw
  cases hw
  rw [decode, decodeRaw_30]
  simp [decode1E, Option.filter, h]
theorem RoundTrip.fdiv (rd : XReg) (rs1 : XReg) (rs2 : XReg) (rm : BitVec 2) (fmt : BitVec 1) : RoundTrip.Statement (.fdiv rd rs1 rs2 rm fmt) := by
  intro h w hw
  cases hw
  rw [decode, decodeRaw_30]
  simp [decode1E, Option.filter, h]
theorem RoundTrip.fsqrt (rd : XReg) (rs1 : XReg) (rm : BitVec 2) (fmt : BitVec 1) : RoundTrip.Statement (.fsqrt rd rs1 rm fmt) := by
  intro h w hw
  cases hw
  rw [decode, decodeRaw_30]
  simp [decode1E, Option.filter, h]
theorem RoundTrip.fmin (rd : XReg) (rs1 : XReg) (rs2 : XReg) (fmt : BitVec 1) : RoundTrip.Statement (.fmin rd rs1 rs2 fmt) := by
  intro h w hw
  cases hw
  rw [decode, decodeRaw_30]
  simp [decode1E, Option.filter, h]
theorem RoundTrip.fmax (rd : XReg) (rs1 : XReg) (rs2 : XReg) (fmt : BitVec 1) : RoundTrip.Statement (.fmax rd rs1 rs2 fmt) := by
  intro h w hw
  cases hw
  rw [decode, decodeRaw_30]
  simp [decode1E, Option.filter, h]
theorem RoundTrip.fmac (rd : XReg) (rs1 : XReg) (rs2 : XReg) (rm : BitVec 2) (fmt : BitVec 1) : RoundTrip.Statement (.fmac rd rs1 rs2 rm fmt) := by
  intro h w hw
  cases hw
  rw [decode, decodeRaw_30]
  simp [decode1E, Option.filter, h]
theorem RoundTrip.fneg (rd : XReg) (rs1 : XReg) (fmt : BitVec 1) : RoundTrip.Statement (.fneg rd rs1 fmt) := by
  intro h w hw
  cases hw
  rw [decode, decodeRaw_30]
  simp [decode1E, Option.filter, h]
theorem RoundTrip.fabs (rd : XReg) (rs1 : XReg) (fmt : BitVec 1) : RoundTrip.Statement (.fabs rd rs1 fmt) := by
  intro h w hw
  cases hw
  rw [decode, decodeRaw_30]
  simp [decode1E, Option.filter, h]
theorem RoundTrip.fkind (rd : XReg) (rs1 : XReg) (fmt : BitVec 1) : RoundTrip.Statement (.fkind rd rs1 fmt) := by
  intro h w hw
  cases hw
  rw [decode, decodeRaw_30]
  simp [decode1E, Option.filter, h]
theorem RoundTrip.fcmpeq (pd : PReg) (rs1 : XReg) (rs2 : XReg) (fmt : BitVec 1) : RoundTrip.Statement (.fcmpeq pd rs1 rs2 fmt) := by
  intro h w hw
  cases hw
  rw [decode, decodeRaw_30]
  simp [decode1E, Option.filter, h]
theorem RoundTrip.fcmplt (pd : PReg) (rs1 : XReg) (rs2 : XReg) (fmt : BitVec 1) : RoundTrip.Statement (.fcmplt pd rs1 rs2 fmt) := by
  intro h w hw
  cases hw
  rw [decode, decodeRaw_30]
  simp [decode1E, Option.filter, h]
theorem RoundTrip.fcmple (pd : PReg) (rs1 : XReg) (rs2 : XReg) (fmt : BitVec 1) : RoundTrip.Statement (.fcmple pd rs1 rs2 fmt) := by
  intro h w hw
  cases hw
  rw [decode, decodeRaw_30]
  simp [decode1E, Option.filter, h]
theorem RoundTrip.ftoi (rd : XReg) (rs1 : XReg) (rm : BitVec 2) (fmt : BitVec 1) : RoundTrip.Statement (.ftoi rd rs1 rm fmt) := by
  intro h w hw
  cases hw
  rw [decode, decodeRaw_30]
  simp [decode1E, Option.filter, h]
theorem RoundTrip.ftou (rd : XReg) (rs1 : XReg) (rm : BitVec 2) (fmt : BitVec 1) : RoundTrip.Statement (.ftou rd rs1 rm fmt) := by
  intro h w hw
  cases hw
  rw [decode, decodeRaw_30]
  simp [decode1E, Option.filter, h]
theorem RoundTrip.itof (rd : XReg) (rs1 : XReg) (rm : BitVec 2) (fmt : BitVec 1) : RoundTrip.Statement (.itof rd rs1 rm fmt) := by
  intro h w hw
  cases hw
  rw [decode, decodeRaw_30]
  simp [decode1E, Option.filter, h]
theorem RoundTrip.utof (rd : XReg) (rs1 : XReg) (rm : BitVec 2) (fmt : BitVec 1) : RoundTrip.Statement (.utof rd rs1 rm fmt) := by
  intro h w hw
  cases hw
  rw [decode, decodeRaw_30]
  simp [decode1E, Option.filter, h]
theorem RoundTrip.ftof (rd : XReg) (rs1 : XReg) (rm : BitVec 2) (fmt : BitVec 1) : RoundTrip.Statement (.ftof rd rs1 rm fmt) := by
  intro h w hw
  cases hw
  rw [decode, decodeRaw_30]
  simp [decode1E, Option.filter, h]
theorem RoundTrip.ecall : RoundTrip.Statement (.ecall) := by
  intro h w hw
  cases hw
  rw [decode, decodeRaw_31]
  simp [decode1F, Option.filter, h]
theorem RoundTrip.ebreak : RoundTrip.Statement (.ebreak) := by
  intro h w hw
  cases hw
  rw [decode, decodeRaw_31]
  simp [decode1F, Option.filter, h]
theorem RoundTrip.tret : RoundTrip.Statement (.tret) := by
  intro h w hw
  cases hw
  rw [decode, decodeRaw_31]
  simp [decode1F, Option.filter, h]
theorem RoundTrip.uiret : RoundTrip.Statement (.uiret) := by
  intro h w hw
  cases hw
  rw [decode, decodeRaw_31]
  simp [decode1F, Option.filter, h]
theorem RoundTrip.crd (rd : XReg) (cr : BitVec 11) : RoundTrip.Statement (.crd rd cr) := by
  intro h w hw
  cases hw
  rw [decode, decodeRaw_31]
  simp [decode1F, Option.filter, h]
theorem RoundTrip.cwr (rs1 : XReg) (cr : BitVec 11) : RoundTrip.Statement (.cwr rs1 cr) := by
  intro h w hw
  cases hw
  rw [decode, decodeRaw_31]
  simp [decode1F, Option.filter, h]
theorem RoundTrip.cset (rd : XReg) (rs1 : XReg) (cr : BitVec 11) : RoundTrip.Statement (.cset rd rs1 cr) := by
  intro h w hw
  cases hw
  rw [decode, decodeRaw_31]
  simp [decode1F, Option.filter, h]
theorem RoundTrip.cclr (rd : XReg) (rs1 : XReg) (cr : BitVec 11) : RoundTrip.Statement (.cclr rd rs1 cr) := by
  intro h w hw
  cases hw
  rw [decode, decodeRaw_31]
  simp [decode1F, Option.filter, h]
theorem RoundTrip.sleep : RoundTrip.Statement (.sleep) := by
  intro h w hw
  cases hw
  rw [decode, decodeRaw_31]
  simp [decode1F, Option.filter, h]
theorem RoundTrip.dcclean (rs1 : XReg) : RoundTrip.Statement (.dcclean rs1) := by
  intro h w hw
  cases hw
  rw [decode, decodeRaw_31]
  simp [decode1F, Option.filter, h]
theorem RoundTrip.dcflush (rs1 : XReg) : RoundTrip.Statement (.dcflush rs1) := by
  intro h w hw
  cases hw
  rw [decode, decodeRaw_31]
  simp [decode1F, Option.filter, h]
theorem RoundTrip.dcinv (rs1 : XReg) : RoundTrip.Statement (.dcinv rs1) := by
  intro h w hw
  cases hw
  rw [decode, decodeRaw_31]
  simp [decode1F, Option.filter, h]
theorem RoundTrip.icinv (rs1 : XReg) : RoundTrip.Statement (.icinv rs1) := by
  intro h w hw
  cases hw
  rw [decode, decodeRaw_31]
  simp [decode1F, Option.filter, h]
theorem RoundTrip.cstart (rd : XReg) (rs1 : XReg) (rs2 : XReg) : RoundTrip.Statement (.cstart rd rs1 rs2) := by
  intro h w hw
  cases hw
  rw [decode, decodeRaw_32]
  simp [decode20, Option.filter, h]
theorem RoundTrip.cstop (rd : XReg) (rs1 : XReg) : RoundTrip.Statement (.cstop rd rs1) := by
  intro h w hw
  cases hw
  rw [decode, decodeRaw_32]
  simp [decode20, Option.filter, h]
theorem RoundTrip.creap (rd : XReg) (rs1 : XReg) : RoundTrip.Statement (.creap rd rs1) := by
  intro h w hw
  cases hw
  rw [decode, decodeRaw_32]
  simp [decode20, Option.filter, h]
theorem RoundTrip.cself (rs1 : XReg) : RoundTrip.Statement (.cself rs1) := by
  intro h w hw
  cases hw
  rw [decode, decodeRaw_32]
  simp [decode20, Option.filter, h]
theorem RoundTrip.forkl (rd : XReg) (rs1 : XReg) : RoundTrip.Statement (.forkl rd rs1) := by
  intro h w hw
  cases hw
  rw [decode, decodeRaw_32]
  simp [decode20, Option.filter, h]
theorem RoundTrip.joinl (rd : XReg) : RoundTrip.Statement (.joinl rd) := by
  intro h w hw
  cases hw
  rw [decode, decodeRaw_32]
  simp [decode20, Option.filter, h]
theorem RoundTrip.movh (hd : HReg) (rs1 : XReg) : RoundTrip.Statement (.movh hd rs1) := by
  intro h w hw
  cases hw
  rw [decode, decodeRaw_32]
  simp [decode20, Option.filter, h]
theorem RoundTrip.movfh (rd : XReg) (hs : HReg) : RoundTrip.Statement (.movfh rd hs) := by
  intro h w hw
  cases hw
  rw [decode, decodeRaw_32]
  simp [decode20, Option.filter, h]
theorem RoundTrip.binit (rd : XReg) (rs1 : XReg) (rs2 : XReg) : RoundTrip.Statement (.binit rd rs1 rs2) := by
  intro h w hw
  cases hw
  rw [decode, decodeRaw_33]
  simp [decode21, Option.filter, h]
theorem RoundTrip.barr (rd : XReg) (rs1 : XReg) (rs2 : XReg) : RoundTrip.Statement (.barr rd rs1 rs2) := by
  intro h w hw
  cases hw
  rw [decode, decodeRaw_33]
  simp [decode21, Option.filter, h]
theorem RoundTrip.bexp (rd : XReg) (rs1 : XReg) (rs2 : XReg) : RoundTrip.Statement (.bexp rd rs1 rs2) := by
  intro h w hw
  cases hw
  rw [decode, decodeRaw_33]
  simp [decode21, Option.filter, h]
theorem RoundTrip.bwait (rd : XReg) (rs1 : XReg) (rs2 : XReg) : RoundTrip.Statement (.bwait rd rs1 rs2) := by
  intro h w hw
  cases hw
  rw [decode, decodeRaw_33]
  simp [decode21, Option.filter, h]
theorem RoundTrip.btest (rd : XReg) (rs1 : XReg) (rs2 : XReg) : RoundTrip.Statement (.btest rd rs1 rs2) := by
  intro h w hw
  cases hw
  rw [decode, decodeRaw_33]
  simp [decode21, Option.filter, h]
theorem RoundTrip.phasend (rd : XReg) (rs1 : XReg) (rs2 : XReg) : RoundTrip.Statement (.phasend rd rs1 rs2) := by
  intro h w hw
  cases hw
  rw [decode, decodeRaw_33]
  simp [decode21, Option.filter, h]
theorem RoundTrip.chbind (rd : XReg) (rs1 : XReg) : RoundTrip.Statement (.chbind rd rs1) := by
  intro h w hw
  cases hw
  rw [decode, decodeRaw_34]
  simp [decode22, Option.filter, h]
theorem RoundTrip.chunbind (rd : XReg) (rs1 : XReg) : RoundTrip.Statement (.chunbind rd rs1) := by
  intro h w hw
  cases hw
  rw [decode, decodeRaw_34]
  simp [decode22, Option.filter, h]
theorem RoundTrip.chsend (rd : XReg) (rs1 : XReg) (rs2 : XReg) : RoundTrip.Statement (.chsend rd rs1 rs2) := by
  intro h w hw
  cases hw
  rw [decode, decodeRaw_34]
  simp [decode22, Option.filter, h]
theorem RoundTrip.chrecv (rd : XReg) (rt : XReg) (rs1 : XReg) : RoundTrip.Statement (.chrecv rd rt rs1) := by
  intro h w hw
  cases hw
  rw [decode, decodeRaw_34]
  simp [decode22, Option.filter, h]
theorem RoundTrip.chsendv (rd : XReg) (rs1 : XReg) (vs : VReg) : RoundTrip.Statement (.chsendv rd rs1 vs) := by
  intro h w hw
  cases hw
  rw [decode, decodeRaw_34]
  simp [decode22, Option.filter, h]
theorem RoundTrip.chrecvv (vd : VReg) (rt : XReg) (rs1 : XReg) : RoundTrip.Statement (.chrecvv vd rt rs1) := by
  intro h w hw
  cases hw
  rw [decode, decodeRaw_34]
  simp [decode22, Option.filter, h]
theorem RoundTrip.chclose (rd : XReg) (rs1 : XReg) : RoundTrip.Statement (.chclose rd rs1) := by
  intro h w hw
  cases hw
  rw [decode, decodeRaw_34]
  simp [decode22, Option.filter, h]
theorem RoundTrip.select (rd : XReg) (rt : XReg) (rs1 : XReg) : RoundTrip.Statement (.select rd rt rs1) := by
  intro h w hw
  cases hw
  rw [decode, decodeRaw_34]
  simp [decode22, Option.filter, h]
theorem RoundTrip.chsendb (rd : XReg) (rs1 : XReg) (rs2 : XReg) : RoundTrip.Statement (.chsendb rd rs1 rs2) := by
  intro h w hw
  cases hw
  rw [decode, decodeRaw_34]
  simp [decode22, Option.filter, h]
theorem RoundTrip.chrecvb (rd : XReg) (rs1 : XReg) (rs2 : XReg) : RoundTrip.Statement (.chrecvb rd rs1 rs2) := by
  intro h w hw
  cases hw
  rw [decode, decodeRaw_34]
  simp [decode22, Option.filter, h]
theorem RoundTrip.vsetvl (rd : XReg) (rs1 : XReg) : RoundTrip.Statement (.vsetvl rd rs1) := by
  intro h w hw
  cases hw
  rw [decode, decodeRaw_40]
  simp [decode28, Option.filter, h]
theorem RoundTrip.vsett (rd : XReg) (rs1 : XReg) : RoundTrip.Statement (.vsett rd rs1) := by
  intro h w hw
  cases hw
  rw [decode, decodeRaw_40]
  simp [decode28, Option.filter, h]
theorem RoundTrip.vmode (rd : XReg) (rs1 : XReg) : RoundTrip.Statement (.vmode rd rs1) := by
  intro h w hw
  cases hw
  rw [decode, decodeRaw_40]
  simp [decode28, Option.filter, h]
theorem RoundTrip.ctwr (rs1 : XReg) (rs2 : XReg) : RoundTrip.Statement (.ctwr rs1 rs2) := by
  intro h w hw
  cases hw
  rw [decode, decodeRaw_40]
  simp [decode28, Option.filter, h]
theorem RoundTrip.ctsel (rs1 : XReg) : RoundTrip.Statement (.ctsel rs1) := by
  intro h w hw
  cases hw
  rw [decode, decodeRaw_40]
  simp [decode28, Option.filter, h]
theorem RoundTrip.vadd (vd : VReg) (vs1 : VReg) (c : XReg) (x : BitVec 1) (mk : VMask) : RoundTrip.Statement (.vadd vd vs1 c x mk) := by
  intro h w hw
  cases hw
  rw [decode, decodeRaw_41]
  simp [decode29, Option.filter, h]
theorem RoundTrip.vsub (vd : VReg) (vs1 : VReg) (c : XReg) (x : BitVec 1) (mk : VMask) : RoundTrip.Statement (.vsub vd vs1 c x mk) := by
  intro h w hw
  cases hw
  rw [decode, decodeRaw_41]
  simp [decode29, Option.filter, h]
theorem RoundTrip.vrsub (vd : VReg) (vs1 : VReg) (c : XReg) (x : BitVec 1) (mk : VMask) : RoundTrip.Statement (.vrsub vd vs1 c x mk) := by
  intro h w hw
  cases hw
  rw [decode, decodeRaw_41]
  simp [decode29, Option.filter, h]
theorem RoundTrip.vand (vd : VReg) (vs1 : VReg) (c : XReg) (x : BitVec 1) (mk : VMask) : RoundTrip.Statement (.vand vd vs1 c x mk) := by
  intro h w hw
  cases hw
  rw [decode, decodeRaw_41]
  simp [decode29, Option.filter, h]
theorem RoundTrip.vor (vd : VReg) (vs1 : VReg) (c : XReg) (x : BitVec 1) (mk : VMask) : RoundTrip.Statement (.vor vd vs1 c x mk) := by
  intro h w hw
  cases hw
  rw [decode, decodeRaw_41]
  simp [decode29, Option.filter, h]
theorem RoundTrip.vxor (vd : VReg) (vs1 : VReg) (c : XReg) (x : BitVec 1) (mk : VMask) : RoundTrip.Statement (.vxor vd vs1 c x mk) := by
  intro h w hw
  cases hw
  rw [decode, decodeRaw_41]
  simp [decode29, Option.filter, h]
theorem RoundTrip.vsll (vd : VReg) (vs1 : VReg) (c : XReg) (x : BitVec 1) (mk : VMask) : RoundTrip.Statement (.vsll vd vs1 c x mk) := by
  intro h w hw
  cases hw
  rw [decode, decodeRaw_41]
  simp [decode29, Option.filter, h]
theorem RoundTrip.vsrl (vd : VReg) (vs1 : VReg) (c : XReg) (x : BitVec 1) (mk : VMask) : RoundTrip.Statement (.vsrl vd vs1 c x mk) := by
  intro h w hw
  cases hw
  rw [decode, decodeRaw_41]
  simp [decode29, Option.filter, h]
theorem RoundTrip.vsra (vd : VReg) (vs1 : VReg) (c : XReg) (x : BitVec 1) (mk : VMask) : RoundTrip.Statement (.vsra vd vs1 c x mk) := by
  intro h w hw
  cases hw
  rw [decode, decodeRaw_41]
  simp [decode29, Option.filter, h]
theorem RoundTrip.vmin (vd : VReg) (vs1 : VReg) (c : XReg) (x : BitVec 1) (mk : VMask) : RoundTrip.Statement (.vmin vd vs1 c x mk) := by
  intro h w hw
  cases hw
  rw [decode, decodeRaw_41]
  simp [decode29, Option.filter, h]
theorem RoundTrip.vmax (vd : VReg) (vs1 : VReg) (c : XReg) (x : BitVec 1) (mk : VMask) : RoundTrip.Statement (.vmax vd vs1 c x mk) := by
  intro h w hw
  cases hw
  rw [decode, decodeRaw_41]
  simp [decode29, Option.filter, h]
theorem RoundTrip.vminu (vd : VReg) (vs1 : VReg) (c : XReg) (x : BitVec 1) (mk : VMask) : RoundTrip.Statement (.vminu vd vs1 c x mk) := by
  intro h w hw
  cases hw
  rw [decode, decodeRaw_41]
  simp [decode29, Option.filter, h]
theorem RoundTrip.vmaxu (vd : VReg) (vs1 : VReg) (c : XReg) (x : BitVec 1) (mk : VMask) : RoundTrip.Statement (.vmaxu vd vs1 c x mk) := by
  intro h w hw
  cases hw
  rw [decode, decodeRaw_41]
  simp [decode29, Option.filter, h]
theorem RoundTrip.vmul (vd : VReg) (vs1 : VReg) (c : XReg) (x : BitVec 1) (mk : VMask) : RoundTrip.Statement (.vmul vd vs1 c x mk) := by
  intro h w hw
  cases hw
  rw [decode, decodeRaw_41]
  simp [decode29, Option.filter, h]
theorem RoundTrip.vmulh (vd : VReg) (vs1 : VReg) (c : XReg) (x : BitVec 1) (mk : VMask) : RoundTrip.Statement (.vmulh vd vs1 c x mk) := by
  intro h w hw
  cases hw
  rw [decode, decodeRaw_41]
  simp [decode29, Option.filter, h]
theorem RoundTrip.vmulhu (vd : VReg) (vs1 : VReg) (c : XReg) (x : BitVec 1) (mk : VMask) : RoundTrip.Statement (.vmulhu vd vs1 c x mk) := by
  intro h w hw
  cases hw
  rw [decode, decodeRaw_41]
  simp [decode29, Option.filter, h]
theorem RoundTrip.vsadd (vd : VReg) (vs1 : VReg) (c : XReg) (x : BitVec 1) (mk : VMask) : RoundTrip.Statement (.vsadd vd vs1 c x mk) := by
  intro h w hw
  cases hw
  rw [decode, decodeRaw_41]
  simp [decode29, Option.filter, h]
theorem RoundTrip.vsaddu (vd : VReg) (vs1 : VReg) (c : XReg) (x : BitVec 1) (mk : VMask) : RoundTrip.Statement (.vsaddu vd vs1 c x mk) := by
  intro h w hw
  cases hw
  rw [decode, decodeRaw_41]
  simp [decode29, Option.filter, h]
theorem RoundTrip.vssub (vd : VReg) (vs1 : VReg) (c : XReg) (x : BitVec 1) (mk : VMask) : RoundTrip.Statement (.vssub vd vs1 c x mk) := by
  intro h w hw
  cases hw
  rw [decode, decodeRaw_41]
  simp [decode29, Option.filter, h]
theorem RoundTrip.vssubu (vd : VReg) (vs1 : VReg) (c : XReg) (x : BitVec 1) (mk : VMask) : RoundTrip.Statement (.vssubu vd vs1 c x mk) := by
  intro h w hw
  cases hw
  rw [decode, decodeRaw_41]
  simp [decode29, Option.filter, h]
theorem RoundTrip.vmacc (vd : VReg) (vs1 : VReg) (c : XReg) (x : BitVec 1) (mk : VMask) : RoundTrip.Statement (.vmacc vd vs1 c x mk) := by
  intro h w hw
  cases hw
  rw [decode, decodeRaw_41]
  simp [decode29, Option.filter, h]
theorem RoundTrip.vabs (vd : VReg) (vs1 : VReg) (mk : VMask) : RoundTrip.Statement (.vabs vd vs1 mk) := by
  intro h w hw
  cases hw
  rw [decode, decodeRaw_41]
  simp [decode29, Option.filter, h]
theorem RoundTrip.vneg (vd : VReg) (vs1 : VReg) (mk : VMask) : RoundTrip.Statement (.vneg vd vs1 mk) := by
  intro h w hw
  cases hw
  rw [decode, decodeRaw_41]
  simp [decode29, Option.filter, h]
theorem RoundTrip.vcmpeq (md : MReg) (vs1 : VReg) (c : XReg) (x : BitVec 1) (mk : VMask) : RoundTrip.Statement (.vcmpeq md vs1 c x mk) := by
  intro h w hw
  cases hw
  rw [decode, decodeRaw_41]
  simp [decode29, Option.filter, h]
theorem RoundTrip.vcmpne (md : MReg) (vs1 : VReg) (c : XReg) (x : BitVec 1) (mk : VMask) : RoundTrip.Statement (.vcmpne md vs1 c x mk) := by
  intro h w hw
  cases hw
  rw [decode, decodeRaw_41]
  simp [decode29, Option.filter, h]
theorem RoundTrip.vcmplt (md : MReg) (vs1 : VReg) (c : XReg) (x : BitVec 1) (mk : VMask) : RoundTrip.Statement (.vcmplt md vs1 c x mk) := by
  intro h w hw
  cases hw
  rw [decode, decodeRaw_41]
  simp [decode29, Option.filter, h]
theorem RoundTrip.vcmple (md : MReg) (vs1 : VReg) (c : XReg) (x : BitVec 1) (mk : VMask) : RoundTrip.Statement (.vcmple md vs1 c x mk) := by
  intro h w hw
  cases hw
  rw [decode, decodeRaw_41]
  simp [decode29, Option.filter, h]
theorem RoundTrip.vcmpltu (md : MReg) (vs1 : VReg) (c : XReg) (x : BitVec 1) (mk : VMask) : RoundTrip.Statement (.vcmpltu md vs1 c x mk) := by
  intro h w hw
  cases hw
  rw [decode, decodeRaw_41]
  simp [decode29, Option.filter, h]
theorem RoundTrip.vcmpleu (md : MReg) (vs1 : VReg) (c : XReg) (x : BitVec 1) (mk : VMask) : RoundTrip.Statement (.vcmpleu md vs1 c x mk) := by
  intro h w hw
  cases hw
  rw [decode, decodeRaw_41]
  simp [decode29, Option.filter, h]
theorem RoundTrip.vfadd (vd : VReg) (vs1 : VReg) (c : XReg) (x : BitVec 1) (mk : VMask) : RoundTrip.Statement (.vfadd vd vs1 c x mk) := by
  intro h w hw
  cases hw
  rw [decode, decodeRaw_42]
  simp [decode2A, Option.filter, h]
theorem RoundTrip.vfsub (vd : VReg) (vs1 : VReg) (c : XReg) (x : BitVec 1) (mk : VMask) : RoundTrip.Statement (.vfsub vd vs1 c x mk) := by
  intro h w hw
  cases hw
  rw [decode, decodeRaw_42]
  simp [decode2A, Option.filter, h]
theorem RoundTrip.vfmul (vd : VReg) (vs1 : VReg) (c : XReg) (x : BitVec 1) (mk : VMask) : RoundTrip.Statement (.vfmul vd vs1 c x mk) := by
  intro h w hw
  cases hw
  rw [decode, decodeRaw_42]
  simp [decode2A, Option.filter, h]
theorem RoundTrip.vfdiv (vd : VReg) (vs1 : VReg) (c : XReg) (x : BitVec 1) (mk : VMask) : RoundTrip.Statement (.vfdiv vd vs1 c x mk) := by
  intro h w hw
  cases hw
  rw [decode, decodeRaw_42]
  simp [decode2A, Option.filter, h]
theorem RoundTrip.vfsqrt (vd : VReg) (vs1 : VReg) (mk : VMask) : RoundTrip.Statement (.vfsqrt vd vs1 mk) := by
  intro h w hw
  cases hw
  rw [decode, decodeRaw_42]
  simp [decode2A, Option.filter, h]
theorem RoundTrip.vfmin (vd : VReg) (vs1 : VReg) (c : XReg) (x : BitVec 1) (mk : VMask) : RoundTrip.Statement (.vfmin vd vs1 c x mk) := by
  intro h w hw
  cases hw
  rw [decode, decodeRaw_42]
  simp [decode2A, Option.filter, h]
theorem RoundTrip.vfmax (vd : VReg) (vs1 : VReg) (c : XReg) (x : BitVec 1) (mk : VMask) : RoundTrip.Statement (.vfmax vd vs1 c x mk) := by
  intro h w hw
  cases hw
  rw [decode, decodeRaw_42]
  simp [decode2A, Option.filter, h]
theorem RoundTrip.vfmacc (vd : VReg) (vs1 : VReg) (c : XReg) (x : BitVec 1) (mk : VMask) : RoundTrip.Statement (.vfmacc vd vs1 c x mk) := by
  intro h w hw
  cases hw
  rw [decode, decodeRaw_42]
  simp [decode2A, Option.filter, h]
theorem RoundTrip.vfabs (vd : VReg) (vs1 : VReg) (mk : VMask) : RoundTrip.Statement (.vfabs vd vs1 mk) := by
  intro h w hw
  cases hw
  rw [decode, decodeRaw_42]
  simp [decode2A, Option.filter, h]
theorem RoundTrip.vfneg (vd : VReg) (vs1 : VReg) (mk : VMask) : RoundTrip.Statement (.vfneg vd vs1 mk) := by
  intro h w hw
  cases hw
  rw [decode, decodeRaw_42]
  simp [decode2A, Option.filter, h]
theorem RoundTrip.vfcmpeq (md : MReg) (vs1 : VReg) (c : XReg) (x : BitVec 1) (mk : VMask) : RoundTrip.Statement (.vfcmpeq md vs1 c x mk) := by
  intro h w hw
  cases hw
  rw [decode, decodeRaw_42]
  simp [decode2A, Option.filter, h]
theorem RoundTrip.vfcmplt (md : MReg) (vs1 : VReg) (c : XReg) (x : BitVec 1) (mk : VMask) : RoundTrip.Statement (.vfcmplt md vs1 c x mk) := by
  intro h w hw
  cases hw
  rw [decode, decodeRaw_42]
  simp [decode2A, Option.filter, h]
theorem RoundTrip.vfcmple (md : MReg) (vs1 : VReg) (c : XReg) (x : BitVec 1) (mk : VMask) : RoundTrip.Statement (.vfcmple md vs1 c x mk) := by
  intro h w hw
  cases hw
  rw [decode, decodeRaw_42]
  simp [decode2A, Option.filter, h]
theorem RoundTrip.vfcvt (vd : VReg) (vs1 : VReg) (tag : BitVec 5) (mk : VMask) : RoundTrip.Statement (.vfcvt vd vs1 tag mk) := by
  intro h w hw
  cases hw
  rw [decode, decodeRaw_42]
  simp [decode2A, Option.filter, h]
theorem RoundTrip.vquant (vd : VReg) (vs1 : VReg) (tag : BitVec 5) (mk : VMask) : RoundTrip.Statement (.vquant vd vs1 tag mk) := by
  intro h w hw
  cases hw
  rw [decode, decodeRaw_42]
  simp [decode2A, Option.filter, h]
theorem RoundTrip.vdequant (vd : VReg) (vs1 : VReg) (tag : BitVec 5) (mk : VMask) : RoundTrip.Statement (.vdequant vd vs1 tag mk) := by
  intro h w hw
  cases hw
  rw [decode, decodeRaw_42]
  simp [decode2A, Option.filter, h]
theorem RoundTrip.mand (md : MReg) (ms1 : MReg) (ms2 : MReg) (x : BitVec 1) (mk : VMask) : RoundTrip.Statement (.mand md ms1 ms2 x mk) := by
  intro h w hw
  cases hw
  rw [decode, decodeRaw_43]
  simp [decode2B, Option.filter, h]
theorem RoundTrip.mor (md : MReg) (ms1 : MReg) (ms2 : MReg) (x : BitVec 1) (mk : VMask) : RoundTrip.Statement (.mor md ms1 ms2 x mk) := by
  intro h w hw
  cases hw
  rw [decode, decodeRaw_43]
  simp [decode2B, Option.filter, h]
theorem RoundTrip.mxor (md : MReg) (ms1 : MReg) (ms2 : MReg) (x : BitVec 1) (mk : VMask) : RoundTrip.Statement (.mxor md ms1 ms2 x mk) := by
  intro h w hw
  cases hw
  rw [decode, decodeRaw_43]
  simp [decode2B, Option.filter, h]
theorem RoundTrip.mandn (md : MReg) (ms1 : MReg) (ms2 : MReg) (x : BitVec 1) (mk : VMask) : RoundTrip.Statement (.mandn md ms1 ms2 x mk) := by
  intro h w hw
  cases hw
  rw [decode, decodeRaw_43]
  simp [decode2B, Option.filter, h]
theorem RoundTrip.mnot (md : MReg) (ms1 : MReg) (x : BitVec 1) (mk : VMask) : RoundTrip.Statement (.mnot md ms1 x mk) := by
  intro h w hw
  cases hw
  rw [decode, decodeRaw_43]
  simp [decode2B, Option.filter, h]
theorem RoundTrip.mset (md : MReg) (x : BitVec 1) (mk : VMask) : RoundTrip.Statement (.mset md x mk) := by
  intro h w hw
  cases hw
  rw [decode, decodeRaw_43]
  simp [decode2B, Option.filter, h]
theorem RoundTrip.mclr (md : MReg) (x : BitVec 1) (mk : VMask) : RoundTrip.Statement (.mclr md x mk) := by
  intro h w hw
  cases hw
  rw [decode, decodeRaw_43]
  simp [decode2B, Option.filter, h]
theorem RoundTrip.mpopc (rd : XReg) (ms1 : MReg) (mk : VMask) : RoundTrip.Statement (.mpopc rd ms1 mk) := by
  intro h w hw
  cases hw
  rw [decode, decodeRaw_43]
  simp [decode2B, Option.filter, h]
theorem RoundTrip.mfirst (rd : XReg) (ms1 : MReg) (mk : VMask) : RoundTrip.Statement (.mfirst rd ms1 mk) := by
  intro h w hw
  cases hw
  rw [decode, decodeRaw_43]
  simp [decode2B, Option.filter, h]
theorem RoundTrip.vshuf (vd : VReg) (vs1 : VReg) (vi : VReg) (mk : VMask) : RoundTrip.Statement (.vshuf vd vs1 vi mk) := by
  intro h w hw
  cases hw
  rw [decode, decodeRaw_44]
  simp [decode2C, Option.filter, h]
theorem RoundTrip.vslideup (vd : VReg) (vs1 : VReg) (rs2 : XReg) (mk : VMask) : RoundTrip.Statement (.vslideup vd vs1 rs2 mk) := by
  intro h w hw
  cases hw
  rw [decode, decodeRaw_44]
  simp [decode2C, Option.filter, h]
theorem RoundTrip.vslidedn (vd : VReg) (vs1 : VReg) (rs2 : XReg) (mk : VMask) : RoundTrip.Statement (.vslidedn vd vs1 rs2 mk) := by
  intro h w hw
  cases hw
  rw [decode, decodeRaw_44]
  simp [decode2C, Option.filter, h]
theorem RoundTrip.vcompress (vd : VReg) (vs1 : VReg) (mr : MReg) : RoundTrip.Statement (.vcompress vd vs1 mr) := by
  intro h w hw
  cases hw
  rw [decode, decodeRaw_44]
  simp [decode2C, Option.filter, h]
theorem RoundTrip.vexpand (vd : VReg) (vs1 : VReg) (mr : MReg) : RoundTrip.Statement (.vexpand vd vs1 mr) := by
  intro h w hw
  cases hw
  rw [decode, decodeRaw_44]
  simp [decode2C, Option.filter, h]
theorem RoundTrip.vdense (vd : VReg) (vs1 : VReg) (c : XReg) (x : BitVec 1) (mk : VMask) : RoundTrip.Statement (.vdense vd vs1 c x mk) := by
  intro h w hw
  cases hw
  rw [decode, decodeRaw_44]
  simp [decode2C, Option.filter, h]
theorem RoundTrip.vredSum (d : XReg) (vs1 : VReg) (x : BitVec 1) (mk : VMask) : RoundTrip.Statement (.vredSum d vs1 x mk) := by
  intro h w hw
  cases hw
  rw [decode, decodeRaw_44]
  simp [decode2C, Option.filter, h]
theorem RoundTrip.vredMin (d : XReg) (vs1 : VReg) (x : BitVec 1) (mk : VMask) : RoundTrip.Statement (.vredMin d vs1 x mk) := by
  intro h w hw
  cases hw
  rw [decode, decodeRaw_44]
  simp [decode2C, Option.filter, h]
theorem RoundTrip.vredMax (d : XReg) (vs1 : VReg) (x : BitVec 1) (mk : VMask) : RoundTrip.Statement (.vredMax d vs1 x mk) := by
  intro h w hw
  cases hw
  rw [decode, decodeRaw_44]
  simp [decode2C, Option.filter, h]
theorem RoundTrip.vredMinu (d : XReg) (vs1 : VReg) (x : BitVec 1) (mk : VMask) : RoundTrip.Statement (.vredMinu d vs1 x mk) := by
  intro h w hw
  cases hw
  rw [decode, decodeRaw_44]
  simp [decode2C, Option.filter, h]
theorem RoundTrip.vredMaxu (d : XReg) (vs1 : VReg) (x : BitVec 1) (mk : VMask) : RoundTrip.Statement (.vredMaxu d vs1 x mk) := by
  intro h w hw
  cases hw
  rw [decode, decodeRaw_44]
  simp [decode2C, Option.filter, h]
theorem RoundTrip.vredAnd (d : XReg) (vs1 : VReg) (x : BitVec 1) (mk : VMask) : RoundTrip.Statement (.vredAnd d vs1 x mk) := by
  intro h w hw
  cases hw
  rw [decode, decodeRaw_44]
  simp [decode2C, Option.filter, h]
theorem RoundTrip.vredOr (d : XReg) (vs1 : VReg) (x : BitVec 1) (mk : VMask) : RoundTrip.Statement (.vredOr d vs1 x mk) := by
  intro h w hw
  cases hw
  rw [decode, decodeRaw_44]
  simp [decode2C, Option.filter, h]
theorem RoundTrip.vredXor (d : XReg) (vs1 : VReg) (x : BitVec 1) (mk : VMask) : RoundTrip.Statement (.vredXor d vs1 x mk) := by
  intro h w hw
  cases hw
  rw [decode, decodeRaw_44]
  simp [decode2C, Option.filter, h]
theorem RoundTrip.vredFsum (d : XReg) (vs1 : VReg) (x : BitVec 1) (mk : VMask) : RoundTrip.Statement (.vredFsum d vs1 x mk) := by
  intro h w hw
  cases hw
  rw [decode, decodeRaw_44]
  simp [decode2C, Option.filter, h]
theorem RoundTrip.vredFmin (d : XReg) (vs1 : VReg) (x : BitVec 1) (mk : VMask) : RoundTrip.Statement (.vredFmin d vs1 x mk) := by
  intro h w hw
  cases hw
  rw [decode, decodeRaw_44]
  simp [decode2C, Option.filter, h]
theorem RoundTrip.vredFmax (d : XReg) (vs1 : VReg) (x : BitVec 1) (mk : VMask) : RoundTrip.Statement (.vredFmax d vs1 x mk) := by
  intro h w hw
  cases hw
  rw [decode, decodeRaw_44]
  simp [decode2C, Option.filter, h]
theorem RoundTrip.vscanSum (vd : VReg) (vs1 : VReg) (mk : VMask) : RoundTrip.Statement (.vscanSum vd vs1 mk) := by
  intro h w hw
  cases hw
  rw [decode, decodeRaw_44]
  simp [decode2C, Option.filter, h]
theorem RoundTrip.vscanMin (vd : VReg) (vs1 : VReg) (mk : VMask) : RoundTrip.Statement (.vscanMin vd vs1 mk) := by
  intro h w hw
  cases hw
  rw [decode, decodeRaw_44]
  simp [decode2C, Option.filter, h]
theorem RoundTrip.vscanMax (vd : VReg) (vs1 : VReg) (mk : VMask) : RoundTrip.Statement (.vscanMax vd vs1 mk) := by
  intro h w hw
  cases hw
  rw [decode, decodeRaw_44]
  simp [decode2C, Option.filter, h]
theorem RoundTrip.vscanMinu (vd : VReg) (vs1 : VReg) (mk : VMask) : RoundTrip.Statement (.vscanMinu vd vs1 mk) := by
  intro h w hw
  cases hw
  rw [decode, decodeRaw_44]
  simp [decode2C, Option.filter, h]
theorem RoundTrip.vscanMaxu (vd : VReg) (vs1 : VReg) (mk : VMask) : RoundTrip.Statement (.vscanMaxu vd vs1 mk) := by
  intro h w hw
  cases hw
  rw [decode, decodeRaw_44]
  simp [decode2C, Option.filter, h]
theorem RoundTrip.vscanAnd (vd : VReg) (vs1 : VReg) (mk : VMask) : RoundTrip.Statement (.vscanAnd vd vs1 mk) := by
  intro h w hw
  cases hw
  rw [decode, decodeRaw_44]
  simp [decode2C, Option.filter, h]
theorem RoundTrip.vscanOr (vd : VReg) (vs1 : VReg) (mk : VMask) : RoundTrip.Statement (.vscanOr vd vs1 mk) := by
  intro h w hw
  cases hw
  rw [decode, decodeRaw_44]
  simp [decode2C, Option.filter, h]
theorem RoundTrip.vscanXor (vd : VReg) (vs1 : VReg) (mk : VMask) : RoundTrip.Statement (.vscanXor vd vs1 mk) := by
  intro h w hw
  cases hw
  rw [decode, decodeRaw_44]
  simp [decode2C, Option.filter, h]
theorem RoundTrip.vscanFsum (vd : VReg) (vs1 : VReg) (mk : VMask) : RoundTrip.Statement (.vscanFsum vd vs1 mk) := by
  intro h w hw
  cases hw
  rw [decode, decodeRaw_44]
  simp [decode2C, Option.filter, h]
theorem RoundTrip.vmv (vd : VReg) (vs1 : VReg) (mk : VMask) : RoundTrip.Statement (.vmv vd vs1 mk) := by
  intro h w hw
  cases hw
  rw [decode, decodeRaw_46]
  simp [decode2E, Option.filter, h]
theorem RoundTrip.vmerge (vd : VReg) (vs1 : VReg) (c : XReg) (x : BitVec 1) (mr : MReg) : RoundTrip.Statement (.vmerge vd vs1 c x mr) := by
  intro h w hw
  cases hw
  rw [decode, decodeRaw_46]
  simp [decode2E, Option.filter, h]
theorem RoundTrip.vbcast (vd : VReg) (rs2 : XReg) (mk : VMask) : RoundTrip.Statement (.vbcast vd rs2 mk) := by
  intro h w hw
  cases hw
  rw [decode, decodeRaw_46]
  simp [decode2E, Option.filter, h]
theorem RoundTrip.vmvxs (rd : XReg) (vs1 : VReg) : RoundTrip.Statement (.vmvxs rd vs1) := by
  intro h w hw
  cases hw
  rw [decode, decodeRaw_46]
  simp [decode2E, Option.filter, h]
theorem RoundTrip.vmvsx (vd : VReg) (rs2 : XReg) : RoundTrip.Statement (.vmvsx vd rs2) := by
  intro h w hw
  cases hw
  rw [decode, decodeRaw_46]
  simp [decode2E, Option.filter, h]
theorem RoundTrip.vid (vd : VReg) (mk : VMask) : RoundTrip.Statement (.vid vd mk) := by
  intro h w hw
  cases hw
  rw [decode, decodeRaw_46]
  simp [decode2E, Option.filter, h]
theorem RoundTrip.vld (vd : VReg) (base : XReg) (mk : VMask) : RoundTrip.Statement (.vld vd base mk) := by
  intro h w hw
  cases hw
  rw [decode, decodeRaw_45]
  simp [decode2D, Option.filter, h]
theorem RoundTrip.vlds (vd : VReg) (base : XReg) (rs : XReg) (mk : VMask) : RoundTrip.Statement (.vlds vd base rs mk) := by
  intro h w hw
  cases hw
  rw [decode, decodeRaw_45]
  simp [decode2D, Option.filter, h]
theorem RoundTrip.vldx (vd : VReg) (base : XReg) (vi : VReg) (iw : BitVec 2) (mk : VMask) : RoundTrip.Statement (.vldx vd base vi iw mk) := by
  intro h w hw
  cases hw
  rw [decode, decodeRaw_45]
  simp [decode2D, Option.filter, h]
theorem RoundTrip.vst (vs : VReg) (base : XReg) (mk : VMask) : RoundTrip.Statement (.vst vs base mk) := by
  intro h w hw
  cases hw
  rw [decode, decodeRaw_45]
  simp [decode2D, Option.filter, h]
theorem RoundTrip.vsts (vs : VReg) (base : XReg) (rs : XReg) (mk : VMask) : RoundTrip.Statement (.vsts vs base rs mk) := by
  intro h w hw
  cases hw
  rw [decode, decodeRaw_45]
  simp [decode2D, Option.filter, h]
theorem RoundTrip.vstx (vs : VReg) (base : XReg) (vi : VReg) (iw : BitVec 2) (mk : VMask) : RoundTrip.Statement (.vstx vs base vi iw mk) := by
  intro h w hw
  cases hw
  rw [decode, decodeRaw_45]
  simp [decode2D, Option.filter, h]
theorem RoundTrip.vldl (vd : VReg) (base : XReg) (vi : VReg) (iw : BitVec 2) (mk : VMask) : RoundTrip.Statement (.vldl vd base vi iw mk) := by
  intro h w hw
  cases hw
  rw [decode, decodeRaw_45]
  simp [decode2D, Option.filter, h]
theorem RoundTrip.vstc (vs : VReg) (base : XReg) (vi : VReg) (iw : BitVec 2) (mr : MReg) : RoundTrip.Statement (.vstc vs base vi iw mr) := by
  intro h w hw
  cases hw
  rw [decode, decodeRaw_45]
  simp [decode2D, Option.filter, h]
theorem RoundTrip.vamoAdd (vs : VReg) (base : XReg) (vi : VReg) (mk : VMask) : RoundTrip.Statement (.vamoAdd vs base vi mk) := by
  intro h w hw
  cases hw
  rw [decode, decodeRaw_45]
  simp [decode2D, Option.filter, h]
theorem RoundTrip.vamoMin (vs : VReg) (base : XReg) (vi : VReg) (mk : VMask) : RoundTrip.Statement (.vamoMin vs base vi mk) := by
  intro h w hw
  cases hw
  rw [decode, decodeRaw_45]
  simp [decode2D, Option.filter, h]
theorem RoundTrip.vamoMax (vs : VReg) (base : XReg) (vi : VReg) (mk : VMask) : RoundTrip.Statement (.vamoMax vs base vi mk) := by
  intro h w hw
  cases hw
  rw [decode, decodeRaw_45]
  simp [decode2D, Option.filter, h]
theorem RoundTrip.vamoFadd (vs : VReg) (base : XReg) (vi : VReg) (mk : VMask) : RoundTrip.Statement (.vamoFadd vs base vi mk) := by
  intro h w hw
  cases hw
  rw [decode, decodeRaw_45]
  simp [decode2D, Option.filter, h]
theorem RoundTrip.mattach (rd : XReg) (rs1 : XReg) : RoundTrip.Statement (.mattach rd rs1) := by
  intro h w hw
  cases hw
  rw [decode, decodeRaw_48]
  simp [decode30, Option.filter, h]
theorem RoundTrip.mdetach : RoundTrip.Statement (.mdetach) := by
  intro h w hw
  cases hw
  rw [decode, decodeRaw_48]
  simp [decode30, Option.filter, h]
theorem RoundTrip.mclaim (rd : XReg) (rs1 : XReg) : RoundTrip.Statement (.mclaim rd rs1) := by
  intro h w hw
  cases hw
  rw [decode, decodeRaw_48]
  simp [decode30, Option.filter, h]
theorem RoundTrip.mrelease (os : Slot) : RoundTrip.Statement (.mrelease os) := by
  intro h w hw
  cases hw
  rw [decode, decodeRaw_48]
  simp [decode30, Option.filter, h]
theorem RoundTrip.mlda (os : Slot) (base : XReg) (rs : XReg) (sp : BitVec 1) (fmt : BitVec 2) : RoundTrip.Statement (.mlda os base rs sp fmt) := by
  intro h w hw
  cases hw
  rw [decode, decodeRaw_48]
  simp [decode30, Option.filter, h]
theorem RoundTrip.mldb (os : Slot) (base : XReg) (rs : XReg) (fmt : BitVec 2) : RoundTrip.Statement (.mldb os base rs fmt) := by
  intro h w hw
  cases hw
  rw [decode, decodeRaw_48]
  simp [decode30, Option.filter, h]
theorem RoundTrip.mzero (t : BitVec 2) : RoundTrip.Statement (.mzero t) := by
  intro h w hw
  cases hw
  rw [decode, decodeRaw_48]
  simp [decode30, Option.filter, h]
theorem RoundTrip.mop (t : BitVec 2) (osa : Slot) (osb : Slot) (rs : XReg) (z : BitVec 1) : RoundTrip.Statement (.mop t osa osb rs z) := by
  intro h w hw
  cases hw
  rw [decode, decodeRaw_48]
  simp [decode30, Option.filter, h]
theorem RoundTrip.mtmv (vd : VReg) (t : BitVec 2) (rs : XReg) (mk : VMask) : RoundTrip.Statement (.mtmv vd t rs mk) := by
  intro h w hw
  cases hw
  rw [decode, decodeRaw_48]
  simp [decode30, Option.filter, h]
theorem RoundTrip.mvtm (t : BitVec 2) (vs : VReg) (rs : XReg) (mk : VMask) : RoundTrip.Statement (.mvtm t vs rs mk) := by
  intro h w hw
  cases hw
  rw [decode, decodeRaw_48]
  simp [decode30, Option.filter, h]
theorem RoundTrip.mtld (t : BitVec 2) (base : XReg) (rs : XReg) : RoundTrip.Statement (.mtld t base rs) := by
  intro h w hw
  cases hw
  rw [decode, decodeRaw_48]
  simp [decode30, Option.filter, h]
theorem RoundTrip.mtst (t : BitVec 2) (base : XReg) (rs : XReg) (h : BitVec 1) : RoundTrip.Statement (.mtst t base rs h) := by
  intro h w hw
  cases hw
  rw [decode, decodeRaw_48]
  simp [decode30, Option.filter, h]
theorem RoundTrip.mprune (osd : Slot) (oss : Slot) (rs : XReg) : RoundTrip.Statement (.mprune osd oss rs) := by
  intro h w hw
  cases hw
  rw [decode, decodeRaw_48]
  simp [decode30, Option.filter, h]
theorem RoundTrip.mhdr (rd : XReg) (os : Slot) (l : BitVec 1) : RoundTrip.Statement (.mhdr rd os l) := by
  intro h w hw
  cases hw
  rw [decode, decodeRaw_48]
  simp [decode30, Option.filter, h]
theorem RoundTrip.mwait (rd : XReg) (rs1 : XReg) : RoundTrip.Statement (.mwait rd rs1) := by
  intro h w hw
  cases hw
  rw [decode, decodeRaw_48]
  simp [decode30, Option.filter, h]
theorem RoundTrip.pcopy (rd : XReg) (rs1 : XReg) : RoundTrip.Statement (.pcopy rd rs1) := by
  intro h w hw
  cases hw
  rw [decode, decodeRaw_49]
  simp [decode31, Option.filter, h]
theorem RoundTrip.pfill (rd : XReg) (rs1 : XReg) : RoundTrip.Statement (.pfill rd rs1) := by
  intro h w hw
  cases hw
  rw [decode, decodeRaw_49]
  simp [decode31, Option.filter, h]
theorem RoundTrip.pwait (rd : XReg) (rs1 : XReg) : RoundTrip.Statement (.pwait rd rs1) := by
  intro h w hw
  cases hw
  rw [decode, decodeRaw_49]
  simp [decode31, Option.filter, h]
theorem RoundTrip.ppoll (rd : XReg) (rs1 : XReg) : RoundTrip.Statement (.ppoll rd rs1) := by
  intro h w hw
  cases hw
  rw [decode, decodeRaw_49]
  simp [decode31, Option.filter, h]
theorem RoundTrip.pcancel (rd : XReg) (rs1 : XReg) : RoundTrip.Statement (.pcancel rd rs1) := by
  intro h w hw
  cases hw
  rw [decode, decodeRaw_49]
  simp [decode31, Option.filter, h]
theorem RoundTrip.clload (rd : XReg) (rs1 : XReg) (rs2 : XReg) : RoundTrip.Statement (.clload rd rs1 rs2) := by
  intro h w hw
  cases hw
  rw [decode, decodeRaw_50]
  simp [decode32, Option.filter, h]
theorem RoundTrip.clquery (vd : VReg) (vi : VReg) (rs1 : XReg) : RoundTrip.Statement (.clquery vd vi rs1) := by
  intro h w hw
  cases hw
  rw [decode, decodeRaw_50]
  simp [decode32, Option.filter, h]
theorem RoundTrip.clrun (rd : XReg) (rs1 : XReg) (rs2 : XReg) : RoundTrip.Statement (.clrun rd rs1 rs2) := by
  intro h w hw
  cases hw
  rw [decode, decodeRaw_50]
  simp [decode32, Option.filter, h]
theorem RoundTrip.clwait (rd : XReg) (rs1 : XReg) : RoundTrip.Statement (.clwait rd rs1) := by
  intro h w hw
  cases hw
  rw [decode, decodeRaw_50]
  simp [decode32, Option.filter, h]
theorem RoundTrip.pfx (p : PReg) (sense : BitVec 1) (ce : BitVec 1) (copy : XReg) : RoundTrip.Statement (.pfx p sense ce copy) := by
  intro h w hw
  cases hw
  rw [decode, decodeRaw_63]
  simp [Option.filter, h]
theorem RoundTrip.tlbinv (v : Word) : RoundTrip.Statement (.tlbinv v) := fun _ _ h => nomatch h
theorem RoundTrip.vtypeWrite (v : Word) : RoundTrip.Statement (.vtypeWrite v) := fun _ _ h => nomatch h
theorem RoundTrip.registerWrite (cr : BitVec 11) (v : Word) : RoundTrip.Statement (.registerWrite cr v) := fun _ _ h => nomatch h
theorem RoundTrip.interruptEntry : RoundTrip.Statement (.interruptEntry) := fun _ _ h => nomatch h
theorem RoundTrip.userCompletion : RoundTrip.Statement (.userCompletion) := fun _ _ h => nomatch h
theorem RoundTrip.saveFull : RoundTrip.Statement (.saveFull) := fun _ _ h => nomatch h
theorem RoundTrip.localCompare : RoundTrip.Statement (.localCompare) := fun _ _ h => nomatch h
theorem RoundTrip.memoryReply : RoundTrip.Statement (.memoryReply) := fun _ _ h => nomatch h
theorem RoundTrip.divideComplete : RoundTrip.Statement (.divideComplete) := fun _ _ h => nomatch h
theorem RoundTrip.fenceWaitEnd : RoundTrip.Statement (.fenceWaitEnd) := fun _ _ h => nomatch h
theorem RoundTrip.vectorOrderWaitEnd : RoundTrip.Statement (.vectorOrderWaitEnd) := fun _ _ h => nomatch h
theorem RoundTrip.queueEntryFree : RoundTrip.Statement (.queueEntryFree) := fun _ _ h => nomatch h
theorem RoundTrip.drainEnd : RoundTrip.Statement (.drainEnd) := fun _ _ h => nomatch h
theorem RoundTrip.sleepWake : RoundTrip.Statement (.sleepWake) := fun _ _ h => nomatch h
theorem RoundTrip.cstopWaitEnd : RoundTrip.Statement (.cstopWaitEnd) := fun _ _ h => nomatch h
theorem RoundTrip.creapWaitEnd : RoundTrip.Statement (.creapWaitEnd) := fun _ _ h => nomatch h
theorem RoundTrip.joinlTakeover : RoundTrip.Statement (.joinlTakeover) := fun _ _ h => nomatch h
theorem RoundTrip.hwmRecheck : RoundTrip.Statement (.hwmRecheck) := fun _ _ h => nomatch h
theorem RoundTrip.ctwrWaitEnd : RoundTrip.Statement (.ctwrWaitEnd) := fun _ _ h => nomatch h
theorem RoundTrip.streamIndexWaitEnd : RoundTrip.Statement (.streamIndexWaitEnd) := fun _ _ h => nomatch h
theorem RoundTrip.tlbinvWaitEnd : RoundTrip.Statement (.tlbinvWaitEnd) := fun _ _ h => nomatch h
theorem RoundTrip.vectorQueueEntry (core : Nat) (base : Nat) : RoundTrip.Statement (.vectorQueueEntry core base) := fun _ _ h => nomatch h
theorem RoundTrip.vectorDataPhase (core : Nat) (base : Nat) : RoundTrip.Statement (.vectorDataPhase core base) := fun _ _ h => nomatch h
theorem RoundTrip.probeQuery (n : Nat) (m : Option MsgIn) : RoundTrip.Statement (.probeQuery n m) := fun _ _ h => nomatch h
theorem RoundTrip.answer (n : Nat) (m : Option MsgIn) : RoundTrip.Statement (.answer n m) := fun _ _ h => nomatch h
theorem RoundTrip.barrierWaitEnd : RoundTrip.Statement (.barrierWaitEnd) := fun _ _ h => nomatch h
theorem RoundTrip.scatterDrainEnd : RoundTrip.Statement (.scatterDrainEnd) := fun _ _ h => nomatch h
theorem RoundTrip.jobWaitEnd : RoundTrip.Statement (.jobWaitEnd) := fun _ _ h => nomatch h
theorem RoundTrip.attachJob (tile : Nat) : RoundTrip.Statement (.attachJob tile) := fun _ _ h => nomatch h
theorem RoundTrip.detachJob (tile : Nat) : RoundTrip.Statement (.detachJob tile) := fun _ _ h => nomatch h
theorem RoundTrip.slotReleaseJob (tile : Nat) : RoundTrip.Statement (.slotReleaseJob tile) := fun _ _ h => nomatch h
theorem RoundTrip.operandLoadJob (tile : Nat) : RoundTrip.Statement (.operandLoadJob tile) := fun _ _ h => nomatch h
theorem RoundTrip.accumulatorJob (tile : Nat) : RoundTrip.Statement (.accumulatorJob tile) := fun _ _ h => nomatch h
theorem RoundTrip.mopJob (tile : Nat) : RoundTrip.Statement (.mopJob tile) := fun _ _ h => nomatch h
theorem RoundTrip.pruneJob (tile : Nat) : RoundTrip.Statement (.pruneJob tile) := fun _ _ h => nomatch h
theorem RoundTrip.governorWindow (tile : Nat) (held : Nat) : RoundTrip.Statement (.governorWindow tile held) := fun _ _ h => nomatch h
theorem RoundTrip.porterJob (tile : Nat) (n : Nat) : RoundTrip.Statement (.porterJob tile n) := fun _ _ h => nomatch h
theorem RoundTrip.completionPlaceWaitEnd : RoundTrip.Statement (.completionPlaceWaitEnd) := fun _ _ h => nomatch h
theorem RoundTrip.blockTransfer (tile : Nat) (n : Nat) : RoundTrip.Statement (.blockTransfer tile n) := fun _ _ h => nomatch h
theorem RoundTrip.cellarLoadJob (tile : Nat) : RoundTrip.Statement (.cellarLoadJob tile) := fun _ _ h => nomatch h
theorem RoundTrip.kernelMove (tile : Nat) : RoundTrip.Statement (.kernelMove tile) := fun _ _ h => nomatch h
theorem RoundTrip.hbmRefresh (tile : Nat) (row : Nat) : RoundTrip.Statement (.hbmRefresh tile row) := fun _ _ h => nomatch h
theorem RoundTrip.hbmTempSample (stack : Nat) (temp : BitVec 10) : RoundTrip.Statement (.hbmTempSample stack temp) := fun _ _ h => nomatch h
theorem RoundTrip.thermalSample (die : Nat) (temp : BitVec 10) : RoundTrip.Statement (.thermalSample die temp) := fun _ _ h => nomatch h
theorem RoundTrip.droopBegin (stack : Nat) : RoundTrip.Statement (.droopBegin stack) := fun _ _ h => nomatch h
theorem RoundTrip.droopEnd (stack : Nat) (cycles : Nat) : RoundTrip.Statement (.droopEnd stack cycles) := fun _ _ h => nomatch h
theorem RoundTrip.powerUpdate (watts : BitVec 16) : RoundTrip.Statement (.powerUpdate watts) := fun _ _ h => nomatch h
theorem RoundTrip.dispatch (lseq : Nat) (tiles : List Nat) : RoundTrip.Statement (.dispatch lseq tiles) := fun _ _ h => nomatch h
theorem RoundTrip.placementComplete (lseq : Nat) : RoundTrip.Statement (.placementComplete lseq) := fun _ _ h => nomatch h
theorem RoundTrip.preemption (lseq : Nat) : RoundTrip.Statement (.preemption lseq) := fun _ _ h => nomatch h
theorem RoundTrip.processRestore (lseq : Nat) : RoundTrip.Statement (.processRestore lseq) := fun _ _ h => nomatch h
theorem RoundTrip.run (tile : Nat) : RoundTrip.Statement (.run tile) := fun _ _ h => nomatch h
theorem RoundTrip.quiesce (tile : Nat) : RoundTrip.Statement (.quiesce tile) := fun _ _ h => nomatch h
theorem RoundTrip.gate (tile : Nat) : RoundTrip.Statement (.gate tile) := fun _ _ h => nomatch h
theorem RoundTrip.wake (tile : Nat) : RoundTrip.Statement (.wake tile) := fun _ _ h => nomatch h
theorem RoundTrip.quiesceComplete (tile : Nat) : RoundTrip.Statement (.quiesceComplete tile) := fun _ _ h => nomatch h
theorem RoundTrip.gatingComplete (tile : Nat) : RoundTrip.Statement (.gatingComplete tile) := fun _ _ h => nomatch h
theorem RoundTrip.wakingComplete (tile : Nat) : RoundTrip.Statement (.wakingComplete tile) := fun _ _ h => nomatch h
theorem RoundTrip.nak (link : Nat) (ftag : Nat) : RoundTrip.Statement (.nak link ftag) := fun _ _ h => nomatch h
theorem RoundTrip.ack (m : MsgIn) : RoundTrip.Statement (.ack m) := fun _ _ h => nomatch h
theorem RoundTrip.offer (m : MsgIn) : RoundTrip.Statement (.offer m) := fun _ _ h => nomatch h
theorem RoundTrip.commit (m : MsgIn) : RoundTrip.Statement (.commit m) := fun _ _ h => nomatch h
theorem RoundTrip.data (m : MsgIn) : RoundTrip.Statement (.data m) := fun _ _ h => nomatch h
theorem RoundTrip.close (m : MsgIn) : RoundTrip.Statement (.close m) := fun _ _ h => nomatch h
theorem RoundTrip.linkUp (link : Nat) : RoundTrip.Statement (.linkUp link) := fun _ _ h => nomatch h
theorem RoundTrip.linkTrainingTimeout (link : Nat) : RoundTrip.Statement (.linkTrainingTimeout link) := fun _ _ h => nomatch h
theorem RoundTrip.linkRetry (link : Nat) : RoundTrip.Statement (.linkRetry link) := fun _ _ h => nomatch h
theorem RoundTrip.ackTimer (peer : Nat) : RoundTrip.Statement (.ackTimer peer) := fun _ _ h => nomatch h
theorem RoundTrip.resendTimer (peer : Nat) : RoundTrip.Statement (.resendTimer peer) := fun _ _ h => nomatch h
theorem RoundTrip.admitLaunch (m : MsgIn) : RoundTrip.Statement (.admitLaunch m) := fun _ _ h => nomatch h
theorem RoundTrip.admitted (m : MsgIn) : RoundTrip.Statement (.admitted m) := fun _ _ h => nomatch h
theorem RoundTrip.image (m : MsgIn) : RoundTrip.Statement (.image m) := fun _ _ h => nomatch h
theorem RoundTrip.reserve (m : MsgIn) : RoundTrip.Statement (.reserve m) := fun _ _ h => nomatch h
theorem RoundTrip.reserved (m : MsgIn) : RoundTrip.Statement (.reserved m) := fun _ _ h => nomatch h
theorem RoundTrip.place (m : MsgIn) : RoundTrip.Statement (.place m) := fun _ _ h => nomatch h
theorem RoundTrip.placed (m : MsgIn) : RoundTrip.Statement (.placed m) := fun _ _ h => nomatch h
theorem RoundTrip.stopped (m : MsgIn) : RoundTrip.Statement (.stopped m) := fun _ _ h => nomatch h
theorem RoundTrip.endMsg (m : MsgIn) : RoundTrip.Statement (.endMsg m) := fun _ _ h => nomatch h
theorem RoundTrip.ended (m : MsgIn) : RoundTrip.Statement (.ended m) := fun _ _ h => nomatch h
theorem RoundTrip.knot (m : MsgIn) : RoundTrip.Statement (.knot m) := fun _ _ h => nomatch h
theorem RoundTrip.switch (m : MsgIn) : RoundTrip.Statement (.switch m) := fun _ _ h => nomatch h
theorem RoundTrip.switched (m : MsgIn) : RoundTrip.Statement (.switched m) := fun _ _ h => nomatch h
theorem RoundTrip.commitsave (m : MsgIn) : RoundTrip.Statement (.commitsave m) := fun _ _ h => nomatch h
theorem RoundTrip.restore (m : MsgIn) : RoundTrip.Statement (.restore m) := fun _ _ h => nomatch h
theorem RoundTrip.restored (m : MsgIn) : RoundTrip.Statement (.restored m) := fun _ _ h => nomatch h
theorem RoundTrip.join (m : MsgIn) : RoundTrip.Statement (.join m) := fun _ _ h => nomatch h
theorem RoundTrip.joined (m : MsgIn) : RoundTrip.Statement (.joined m) := fun _ _ h => nomatch h
theorem RoundTrip.park (m : MsgIn) : RoundTrip.Statement (.park m) := fun _ _ h => nomatch h
theorem RoundTrip.stage (q : HostReq) : RoundTrip.Statement (.stage q) := fun _ _ h => nomatch h
theorem RoundTrip.submit (q : HostReq) : RoundTrip.Statement (.submit q) := fun _ _ h => nomatch h
theorem RoundTrip.cancel (q : HostReq) : RoundTrip.Statement (.cancel q) := fun _ _ h => nomatch h
theorem RoundTrip.query (q : HostReq) : RoundTrip.Statement (.query q) := fun _ _ h => nomatch h
theorem RoundTrip.knotlog (q : HostReq) : RoundTrip.Statement (.knotlog q) := fun _ _ h => nomatch h
theorem RoundTrip.floor (q : HostReq) : RoundTrip.Statement (.floor q) := fun _ _ h => nomatch h
theorem RoundTrip.attest (q : HostReq) : RoundTrip.Statement (.attest q) := fun _ _ h => nomatch h
theorem RoundTrip.release (q : HostReq) : RoundTrip.Statement (.release q) := fun _ _ h => nomatch h
theorem RoundTrip.rdmaWrite (w : RdmaWrite) : RoundTrip.Statement (.rdmaWrite w) := fun _ _ h => nomatch h
theorem RoundTrip.deviceReset (b : BootInput) : RoundTrip.Statement (.deviceReset b) := fun _ _ h => nomatch h
theorem RoundTrip.securityAlarm : RoundTrip.Statement (.securityAlarm) := fun _ _ h => nomatch h
theorem RoundTrip.illegalInsn (w : Insn) : RoundTrip.Statement (.illegalInsn w) := fun _ _ h => nomatch h
theorem RoundTrip.pageFaultFetch : RoundTrip.Statement (.pageFaultFetch) := fun _ _ h => nomatch h
theorem RoundTrip.flitRejected (link : Nat) (f : Flit) : RoundTrip.Statement (.flitRejected link f) := fun _ _ h => nomatch h
theorem RoundTrip.transitFlit (m : MsgIn) : RoundTrip.Statement (.transitFlit m) := fun _ _ h => nomatch h
theorem RoundTrip.badCommand (q : HostReq) : RoundTrip.Statement (.badCommand q) := fun _ _ h => nomatch h
theorem RoundTrip.reportSigned (salt : BitVec 512) : RoundTrip.Statement (.reportSigned salt) := fun _ _ h => nomatch h

end Sys2Proof.Laws
end

