-- ==== Sys2Proof/Machine/Zelas.lean ====
section
/-! DEFINITION. Sys2Proof/Machine/Zelas.lean: what the zelas assembler makes of a source whose lines have been read: expressions (R56), range checks (R57), pseudo-instructions (R58), directives, sections and tables (R59, R61), launch records (R60, R226 to R229). No step uses it (log entry 70). -/

namespace Sys2Proof.Machine

/-- An identifier. Sources do not tell capitals from small letters (R54). -/
abbrev ZName := List Char

def ZName.same (a b : ZName) : Bool := a.map Char.toLower == b.map Char.toLower

/-- The three sections (R59). -/
inductive ZSec where
  | text
  | data
  | rodata
deriving DecidableEq, Repr

/-- An expression (R56); here is the symbol `.`. -/
inductive ZExpr where
  | num (v : Int)
  | here
  | name (n : ZName)
  | neg (a : ZExpr)
  | inv (a : ZExpr)
  | mul (a b : ZExpr)
  | div (a b : ZExpr)
  | rem (a b : ZExpr)
  | add (a b : ZExpr)
  | sub (a b : ZExpr)
  | shl (a b : ZExpr)
  | shr (a b : ZExpr)
  | and (a b : ZExpr)
  | xor (a b : ZExpr)
  | or (a b : ZExpr)
deriving DecidableEq, Repr

/-- The complement of an unbounded integer. -/
def intInv (a : Int) : Int := -a - 1

/-- AND, OR and XOR of unbounded integers in two's complement. -/
def intAnd : Int → Int → Int
  | .ofNat a, .ofNat b => .ofNat (a &&& b)
  | .ofNat a, .negSucc b => .ofNat (a ^^^ (a &&& b))
  | .negSucc a, .ofNat b => .ofNat (b ^^^ (b &&& a))
  | .negSucc a, .negSucc b => .negSucc (a ||| b)

def intOr (a b : Int) : Int := intInv (intAnd (intInv a) (intInv b))

def intXor (a b : Int) : Int := intAnd (intOr a b) (intInv (intAnd a b))

/-- The value of an expression: division and remainder by zero are errors (R56); so is a shift by a negative count, and the remainder goes with the quotient towards zero (log entry 70). -/
def ZExpr.eval (env : ZName → Option Int) (pc : Nat) : ZExpr → Option Int
  | .num v => some v
  | .here => some pc
  | .name n => env n
  | .neg a => (a.eval env pc).map fun x => -x
  | .inv a => (a.eval env pc).map intInv
  | .mul a b => (a.eval env pc).bind fun x => (b.eval env pc).map fun y => x * y
  | .div a b => (a.eval env pc).bind fun x => (b.eval env pc).bind fun y => if y = 0 then none else some (x.tdiv y)
  | .rem a b => (a.eval env pc).bind fun x => (b.eval env pc).bind fun y => if y = 0 then none else some (x.tmod y)
  | .add a b => (a.eval env pc).bind fun x => (b.eval env pc).map fun y => x + y
  | .sub a b => (a.eval env pc).bind fun x => (b.eval env pc).map fun y => x - y
  | .shl a b => (a.eval env pc).bind fun x => (b.eval env pc).bind fun y => if y < 0 then none else some (x * 2 ^ y.toNat)
  | .shr a b => (a.eval env pc).bind fun x => (b.eval env pc).bind fun y => if y < 0 then none else some (x.fdiv (2 ^ y.toNat))
  | .and a b => (a.eval env pc).bind fun x => (b.eval env pc).map (intAnd x)
  | .xor a b => (a.eval env pc).bind fun x => (b.eval env pc).map (intXor x)
  | .or a b => (a.eval env pc).bind fun x => (b.eval env pc).map (intOr x)

/-- A field of an instruction that an expression fills (R55, R57): imm16, shamt, h, off12, a branch or jump target, a control register. -/
inductive ZField where
  | imm
  | shamt
  | half
  | off
  | target
  | creg
deriving DecidableEq, Repr

/-- Whether a value lies in a range. -/
def within (lo hi v : Int) : Bool := lo ≤ v && v ≤ hi

/-- The bits that a field's value puts into a word, after the check of its range (R57, R31, R36, R43): none is an error. -/
def ZField.bits (f : ZField) (w : Insn) (pc : Nat) (v : Int) : Option Insn :=
  let m := (w.extractLsb' 26 6).toNat
  let put (ok : Bool) (n : Nat) (x : Int) : Option Insn := if ok then some ((BitVec.ofInt n x).setWidth 32) else none
  match f with
  | .imm =>
    if m == 2 || m == 6 || m == 7 || m == 0x19 then put (within (-32768) 32767 v) 16 v
    else if m == 3 || m == 4 || m == 5 then put (within 0 65535 v) 16 v
    else if m == 9 then put (within (-32768) 65535 v) 16 v
    else none
  | .shamt => if m == 8 then put (within 0 63 v) 6 v else none
  | .half => if m == 9 then (put (within 0 3 v) 2 v).map fun (x : Insn) => x <<< 16 else none
  | .off => if m == 0x1A || m == 0x1B then put (within (-2048) 2047 v) 12 v else none
  | .target =>
    let d := v - pc
    if 0x10 ≤ m && m ≤ 0x16 then put (d.tmod 4 == 0 && within (-131072) 131068 d) 16 (d.tdiv 4)
    else if m == 0x17 || m == 0x18 then put (d.tmod 4 == 0 && within (-134217728) 134217724 d) 26 (d.tdiv 4)
    else none
  | .creg =>
    let c := (w.extractLsb' 11 5).toNat
    if m == 0x1F && 4 ≤ c && c ≤ 7 then put (within 0 2047 v) 11 v else none

/-- The bits of a word that a field occupies. -/
def ZField.mask (f : ZField) (w : Insn) : Insn :=
  let m := (w.extractLsb' 26 6).toNat
  match f with
  | .imm => 0xFFFF#32
  | .shamt => 0x3F#32
  | .half => 0x30000#32
  | .off => 0xFFF#32
  | .target => if m == 0x17 || m == 0x18 then 0x3FFFFFF#32 else 0xFFFF#32
  | .creg => 0x7FF#32

/-- Fill one field of a word, in place of what the word holds there. -/
def ZField.fill (f : ZField) (w : Insn) (pc : Nat) (v : Int) : Option Insn :=
  (f.bits w pc v).map fun x => (w &&& ~~~(f.mask w)) ||| x

/-- LI (R58): ADDI where the value is that of a signed halfword; else ORI and an LIH for each further halfword that is not zero. -/
def liInsns (d : XReg) (v : Int) : List Instr :=
  if within (-32768) 32767 v then [.addi d 0#5 (BitVec.ofInt 16 v)]
  else
    let u := BitVec.ofInt 64 v
    .ori d 0#5 (u.extractLsb' 0 16) ::
      (([1, 2, 3].filter fun h => u.extractLsb' (16 * h) 16 != 0#16).map fun h => .lih d (BitVec.ofNat 2 h) (u.extractLsb' (16 * h) 16))

/-- MOV, NOP and RET (R58). -/
def movInsn (d s : XReg) : Instr := .addi d s 0#16
def nopInsn : Instr := movInsn 0#5 0#5
def retInsn : Instr := .jalr 0#5 31#5 0#16

/-- What .launch gives (R60). -/
structure ZLaunch where
  entry  : ZExpr
  prio   : ZExpr
  vmode  : ZExpr
  layers : ZExpr
  after  : List ZName := []
  ccb    : Option ZExpr := none
  spriv  : Option ZExpr := none
deriving DecidableEq, Repr

/-- What .header gives (R61): the numbers of ORIENT, TRANS and FMT are those of R314. -/
structure ZHeader where
  n      : Option ZExpr := none
  m      : Option ZExpr := none
  orient : Bool := false
  trans  : Bool := false
  fmt    : BitVec 2 := 0#2
deriving DecidableEq, Repr

/-- A statement (R55, R58 to R61). A domain and a scope of .level are numbers of R227; the peer of .channel is none for a full stop. -/
inductive ZStmt where
  | ins (i : Instr) (ops : List (ZField × ZExpr))
  | nop
  | mov (d s : XReg)
  | ret
  | li (d : XReg) (v : ZExpr)
  | sect (s : ZSec)
  | align (n : ZExpr)
  | emit (w : Nat) (vs : List ZExpr)
  | space (n : ZExpr) (fill : Option ZExpr)
  | equ (n : ZName) (v : ZExpr)
  | globl (n : ZName)
  | proc (n : ZName)
  | endproc
  | launch (n : ZName) (l : ZLaunch)
  | level (dom scope : Nat) (count : ZExpr)
  | channel (e : ZExpr) (peer : Option ZName) (pe : ZExpr) (resume : Bool)
  | table (n : ZName) (len : ZExpr)
  | header (h : ZHeader)
deriving DecidableEq, Repr

/-- A source line: an optional label, then an optional statement (R54). -/
structure ZLine where
  label : Option ZName := none
  stmt  : Option ZStmt := none
deriving DecidableEq, Repr

/-- A name of a source file: a label of a section, or a .equ name (sec is none). -/
structure ZSym where
  file : Nat
  name : ZName
  sec  : Option ZSec
  val  : Int
deriving DecidableEq, Repr

/-- A launch record that is being built (R60): levels are domain, scope and count, channels are endpoint, peer, its endpoint and RESUME. -/
structure ZRec where
  name   : ZName
  entry  : Int
  prio   : Int
  mode   : Int
  layers : Int
  ccb    : Int
  spriv  : Int
  after  : List ZName
  levels : List (Nat × Nat × Int) := []
  chans  : List (Int × Option ZName × Int × Bool) := []
deriving DecidableEq, Repr

/-- Where the loader will place the sections of an image (R290, R350): labels are addresses. -/
structure ZBase where
  text   : Nat := 0
  data   : Nat := 0
  rodata : Nat := 0
deriving DecidableEq, Repr

/-- The base of a section. -/
def ZBase.of (b : ZBase) : ZSec → Nat
  | .text => b.text
  | .data => b.data
  | .rodata => b.rodata

/-- The assembler between two statements: where its sections lie, whether no error has occurred, the file and section in force, the bytes of each section, the names, the global names, the open and the closed procedures, the end of an open table, the PFX that waits for its successor in a section, and the launch records with the newest first. -/
structure ZAsm where
  base    : ZBase := {}
  ok      : Bool := true
  file    : Nat := 0
  sec     : ZSec := .text
  text    : List Byte := []
  data    : List Byte := []
  rodata  : List Byte := []
  syms    : List ZSym := []
  globals : List (Nat × ZName) := []
  open_   : Option (ZName × ZSec × Nat) := none
  procs   : List (ZName × ZSec × Nat × Nat) := []
  table   : Option Nat := none
  pfx     : List (ZSec × Insn) := []
  recs    : List ZRec := []
  inRec   : Bool := false
deriving DecidableEq, Repr

/-- The bytes of a section so far, and its location counter: the address of the current statement (R56). -/
def ZAsm.bytes (z : ZAsm) : ZSec → List Byte
  | .text => z.text
  | .data => z.data
  | .rodata => z.rodata

def ZAsm.at (z : ZAsm) : Nat := z.base.of z.sec + (z.bytes z.sec).length

/-- An error: the source has no image (R57), and the pass goes on only to size what follows. -/
def ZAsm.fail (z : ZAsm) : ZAsm := { z with ok := false }

def ZAsm.need (z : ZAsm) (b : Bool) : ZAsm := if b then z else z.fail

/-- Add bytes to the section in force; a table holds no more than its length (R61). -/
def ZAsm.append (z : ZAsm) (bs : List Byte) : ZAsm :=
  let z1 := match z.sec with
    | .text => { z with text := z.text ++ bs }
    | .data => { z with data := z.data ++ bs }
    | .rodata => { z with rodata := z.rodata ++ bs }
  match z.table with
  | none => z1
  | some e => z1.need (z1.at ≤ e)

/-- Emit bytes as a statement: they follow a PFX of the section, so no instruction is its successor (R57). -/
def ZAsm.put (z : ZAsm) (bs : List Byte) : ZAsm :=
  let z1 := z.append bs
  { z1 with pfx := z1.pfx.filter fun p => p.1 ≠ z.sec }

/-- Close an open table: its unfilled bytes are zero (R61). -/
def ZAsm.closeTable (z : ZAsm) : ZAsm :=
  match z.table with
  | none => z
  | some e => { z.append (List.replicate (e - z.at) 0#8) with table := none }

/-- Advance to a multiple of 2^n: zero bytes, and in .text NOP words once the counter is a multiple of 4 (R59). -/
def ZAsm.alignTo (z : ZAsm) (n : Nat) : ZAsm :=
  let gap := (2 ^ n - z.at % 2 ^ n) % 2 ^ n
  let head := if z.sec = .text ∧ 2 ≤ n then gap % 4 else gap
  z.put (List.replicate head 0#8 ++ (List.replicate ((gap - head) / 4) (leBytes 4 0x08000000)).flatten)

/-- A word of an instruction at a multiple of 4, checked as the successor of a PFX (R57, R50). -/
def ZAsm.word (z : ZAsm) (w : Insn) : ZAsm :=
  let here := z.sec
  let z1 := z.need (z.at % 4 == 0 && !(z.pfx.any fun p => p.1 = here && pfxIllegal p.2 w))
  let rest := z1.pfx.filter fun p => p.1 ≠ here
  { z1.put (leBytes 4 w.toNat) with pfx := if w.extractLsb' 26 6 = 0x3F#6 then (here, w) :: rest else rest }

/-- The words of a list of instructions. -/
def ZAsm.insns (z : ZAsm) (l : List Instr) : ZAsm :=
  l.foldl (fun z i => match encode i with
    | some w => z.word w
    | none => z.fail) z

/-- Give a name a meaning. A label may stand again at the same address of the same section; any other second definition is an error (R54). -/
def ZAsm.define (z : ZAsm) (n : ZName) (sec : Option ZSec) (v : Int) : ZAsm :=
  match z.syms.find? fun x => x.file == z.file && x.name.same n with
  | none => { z with syms := { file := z.file, name := n, sec := sec, val := v } :: z.syms }
  | some x => z.need (sec.isSome && x.sec == sec && x.val == v)

def ZAsm.label (z : ZAsm) (n : ZName) : ZAsm := z.define n (some z.sec) z.at

/-- What a name stands for: a .equ name defined before (R56), a label of the file, or a global label of another (R59). The labels are those that the pass before has found. -/
def ZAsm.lookup (labels : List ZSym) (globals : List (Nat × ZName)) (z : ZAsm) (n : ZName) : Option Int :=
  match z.syms.find? fun x => x.file == z.file && x.sec.isNone && x.name.same n with
  | some x => some x.val
  | none =>
    match labels.find? fun x => x.file == z.file && x.sec.isSome && x.name.same n with
    | some x => some x.val
    | none =>
      (labels.find? fun x => x.sec.isSome && x.name.same n && globals.any fun g => g.1 == x.file && g.2.same n).map fun x => x.val

/-- Whether a value fits a width of w bytes as a signed or an unsigned number (R59). -/
def fitsData (w : Nat) (v : Int) : Bool := within (-(2 ^ (8 * w - 1))) (2 ^ (8 * w) - 1) v

/-- The number of VMODE's lanes (R60, R131). -/
def zMode (v : Int) : Option Int :=
  if v = 0 then some 0 else if v = 16384 then some 1 else if v = 32768 then some 2 else if v = 65536 then some 3 else none

/-- The 64-bit sparsity header (R61, R314): KLEN and COUNT are 0. -/
def zHeader (n m : Int) (h : ZHeader) : Option Nat :=
  let msel := if m = 4 then some 0 else if m = 8 then some 1 else if m = 16 then some 2 else none
  match msel with
  | none => none
  | some k => if within 1 m n then some (h.fmt.toNat + 16 * n.toNat + 512 * k + 2048 * h.orient.toNat + 4096 * h.trans.toNat) else none

/-- Change the record that is being built, or fail outside one (R60). -/
def ZAsm.inRecord (z : ZAsm) (f : ZRec → Option ZRec) : ZAsm :=
  match z.inRec, z.recs with
  | true, r :: rs =>
    match f r with
    | some r1 => { z with recs := r1 :: rs }
    | none => z.fail
  | _, _ => z.fail

/-- .level (R60): strictly inward, at most eight, and CHANNEL exactly for DOMAIN, MODULE and STACK. -/
def ZRec.addLevel (r : ZRec) (dom scope : Nat) (count : Int) : Option ZRec :=
  let inward := match r.levels.getLast? with
    | none => true
    | some x => x.1 < dom
  if dom < 8 && scope < 5 && inward && r.levels.length < 8 && (dom ≤ 2) == (scope == 4) && within 0 (2 ^ 32 - 1) count
  then some { r with levels := r.levels ++ [(dom, scope, count)] } else none

/-- .channel (R60). -/
def ZRec.addChannel (r : ZRec) (e : Int) (peer : Option ZName) (pe : Int) (resume : Bool) : Option ZRec :=
  if within 0 1023 e && within 0 1023 pe && r.chans.length < 1024 then
    let far := match peer with
      | some p => if p.same r.name then none else some p
      | none => none
    some { r with chans := r.chans ++ [(e, far, pe, resume)] }
  else none

/-- .launch (R60): a new record. -/
def ZAsm.newRec (z : ZAsm) (val : ZExpr → Option Int) (n : ZName) (l : ZLaunch) : ZAsm :=
  let opt := fun (e : Option ZExpr) => match e with
    | none => some 0
    | some e => val e
  match val l.entry, val l.prio, (val l.vmode).bind zMode, val l.layers, opt l.ccb, opt l.spriv with
  | some entry, some prio, some mode, some layers, some ccb, some spriv =>
    { z with
      inRec := true
      recs := { name := n, entry := entry, prio := prio, mode := mode, layers := layers, ccb := ccb, spriv := spriv, after := l.after } :: z.recs }.need
      (within 0 (2 ^ 64 - 1) entry && within 0 7 prio && within 0 7 layers && within 0 (2 ^ 64 - 1) ccb && ccb % 64 == 0
        && within 0 1 spriv && l.after.length ≤ 8 && !(z.recs.any fun r => r.name.same n))
  | _, _, _, _, _, _ => { z.fail with inRec := true, recs := { name := n, entry := 0, prio := 0, mode := 0, layers := 0, ccb := 0, spriv := 0, after := [] } :: z.recs }

/-- One statement (R57 to R61). -/
def ZAsm.stmt (labels : List ZSym) (globals : List (Nat × ZName)) (z0 : ZAsm) (s : ZStmt) : ZAsm :=
  let val := fun (e : ZExpr) => e.eval (z0.lookup labels globals) z0.at
  let small := fun (e : ZExpr) (lo hi : Int) (f : Nat → ZAsm) => match val e with
    | some v => if within lo hi v then f v.toNat else z0.fail
    | none => z0.fail
  match s with
  | .ins i ops =>
    match encode i with
    | none => z0.fail
    | some w =>
      let filled := ops.foldl (fun o (f, e) => o.bind fun w => (val e).bind fun v => f.fill w z0.at v) (some w)
      if i.wf then
        match filled with
        | some w1 => z0.word w1
        | none => (z0.word w).fail
      else z0.fail
  | .nop => z0.insns [nopInsn]
  | .mov d s => z0.insns [movInsn d s]
  | .ret => z0.insns [retInsn]
  | .li d e =>
    match val e with
    | some v => z0.insns (liInsns d v)
    | none => (z0.insns (liInsns d 0)).fail
  | .sect s => { z0.closeTable with sec := s, inRec := false }
  | .align e => small e 0 21 z0.alignTo
  | .emit w es =>
    es.foldl (fun z e => match val e with
      | some v => (z.put (leBytes w (BitVec.ofInt (8 * w) v).toNat)).need (fitsData w v)
      | none => (z.put (leBytes w 0)).fail) (z0.need (w == 1 || w == 2 || w == 4 || w == 8))
  | .space e fill =>
    let b := match fill with
      | none => some 0
      | some f => (val f).bind fun v => if within 0 255 v then some v.toNat else none
    match b with
    | some b => small e 0 (2 ^ 48) fun n => z0.put (List.replicate n (BitVec.ofNat 8 b))
    | none => z0.fail
  | .equ n e =>
    match val e with
    | some v => z0.define n none v
    | none => z0.fail
  | .globl n => { z0 with globals := (z0.file, n) :: z0.globals }
  | .proc n =>
    match z0.open_ with
    | none => { z0.label n with open_ := some (n, z0.sec, z0.at) }
    | some _ => z0.fail
  | .endproc =>
    match z0.open_ with
    | some (n, sec, a) => { z0.need (sec = z0.sec) with open_ := none, procs := z0.procs ++ [(n, sec, a, z0.at - a)] }
    | none => z0.fail
  | .launch n l => z0.newRec val n l
  | .level d sc e => z0.inRecord fun r => (val e).bind fun c => r.addLevel d sc c
  | .channel e peer pe resume => z0.inRecord fun r => (val e).bind fun a => (val pe).bind fun b => r.addChannel a peer b resume
  | .table n e =>
    let z1 := z0.closeTable.alignTo 6
    let z2 := z1.label n
    match val e with
    | some v => if within 1 2048 v then { z2 with table := some (z1.at + v.toNat) } else z2.fail
    | none => z2.fail
  | .header h =>
    let opt := fun (e : Option ZExpr) => match e with
      | none => some 0
      | some e => val e
    let z1 := z0.alignTo 3
    match (opt h.n).bind fun n => (opt h.m).bind fun m => zHeader n m h with
    | some v => z1.put (leBytes 8 v)
    | none => (z1.put (leBytes 8 0)).fail

/-- One line: the label first. -/
def ZAsm.line (labels : List ZSym) (globals : List (Nat × ZName)) (z : ZAsm) (l : ZLine) : ZAsm :=
  let z1 := match l.label with
    | none => z
    | some n => z.label n
  match l.stmt with
  | none => z1
  | some s => z1.stmt labels globals s

/-- A source file: it begins in .text, and its end closes a table and a record. An open procedure or a PFX without a successor there is an error (R57, R59). -/
def ZAsm.source (labels : List ZSym) (globals : List (Nat × ZName)) (z : ZAsm) (src : List ZLine) : ZAsm :=
  let z1 := (src.foldl (ZAsm.line labels globals) { z with sec := .text, inRec := false }).closeTable
  { z1.need (z1.pfx.isEmpty && z1.open_.isNone) with pfx := [], open_ := none, file := z1.file + 1 }

/-- One pass over the sources of an image, with the labels that the pass before has found. -/
def zPass (base : ZBase) (labels : List ZSym) (globals : List (Nat × ZName)) (srcs : List (List ZLine)) : ZAsm :=
  srcs.foldl (ZAsm.source labels globals) { base := base }

/-- The bytes of a record (R226, R227, R229): the tag of a launch is its ordinal in the image, counted from 1. -/
def ZRec.image (all : List ZRec) (ordinal : Nat) (r : ZRec) : Option (List Byte) :=
  let tag := fun (n : ZName) => (all.findIdx? fun x => x.name.same n).map fun k => k + 1
  let preds := r.after.map tag
  let chans := r.chans.map fun (e, far, pe, resume) =>
    match far with
    | none => some (e, pe, resume.toNat + 2, 0)
    | some p => (tag p).map fun t => (e, pe, resume.toNat, t)
  if preds.all Option.isSome && chans.all Option.isSome then
    let len := 64 + 8 * r.levels.length + 8 * preds.length + 16 * chans.length
    some (leBytes 4 len ++ leBytes 2 1 ++ leBytes 1 r.prio.toNat ++ leBytes 1 r.mode.toNat ++ leBytes 8 ordinal ++ leBytes 8 r.entry.toNat
      ++ leBytes 8 r.ccb.toNat ++ leBytes 1 r.layers.toNat ++ leBytes 1 r.spriv.toNat ++ leBytes 1 r.levels.length ++ leBytes 1 preds.length
      ++ leBytes 2 0 ++ leBytes 2 chans.length ++ List.replicate 24 0#8
      ++ (r.levels.map fun (d, s, c) => leBytes 1 d ++ leBytes 1 s ++ leBytes 2 0 ++ leBytes 4 c.toNat).flatten
      ++ (preds.map fun p => leBytes 8 (p.getD 0)).flatten
      ++ (chans.map fun c => match c with
          | some (e, pe, f, t) => leBytes 2 e.toNat ++ leBytes 2 pe.toNat ++ leBytes 1 f ++ leBytes 1 0 ++ leBytes 2 0 ++ leBytes 8 t
          | none => []).flatten)
  else none

/-- An image: the sections, the launch list, and the procedures with section, address and size (R59, R60). -/
structure ZImage where
  text     : List Byte
  data     : List Byte
  rodata   : List Byte
  launches : List (List Byte)
  procs    : List (ZName × ZSec × Nat × Nat)
deriving DecidableEq, Repr

/-- Whether a pass ends well: every global name is one label (R54, R59). -/
def ZAsm.globalsOk (z : ZAsm) : Bool :=
  z.globals.all fun g =>
    (z.syms.any fun x => x.file == g.1 && x.sec.isSome && x.name.same g.2) && !(z.globals.any fun h => h.1 != g.1 && h.2.same g.2)

/-- The image of a pass that has no error. -/
def ZAsm.image (z : ZAsm) : Option ZImage :=
  let rs := z.recs.reverse
  let ls := rs.zipIdx.map fun (r, k) => r.image rs (k + 1)
  if z.ok && z.globalsOk && ls.all Option.isSome
  then some { text := z.text, data := z.data, rodata := z.rodata, launches := ls.map fun l => l.getD [], procs := z.procs } else none

/-- Passes until the labels are those that the pass before has found: a label may be used before its definition (R56), and an LI takes the words that its value needs (R58). -/
def zSettle : Nat → ZAsm → List (List ZLine) → Option ZImage
  | 0, _, _ => none
  | n + 1, z, srcs =>
    let z1 := zPass z.base z.syms z.globals srcs
    if z1.syms = z.syms ∧ z1.globals = z.globals then z1.image else zSettle n z1 srcs

/-- zelas: the image of the source files for sections that the loader places at given addresses, or none where R57 rejects them. -/
def zelasAt (base : ZBase) (srcs : List (List ZLine)) : Option ZImage := zSettle 16 { base := base } srcs

/-- zelas for sections at address 0. -/
def zelas (srcs : List (List ZLine)) : Option ZImage := zelasAt {} srcs

end Sys2Proof.Machine
end

