-- ==== Sys2Proof/Safety.lean ====
section
/-! DEFINITION. Sys2Proof/Safety.lean: what counts as a safe run, and the words that claims are written in: what an instruction leaves unchanged, what it writes, what a trap does, and tables that say for the instructions of one shape which registers they name and what they compute, as the spec's own tables say it. -/

namespace Sys2Proof.Safety

open Sys2Proof.Machine

/-- A safe step: the machine goes on. The spec gives every fault as a trap, a status or a mark, so no step may end in anything else. -/
def StepSafe (s : State) : Prop := ∃ t, step s = .next t

/-- Every byte of every memory reads as before, in the TILE image, in the writes that cores hold, and in the memory of the keeper cores. -/
def MemSame (s t : State) : Prop :=
  (∀ k a, (t.tile k).mem.byte a = (s.tile k).mem.byte a) ∧ (∀ a, t.kmem.byte a = s.kmem.byte a)
    ∧ ∀ k, (t.core k).buf = (s.core k).buf

/-- Nothing but one context changes: no other context, no core, no tile, no byte of memory, no unit of the module. -/
def OnlyCtx (c : Nat) (s t : State) : Prop :=
  { t with ctxs := s.ctxs } = s ∧ (∀ d, d ≠ c → t.ctx d = s.ctx d) ∧ MemSame s t

/-- Nothing but the context that issues changes. -/
def OnlyMe (s t : State) : Prop := OnlyCtx s.cur s t

/-- In a context nothing changes but general registers, and what every instruction moves: the pc, the pending prefix, the wait and the cycle of the next issue. -/
def OnlyRegs (c d : Ctx) : Prop :=
  d = { c with x := d.x, pc := d.pc, pfx := d.pfx, wait := d.wait, ready := d.ready }

/-- In a context nothing changes but predicates, and what every instruction moves. -/
def OnlyPreds (c d : Ctx) : Prop :=
  d = { c with p := d.p, pc := d.pc, pfx := d.pfx, wait := d.wait, ready := d.ready }

/-- In a context nothing changes but what every instruction moves. -/
def OnlyPc (c d : Ctx) : Prop :=
  d = { c with pc := d.pc, pfx := d.pfx, wait := d.wait, ready := d.ready }

/-- The general registers after an instruction wrote v to rd: x0 reads as zero, rd and the copy register of the pending prefix (R51) hold v, every other register holds what it held. -/
def WroteX (s t : State) (rd : XReg) (v : Reg) : Prop :=
  ∀ r : XReg, t.x r = if r = 0#5 then Reg.zero else if r = rd ∨ copyReg s.me = some r then v else s.x r

/-- The predicates after an instruction wrote b to pd: p0 reads as true, pd holds b, every other predicate holds what it held. -/
def WroteP (s t : State) (pd : PReg) (b : Bool) : Prop :=
  ∀ q : PReg, t.p q = if q = 0#3 then true else if q = pd then b else s.p q

/-- The context that issues has moved to an address, without waiting, and no prefix is pending. -/
def MovedTo (s t : State) (pc : Word) : Prop := t.cur = s.cur ∧ t.me.pc = pc ∧ t.me.pfx = none ∧ t.me.wait = .no

/-- The context that issues has moved past its instruction. -/
def Fell (s t : State) : Prop := MovedTo s t (s.me.pc + 4#64)

/-- The context that issues can fall through: its pc is not the last canonical word of the lower half (R67). -/
def CanFall (s : State) : Prop := s.me.pc ≠ 0x00007FFFFFFFFFFC#64

/-- An instruction wrote v to rd, moved past itself, and changed nothing else. -/
def WroteOnly (s t : State) (rd : XReg) (v : Reg) : Prop :=
  WroteX s t rd v ∧ Fell s t ∧ OnlyRegs s.me t.me ∧ OnlyMe s t

/-- An instruction wrote b to pd, moved past itself, and changed nothing else. -/
def WrotePredOnly (s t : State) (pd : PReg) (b : Bool) : Prop :=
  WroteP s t pd b ∧ Fell s t ∧ OnlyPreds s.me t.me ∧ OnlyMe s t

/-- The first origin of two registers' poison (R65, R361). -/
def origin2 (a b : Reg) : Option Word := a.psn <|> b.psn

/-- Trap entry in a context (R24): cause, value, the address of the instruction and the pending prefix are saved, with privilege and IE; interrupts are disabled, the privilege is S, or M on a keeper core, and the pc is at the handler, whose first instruction may issue in the context's next slot. Nothing else changes. -/
def Entered (c : Nat) (s t : State) (code : BitVec 8) (v : Word) : Prop :=
  t.ctx c = { s.ctx c with
    trapcause := code, trapval := v, trappc := (s.ctx c).pc
    pfxBit := (s.ctx c).pfx.isSome, pfxsave := (match (s.ctx c).pfx with | some w => w | none => (s.ctx c).pfxsave), pfx := none
    ppriv := (s.ctx c).priv, priv := if c < 32768 then 1#2 else 3#2
    pie := (s.ctx c).ie, ie := false, intrap := true
    pc := (s.ctx c).trapvec, wait := .no, ready := (s.core (c / 16)).cyc + 1 }
    ∧ OnlyCtx c s t

/-- Trap entry in the context that issues. -/
def Trapped (s t : State) (code : BitVec 8) (v : Word) : Prop := Entered s.cur s t code v

/-- The binary operations of R69 as its table states them, on the unsigned values of their operands, with the registers named. -/
def intTwo : Instr → Option (XReg × XReg × XReg × (Word → Word → Word))
  | .add d a b => some (d, a, b, fun x y => BitVec.ofNat 64 (x.toNat + y.toNat))
  | .sub d a b => some (d, a, b, fun x y => BitVec.ofInt 64 ((x.toNat : Int) - y.toNat))
  | .and d a b => some (d, a, b, fun x y => x &&& y)
  | .or d a b => some (d, a, b, fun x y => x ||| y)
  | .xor d a b => some (d, a, b, fun x y => x ^^^ y)
  | .andn d a b => some (d, a, b, fun x y => x &&& ~~~y)
  | .orn d a b => some (d, a, b, fun x y => x ||| ~~~y)
  | .sll d a b => some (d, a, b, fun x y => BitVec.ofNat 64 (x.toNat * 2 ^ (y.toNat % 64)))
  | .srl d a b => some (d, a, b, fun x y => BitVec.ofNat 64 (x.toNat / 2 ^ (y.toNat % 64)))
  | .sra d a b => some (d, a, b, fun x y => BitVec.ofInt 64 (x.toInt / 2 ^ (y.toNat % 64)))
  | .rol d a b => some (d, a, b, fun x y =>
      if y.toNat % 64 = 0 then x else BitVec.ofNat 64 (x.toNat * 2 ^ (y.toNat % 64) + x.toNat / 2 ^ (64 - y.toNat % 64)))
  | .ror d a b => some (d, a, b, fun x y =>
      if y.toNat % 64 = 0 then x else BitVec.ofNat 64 (x.toNat / 2 ^ (y.toNat % 64) + x.toNat * 2 ^ (64 - y.toNat % 64)))
  | .slt d a b => some (d, a, b, fun x y => if x.toInt < y.toInt then 1#64 else 0#64)
  | .sltu d a b => some (d, a, b, fun x y => if x.toNat < y.toNat then 1#64 else 0#64)
  | .min d a b => some (d, a, b, fun x y => if x.toInt ≤ y.toInt then x else y)
  | .max d a b => some (d, a, b, fun x y => if x.toInt ≤ y.toInt then y else x)
  | .minu d a b => some (d, a, b, fun x y => if x.toNat ≤ y.toNat then x else y)
  | .maxu d a b => some (d, a, b, fun x y => if x.toNat ≤ y.toNat then y else x)
  | .mul d a b => some (d, a, b, fun x y => BitVec.ofNat 64 (x.toNat * y.toNat))
  | .mulhSs d a b => some (d, a, b, fun x y => BitVec.ofInt 64 (x.toInt * y.toInt / 2 ^ 64))
  | .mulhUu d a b => some (d, a, b, fun x y => BitVec.ofNat 64 (x.toNat * y.toNat / 2 ^ 64))
  | .mulhUs d a b => some (d, a, b, fun x y => BitVec.ofInt 64 ((x.toNat : Int) * y.toInt / 2 ^ 64))
  | _ => none

/-- How many of the numbers below n satisfy a condition. -/
def countBelow (n : Nat) (f : Nat → Bool) : Nat := ((List.range n).filter f).length

/-- The unary operations of R69 and the immediate operations of R71 to R73 as their tables state them. -/
def intOne : Instr → Option (XReg × XReg × (Word → Word))
  | .clz d a => some (d, a, fun x => BitVec.ofNat 64 (countBelow 64 fun i => x.toNat < 2 ^ i))
  | .ctz d a => some (d, a, fun x => BitVec.ofNat 64 (countBelow 64 fun i => x.toNat % 2 ^ (i + 1) = 0))
  | .popc d a => some (d, a, fun x => BitVec.ofNat 64 (countBelow 64 fun i => x.toNat / 2 ^ i % 2 = 1))
  | .sextB d a => some (d, a, fun x => BitVec.signExtend 64 (BitVec.ofNat 8 x.toNat))
  | .sextH d a => some (d, a, fun x => BitVec.signExtend 64 (BitVec.ofNat 16 x.toNat))
  | .sextW d a => some (d, a, fun x => BitVec.signExtend 64 (BitVec.ofNat 32 x.toNat))
  | .zextW d a => some (d, a, fun x => BitVec.ofNat 64 (x.toNat % 2 ^ 32))
  | .addi d a i => some (d, a, fun x => BitVec.ofInt 64 (x.toNat + i.toInt))
  | .andi d a i => some (d, a, fun x => x &&& BitVec.ofNat 64 i.toNat)
  | .ori d a i => some (d, a, fun x => x ||| BitVec.ofNat 64 i.toNat)
  | .xori d a i => some (d, a, fun x => x ^^^ BitVec.ofNat 64 i.toNat)
  | .slti d a i => some (d, a, fun x => if x.toInt < i.toInt then 1#64 else 0#64)
  | .sltiu d a i => some (d, a, fun x => if x.toNat < (BitVec.ofInt 64 i.toInt).toNat then 1#64 else 0#64)
  | .slli d a n => some (d, a, fun x => BitVec.ofNat 64 (x.toNat * 2 ^ n.toNat))
  | .srli d a n => some (d, a, fun x => BitVec.ofNat 64 (x.toNat / 2 ^ n.toNat))
  | .srai d a n => some (d, a, fun x => BitVec.ofInt 64 (x.toInt / 2 ^ n.toNat))
  | .rori d a n => some (d, a, fun x =>
      if n.toNat = 0 then x else BitVec.ofNat 64 (x.toNat / 2 ^ n.toNat + x.toNat * 2 ^ (64 - n.toNat)))
  | .lih d h i => some (d, d, fun x =>
      BitVec.ofNat 64 (x.toNat % 2 ^ (16 * h.toNat) + 2 ^ (16 * h.toNat) * i.toNat + 2 ^ (16 * h.toNat + 16) * (x.toNat / 2 ^ (16 * h.toNat + 16))))
  | _ => none

/-- The divides and remainders of R70. -/
def divTwo : Instr → Option (XReg × XReg × XReg × (Word → Word → Word))
  | .divs d a b => some (d, a, b, fun x y => if y.toInt = 0 then 0#64 else BitVec.ofInt 64 (x.toInt.tdiv y.toInt))
  | .divu d a b => some (d, a, b, fun x y => if y.toNat = 0 then 0#64 else BitVec.ofNat 64 (x.toNat / y.toNat))
  | .rems d a b => some (d, a, b, fun x y => if y.toInt = 0 then x else BitVec.ofInt 64 (x.toInt - x.toInt.tdiv y.toInt * y.toInt))
  | .remu d a b => some (d, a, b, fun x y => if y.toNat = 0 then x else BitVec.ofNat 64 (x.toNat - x.toNat / y.toNat * y.toNat))
  | _ => none

/-- The compares of R74, and PFROMX of R75 as a compare with x0. -/
def compareTwo : Instr → Option (PReg × XReg × XReg × (Word → Word → Bool))
  | .cmpeq q a b => some (q, a, b, fun x y => decide (x.toNat = y.toNat))
  | .cmpne q a b => some (q, a, b, fun x y => decide (x.toNat ≠ y.toNat))
  | .cmplt q a b => some (q, a, b, fun x y => decide (x.toInt < y.toInt))
  | .cmpge q a b => some (q, a, b, fun x y => decide (y.toInt ≤ x.toInt))
  | .cmpltu q a b => some (q, a, b, fun x y => decide (x.toNat < y.toNat))
  | .cmpgeu q a b => some (q, a, b, fun x y => decide (y.toNat ≤ x.toNat))
  | .pfromx q a => some (q, a, 0#5, fun x _ => decide (x.toNat ≠ 0))
  | _ => none

/-- The predicate logic of R75 that writes a predicate. -/
def predTwo : Instr → Option (PReg × PReg × PReg × (Bool → Bool → Bool))
  | .pand q a b => some (q, a, b, fun x y => x && y)
  | .por q a b => some (q, a, b, fun x y => x || y)
  | .pxor q a b => some (q, a, b, fun x y => Bool.xor x y)
  | .pandn q a b => some (q, a, b, fun x y => x && !y)
  | .porn q a b => some (q, a, b, fun x y => x || !y)
  | .pnot q a => some (q, a, a, fun x _ => !x)
  | _ => none

/-- The conditional branches of R76. -/
def branchTwo : Instr → Option (XReg × XReg × BitVec 16 × (Word → Word → Bool))
  | .beq a b o => some (a, b, o, fun x y => decide (x.toNat = y.toNat))
  | .bne a b o => some (a, b, o, fun x y => decide (x.toNat ≠ y.toNat))
  | .blt a b o => some (a, b, o, fun x y => decide (x.toInt < y.toInt))
  | .bge a b o => some (a, b, o, fun x y => decide (y.toInt ≤ x.toInt))
  | .bltu a b o => some (a, b, o, fun x y => decide (x.toNat < y.toNat))
  | .bgeu a b o => some (a, b, o, fun x y => decide (y.toNat ≤ x.toNat))
  | _ => none

/-- An address in the lower or upper canonical half (R22): bits [63:47] are all alike. -/
def Canonical (a : Word) : Prop := a.toNat < 2 ^ 47 ∨ 2 ^ 64 - 2 ^ 47 ≤ a.toNat

/-- Whether a taken branch or jump may go to an address (R22). -/
def GoodTarget (a : Word) : Prop := Canonical a ∧ a.toNat % 4 = 0

/-- The target of a branch or jump: pc + 4 * SignExtend(off) mod 2^64 (R76, R78). -/
def targetOf (pc : Word) (off : Int) : Word := BitVec.ofInt 64 ((pc.toNat : Int) + 4 * off)

/-- The context that issues is RUNNING at an instruction boundary, no channel operation waits, and the i-cycle of its core is that of its slot, with the cost of its last instruction run out (R12 to R14, R27, R63). -/
def AtBoundary (s : State) : Prop :=
  s.me.slot = .running ∧ s.me.atBoundary = true ∧ s.me.chan = none ∧ s.myCore.cyc % 16 = s.cur % 16 ∧ s.me.ready ≤ s.myCore.cyc

/-- The clock of the core that issues runs up to CCMP by itself: it is not stopped, and no context of the core uses a slot before (R108, R394, R400). -/
def ClockFree (s : State) : Prop :=
  s.clocked (s.cur / 16) = true ∧ ∀ i, i < 16 → s.quietTo (16 * (s.cur / 16) + i) s.me.ccmp.toNat = true

/-- A control register that every privilege may read (R17, R113, R137, R203, R235, R296, R329, R367, R391). -/
def crReadAny : List Nat :=
  [0x000, 0x001, 0x008, 0x010, 0x011, 0x012, 0x020, 0x021, 0x022, 0x023, 0x024, 0x025, 0x026, 0x027, 0x028, 0x029, 0x02A, 0x02B,
   0x030, 0x031, 0x032, 0x034, 0x035, 0x050, 0x051, 0x052, 0x053, 0x060, 0x061, 0x062, 0x063, 0x064, 0x065, 0x066, 0x067, 0x068, 0x069,
   0x070, 0x071, 0x072, 0x080, 0x081]

/-- A control register that U may neither read nor write (R17, R251, R367). -/
def crNotUser : List Nat := [0x002, 0x003, 0x004, 0x005, 0x006, 0x007, 0x009, 0x040, 0x041, 0x042, 0x073]

/-- A control register that U may read and not write (R17, R113, R235, R296, R329, R391). -/
def crUserReadOnly : List Nat :=
  [0x000, 0x001, 0x008, 0x011, 0x012, 0x021, 0x022, 0x023, 0x026, 0x02A, 0x02B, 0x032, 0x034, 0x035, 0x050, 0x051, 0x052, 0x053,
   0x062, 0x063, 0x064, 0x065, 0x066, 0x067, 0x068, 0x071, 0x080, 0x081]

/-- A control register without a writable field on a tile core (R17, R113, R137, R203, R235, R296, R329, R367, R391). -/
def crReadOnly : List Nat :=
  [0x000, 0x008, 0x011, 0x012, 0x021, 0x022, 0x023, 0x026, 0x02A, 0x02B, 0x032, 0x034, 0x035, 0x042, 0x050, 0x051, 0x052,
   0x062, 0x063, 0x064, 0x065, 0x066, 0x067, 0x068, 0x071, 0x081]

/-- A control register that only keeper cores have, at M (R239, R391, R411). -/
def crMachine (n : Nat) : Prop := n = 0x400 ∨ (0x410 ≤ n ∧ n ≤ 0x418) ∨ n = 0x420 ∨ n = 0x421 ∨ (0x430 ≤ n ∧ n ≤ 0x43F) ∨ n = 0x440

/-- A control register whose every access drains the vector queue (R129). -/
def crDraining : List Nat := [0x027, 0x031, 0x069, 0x070]

/-- A 64-bit value that keeps bits [47:2] and copies bit 47 above: how the registers that hold instruction addresses store (R19). -/
def pcStored (v : Word) : Word := BitVec.signExtend 64 (BitVec.ofNat 48 (4 * (v.toNat % 2 ^ 48 / 4)))

/-- What a write of one of the registers of every context does to the context (R17, R19, R29, R203). -/
def ctxWrite : Nat → Option (Word → Ctx → Ctx)
  | 0x002 => some fun v c => { c with pfxsave := BitVec.ofNat 32 v.toNat }
  | 0x003 => some fun v c => { c with trapcause := BitVec.ofNat 8 v.toNat }
  | 0x004 => some fun v c => { c with trappc := pcStored v }
  | 0x005 => some fun v c => { c with trapval := v }
  | 0x006 => some fun v c => { c with trapvec := pcStored v }
  | 0x007 => some fun v c => { c with trapscr := v }
  | 0x009 => some fun v c => { c with ccmp := v }
  | _ => none

/-- What a write of SELPOS, UIVEC or UIPC does to the context, at any level (R203, R329). -/
def userWrite : Nat → Option (Word → Ctx → Ctx)
  | 0x030 => some fun v c => { c with selpos := BitVec.ofNat 4 v.toNat }
  | 0x060 => some fun v c => { c with uivec := pcStored v }
  | 0x061 => some fun v c => { c with uipc := pcStored v }
  | _ => none

/-- What a write of a register of every partition does to the caller's (R137, R138, R203, R329, R367): each writable field takes its bits, VTYPE acts as VSETT, and the write-one-to-clear fields of STRSTAT are cleared. -/
def partWrite : Nat → Option (Word → Part → Part)
  | 0x020 => some fun v p => { p with vsbase := p.vsbase + BitVec.ofNat 64 p.vl, vl := 0, vtype := BitVec.ofNat 18 v.toNat, iv := p.iv + 1 }
  | 0x024 => some fun v p => { p with vsbase := v }
  | 0x025 => some fun v p => { p with vseed := v }
  | 0x027 => some fun v p => { p with vflags := BitVec.ofNat 6 v.toNat }
  | 0x028 => some fun v p => { p with densEn := v.getLsbD 63, thresh := BitVec.ofNat 16 v.toNat }
  | 0x029 => some fun v p => { p with hwmEn := v.getLsbD 63, hwmH := BitVec.ofNat 3 v.toNat }
  | 0x031 => some fun v p => { p with
      str0 := { p.str0 with short := p.str0.short && !v.getLsbD 12, dlk := p.str0.dlk && !v.getLsbD 11 }
      str1 := { p.str1 with short := p.str1.short && !v.getLsbD 28, dlk := p.str1.dlk && !v.getLsbD 27 } }
  | 0x069 => some fun v p => { p with clRange := v.getLsbD 0 }
  | 0x070 => some fun v p => { p with vporig := v }
  | _ => none

/-- What a write of a register of every core does to the caller's (R114, R367, R391). -/
def coreWrite : Nat → Option (Word → Core → Core)
  | 0x010 => some fun v k => { k with forkmask := BitVec.ofNat 16 (v.toNat / 2 * 2) }
  | 0x072 => some fun v k => { k with logv := k.logv && !v.getLsbD 63, pair := BitVec.ofNat 3 v.toNat }
  | 0x080 => some fun v k => { k with stretch := v.toNat / 2 ^ 32, droops := v.toNat % 2 ^ 32 }
  | _ => none

/-- CWR, CSET and CCLR (R104): rd where there is one, rs1, the register, and the value that they write to it. -/
def crForm (s : State) : Instr → Option (Option XReg × XReg × BitVec 11 × Word)
  | .cwr r n => some (none, r, n, (s.x r).val)
  | .cset d r n => some (some d, r, n, s.crRead n.toNat ||| (s.x r).val)
  | .cclr d r n => some (some d, r, n, s.crRead n.toNat &&& ~~~(s.x r).val)
  | _ => none

/-- rd, where an instruction has one, takes a value; without one no general register changes. -/
def MaybeWrote (s t : State) (rd : Option XReg) (v : Reg) : Prop :=
  match rd with
  | some d => WroteX s t d v
  | none => ∀ r, t.x r = s.x r

/-- Nothing changes but the context that issues and its core, which has become k. -/
def OnlyMyCore (s t : State) (k : Core) : Prop :=
  t = { s with ctxs := t.ctxs, cores := t.cores } ∧ (∀ d, d ≠ s.cur → t.ctx d = s.ctx d) ∧ t.core (s.cur / 16) = k
    ∧ ∀ j, j ≠ s.cur / 16 → t.core j = s.core j

/-- Nothing changes but the context that issues and its tile, which has become k. -/
def OnlyMyTile (s t : State) (k : Tile) : Prop :=
  t = { s with ctxs := t.ctxs, tiles := t.tiles } ∧ (∀ d, d ≠ s.cur → t.ctx d = s.ctx d) ∧ t.tile (s.cur / 128) = k
    ∧ ∀ j, j ≠ s.cur / 128 → t.tile j = s.tile j

/-- TRAPVAL of an interrupt with a pending bit (R23, R370): the compare value, or what its source recorded. -/
def interruptValue (c : Ctx) : Nat → Word
  | 1 => c.ccmp
  | 2 => c.preemptVal
  | 3 => c.laneVal
  | _ => c.thermVal

/-- x24 to x31 exchanged with the shadow registers (R332). -/
def Exchanged (c d : Ctx) : Prop :=
  (∀ i : Fin 32, d.x[i] = if h : 24 ≤ i.val then c.shadow[i.val - 24]'(by omega) else c.x[i])
    ∧ ∀ j : Fin 8, d.shadow[j] = c.x[j.val + 24]'(by omega)

/-- No entry of the vector queue of the context that issues is left to complete (R129). -/
def Drained (s : State) : Prop := ∀ p, s.myPart = some p → p.pending = []

/-- Every memory of the machine is in its canonical form: the invariant that the memory statements use. -/
def MemOk (s : State) : Prop := (∀ k, (s.tile k).mem.wf = true) ∧ s.kmem.wf = true

/-- The HBM4 contents kept for a dirty line are whole lines. -/
def LinesOk (s : State) : Prop := ∀ k l x, (s.tile k).old.find l = some x → x.hbm.bytes.length = 64

/-- The core and the tile of the context that issues. -/
def myCoreKey (s : State) : Nat := s.cur / 16
def myTileKey (s : State) : Nat := s.cur / 128

/-- One byte of its tile's memory as the contexts of a core read it: under the writes that the core holds (R262). -/
def seen (s : State) (k a : Nat) : Byte := (s.coreMem k).byte a

/-- A little-endian number of n bytes of a memory. -/
def numberAt (m : Memory) (a n : Nat) : Nat := ((List.range n).map fun i => (m.byte (a + i)).toNat * 256 ^ i).sum

/-- An access of a tile context passes the checks of R81: the address is canonical and aligned to n bytes, and translates to pa, with the state after the walk. -/
def Translates (s : State) (va : Word) (n : Nat) (kind : AccKind) (s1 : State) (pa : Nat) : Prop :=
  Canonical va ∧ va.toNat % n = 0 ∧ s.cur < 32768 ∧ s.translate (s.cur / 16) s.me.priv va kind = (s1, .ok pa)

/-- What a memory access or a fence may change outside its context: the translations and the writes that cores hold, link marks, and in a tile its memory, write-back state, directory, found errors and walker cache. -/
def OnlyAccess (s t : State) : Prop :=
  t = { s with ctxs := t.ctxs, cores := t.cores, tiles := t.tiles } ∧ (∀ d, d ≠ s.cur → t.ctx d = s.ctx d)
  ∧ (∀ k, t.core k = { s.core k with tlb := (t.core k).tlb, buf := (t.core k).buf, parts := (t.core k).parts }
      ∧ (t.core k).parts.map (fun p => { p with links := [] }) = (s.core k).parts.map (fun p => { p with links := [] }))
  ∧ ∀ k, t.tile k = { s.tile k with mem := (t.tile k).mem, old := (t.tile k).old, dir := (t.tile k).dir, latent := (t.tile k).latent,
                                    walker := (t.tile k).walker, hbmue := (t.tile k).hbmue }

/-- The bytes of an access of n bytes (R81). -/
def bytesAt (pa n : Nat) : List Nat := (List.range n).map fun i => pa + i

/-- No core of a tile holds a write short of TILE to a byte that f names, and no core holds one that it did not hold before. -/
def HeldClear (s t : State) (k : Nat) (f : Nat → Prop) : Prop :=
  ∀ j, j < 8 → ∀ w ∈ (t.core (8 * k + j)).buf, (w ∈ (s.core (8 * k + j)).buf) ∧ ∀ b ∈ w.bytes, ¬ f b.1

/-- The markers of a context for the queue of a bit of a FENCE.Q's mask, after one that does not name OWN (R94, log entry 56): unchanged where the queue is not named; else what still matters of the earlier ones, one for each entry that the fence names, and one more for a SYSTEM join under VEC. -/
def markedDeps (s : State) (m : BitVec 5) (bit scope : Nat) (old : List (Nat × Nat)) : List (Nat × Nat) :=
  if m.getLsbD bit then
    old.filter (fun a => (s.named 0b11110#5).contains a.1 || a.2 == 3) ++ (s.named m).map (fun a => (a, scope))
      ++ (if scope = 3 ∧ m.getLsbD 1 then [(s.fresh, 3)] else [])
  else old

/-- A keeper-physical address at which R258 puts something. -/
def KeeperMapped (a : Nat) : Prop :=
  a < 0x10000000 ∨ (0x1000000000 ≤ a ∧ a < 0x1040000000) ∨ (0x2000000000 ≤ a ∧ a < 0x2004000000) ∨ (0x3000000000 ≤ a ∧ a < 0x3000001000)
    ∨ (0x4000000000 ≤ a ∧ a < 0x4000010000) ∨ (2 ^ 39 ≤ a ∧ a < 2 ^ 40)

/-- Keeper memory and staging memory, which take loads, stores and atomics (R258). -/
def KeeperPlain (a : Nat) : Prop := a < 0x10000000 ∨ (0x1000000000 ≤ a ∧ a < 0x1040000000)

/-- A tile answers window accesses: it is ON, and its stack is not in HALT (R394, R401). -/
def WindowOpen (s : State) (k : Nat) : Prop := (s.pwr k).st = .on ∧ s.stackState (stackOf k) ≠ 3

/-- A register of a power block as LD reads it (R399). -/
def powerWord (p : Power) : Nat → Option Word
  | 0x00 => some 0#64
  | 0x08 => some (BitVec.ofNat 64 (p.st.num + 2 ^ 8 * p.err + (if p.retained then 2 ^ 32 else 0)))
  | 0x10 => some 0#64
  | 0x18 => some (BitVec.ofNat 64 p.lanecap.toNat)
  | 0x20 => some (BitVec.ofNat 64 (p.budget.toNat + 2 ^ 8 * p.ramp.toNat))
  | _ => none

/-- The memories of every tile but that of the context that issues read as before. -/
def OtherTilesSame (s t : State) : Prop := ∀ j a, j ≠ myTileKey s → (t.tile j).mem.byte a = (s.tile j).mem.byte a

/-- An instruction that waits for a reply has moved past itself (R85). -/
def Sent (s t : State) : Prop := t.cur = s.cur ∧ t.me.pc = s.me.pc + 4#64 ∧ t.me.pfx = none ∧ t.me.wait = .memReply

/-- The loads of R84: bytes, signed, destination, base, acquire, offset. -/
def loadForm : Instr → Option (Nat × Bool × XReg × XReg × BitVec 1 × BitVec 12)
  | .lb d b q o => some (1, true, d, b, q, o)
  | .lbu d b q o => some (1, false, d, b, q, o)
  | .lh d b q o => some (2, true, d, b, q, o)
  | .lhu d b q o => some (2, false, d, b, q, o)
  | .lw d b q o => some (4, true, d, b, q, o)
  | .lwu d b q o => some (4, false, d, b, q, o)
  | .ld d b q o => some (8, false, d, b, q, o)
  | _ => none

/-- The stores of R84: bytes, source, base, release, offset. -/
def storeForm : Instr → Option (Nat × XReg × XReg × BitVec 1 × BitVec 12)
  | .sb d b r o => some (1, d, b, r, o)
  | .sh d b r o => some (2, d, b, r, o)
  | .sw d b r o => some (4, d, b, r, o)
  | .sd d b r o => some (8, d, b, r, o)
  | _ => none

/-- The atomics of R89 but ACAS: destination, address, operand, release, size, whether the value returned is sign-extended, and the new value of a w-bit place from the old value and the operand. -/
def atomicForm : Instr → Option (XReg × XReg × XReg × BitVec 1 × BitVec 2 × Bool × (Nat → Nat → Nat → Nat))
  | .aswap d a b _ r z => some (d, a, b, r, z, true, fun _ _ v => v)
  | .aadd d a b _ r z => some (d, a, b, r, z, true, fun w o v => (o + v) % 2 ^ w)
  | .aand d a b _ r z => some (d, a, b, r, z, true, fun _ o v => o &&& v)
  | .aor d a b _ r z => some (d, a, b, r, z, true, fun _ o v => o ||| v)
  | .axor d a b _ r z => some (d, a, b, r, z, true, fun _ o v => o ^^^ v)
  | .amin d a b _ r z => some (d, a, b, r, z, true, fun w o v => if (BitVec.ofNat w v).toInt < (BitVec.ofNat w o).toInt then v else o)
  | .amax d a b _ r z => some (d, a, b, r, z, true, fun w o v => if (BitVec.ofNat w o).toInt < (BitVec.ofNat w v).toInt then v else o)
  | .aminu d a b _ r z => some (d, a, b, r, z, false, fun _ o v => if v < o then v else o)
  | .amaxu d a b _ r z => some (d, a, b, r, z, false, fun _ o v => if o < v then v else o)
  | _ => none

/-- A w-bit number widened to 64 bits, signed or not. -/
def widened (w v : Nat) (signed : Bool) : Word := if signed then (BitVec.ofNat w v).signExtend 64 else (BitVec.ofNat w v).zeroExtend 64

/-- The effective address of a load or store: base + SignExtend(off, 12) mod 2^64 (R84). -/
def addressOf (base : Word) (off : BitVec 12) : Word := BitVec.ofInt 64 (base.toNat + off.toInt)

/-- A keeper access waits for a stack in HALT, with no effect so far (R394). -/
def HaltWait (s t : State) : Prop := t.cur = s.cur ∧ t.me = { s.me with wait := .memReply, uword := s.iw } ∧ OnlyMe s t

/-- The scalar memory instructions with their address, bytes and kind of access (R81, R84, R89): the register whose poison they contain is the base. -/
def memForm (s : State) : Instr → Option (XReg × Word × Nat × AccKind)
  | .lb _ b _ o => some (b, addressOf (s.x b).val o, 1, .load)
  | .lbu _ b _ o => some (b, addressOf (s.x b).val o, 1, .load)
  | .lh _ b _ o => some (b, addressOf (s.x b).val o, 2, .load)
  | .lhu _ b _ o => some (b, addressOf (s.x b).val o, 2, .load)
  | .lw _ b _ o => some (b, addressOf (s.x b).val o, 4, .load)
  | .lwu _ b _ o => some (b, addressOf (s.x b).val o, 4, .load)
  | .ld _ b _ o => some (b, addressOf (s.x b).val o, 8, .load)
  | .sb _ b _ o => some (b, addressOf (s.x b).val o, 1, .store)
  | .sh _ b _ o => some (b, addressOf (s.x b).val o, 2, .store)
  | .sw _ b _ o => some (b, addressOf (s.x b).val o, 4, .store)
  | .sd _ b _ o => some (b, addressOf (s.x b).val o, 8, .store)
  | .aswap _ a _ _ _ z => some (a, (s.x a).val, 2 ^ z.toNat, .store)
  | .aadd _ a _ _ _ z => some (a, (s.x a).val, 2 ^ z.toNat, .store)
  | .aand _ a _ _ _ z => some (a, (s.x a).val, 2 ^ z.toNat, .store)
  | .aor _ a _ _ _ z => some (a, (s.x a).val, 2 ^ z.toNat, .store)
  | .axor _ a _ _ _ z => some (a, (s.x a).val, 2 ^ z.toNat, .store)
  | .amin _ a _ _ _ z => some (a, (s.x a).val, 2 ^ z.toNat, .store)
  | .amax _ a _ _ _ z => some (a, (s.x a).val, 2 ^ z.toNat, .store)
  | .aminu _ a _ _ _ z => some (a, (s.x a).val, 2 ^ z.toNat, .store)
  | .amaxu _ a _ _ _ z => some (a, (s.x a).val, 2 ^ z.toNat, .store)
  | .dcclean b => some (b, (s.x b).val, 1, .load)
  | .dcflush b => some (b, (s.x b).val, 1, .load)
  | .icinv b => some (b, (s.x b).val, 1, .icinv)
  | _ => none

/-- The operand code of a scalar floating instruction (R96, R97): the low 32 bits of a register for FP32, the low 16 for BF16. -/
def fpCode (s : State) (fmt : BitVec 1) (r : XReg) : Nat := (s.x r).val.toNat % (if fmt = 1#1 then 2 ^ 16 else 2 ^ 32)

/-- The exact value of an operand (R144). -/
def fpVal (s : State) (fmt : BitVec 1) (r : XReg) : FV := (fmtOf fmt).decode (fpCode s fmt r)

/-- An exact result rounded once into the format under rm, as a register value with zeros above the code (R97). -/
def fpRounded (fmt : BitVec 1) (rm : BitVec 2) (x : Exact) : Word :=
  BitVec.ofNat 64 ((fmtOf fmt).round (rmodeOf rm.toNat) x.v x.sticky 0).1

/-- What a scalar floating instruction writes to a general register: destination, registers read in the order of R361, value, and whether it waits out a fixed cost (R97, R99). -/
def fpForm (s : State) : Instr → Option (XReg × List XReg × Word × Bool)
  | .fadd d a b rm f => some (d, [a, b], fpRounded f rm (FV.add (rmodeOf rm.toNat) (fpVal s f a) (fpVal s f b)), false)
  | .fsub d a b rm f => some (d, [a, b], fpRounded f rm (FV.add (rmodeOf rm.toNat) (fpVal s f a) (fpVal s f b).neg), false)
  | .fmul d a b rm f => some (d, [a, b], fpRounded f rm (FV.mul (fpVal s f a) (fpVal s f b)), false)
  | .fdiv d a b rm f => some (d, [a, b], fpRounded f rm (FV.div (fpVal s f a) (fpVal s f b)), true)
  | .fsqrt d a rm f => some (d, [a], fpRounded f rm (FV.sqrt (fpVal s f a)), true)
  | .fmac d a b rm f =>
    some (d, [a, b, d], fpRounded f rm (FV.add (rmodeOf rm.toNat) (fpVal s f d) (FV.mul (fpVal s f a) (fpVal s f b)).v), false)
  | .fmin d a b f => some (d, [a, b], BitVec.ofNat 64 ((fmtOf f).minmax false (fpCode s f a) (fpCode s f b)), false)
  | .fmax d a b f => some (d, [a, b], BitVec.ofNat 64 ((fmtOf f).minmax true (fpCode s f a) (fpCode s f b)), false)
  | .fneg d a f => some (d, [a], BitVec.ofNat 64 (if f = 1#1 then fpCode s f a ^^^ 2 ^ 15 else fpCode s f a ^^^ 2 ^ 31), false)
  | .fabs d a f => some (d, [a], BitVec.ofNat 64 (if f = 1#1 then fpCode s f a % 2 ^ 15 else fpCode s f a % 2 ^ 31), false)
  | .fkind d a f => some (d, [a], BitVec.ofNat 64 (fkindWord (fmtOf f) (fpCode s f a)), false)
  | .ftoi d a rm f => some (d, [a], BitVec.ofInt 64 (roundInt (rmodeOf rm.toNat) (-(2 ^ 63)) (2 ^ 63 - 1) (fpVal s f a) 0).1, false)
  | .ftou d a rm f => some (d, [a], BitVec.ofInt 64 (roundInt (rmodeOf rm.toNat) 0 (2 ^ 64 - 1) (fpVal s f a) 0).1, false)
  | .itof d a rm f => some (d, [a], fpRounded f rm { v := .fin (decide ((s.x a).val.toInt < 0)) (s.x a).val.toInt.natAbs 0 }, false)
  | .utof d a rm f => some (d, [a], fpRounded f rm { v := .fin false (s.x a).val.toNat 0 }, false)
  | .ftof d a rm f => some (d, [a], fpRounded f rm { v := fpVal s (~~~f) a }, false)
  | _ => none

/-- The scalar floating compares: destination, sources, format, and the condition on an order (R97). -/
def fpCompareForm : Instr → Option (PReg × XReg × XReg × BitVec 1 × (Ordering → Bool))
  | .fcmpeq q a b f => some (q, a, b, f, fun o => o == .eq)
  | .fcmplt q a b f => some (q, a, b, f, fun o => o == .lt)
  | .fcmple q a b f => some (q, a, b, f, fun o => o != .gt)
  | _ => none

/-- A code is a NaN of its format: exponent all ones and a fraction that is not zero (R144). -/
def fpIsNan (fmt : BitVec 1) (c : Nat) : Prop :=
  if fmt = 1#1 then c / 2 ^ 7 % 2 ^ 8 = 255 ∧ c % 2 ^ 7 ≠ 0 else c / 2 ^ 23 % 2 ^ 8 = 255 ∧ c % 2 ^ 23 ≠ 0

/-- The canonical NaN of a format (R97). -/
def fpNan (fmt : BitVec 1) : Word := if fmt = 1#1 then 0x7FC0#64 else 0x7FC00000#64

/-- The origin of the first poisoned register of a list (R361). -/
def firstOrigin (s : State) (rs : List XReg) : Option Word := (rs.filterMap fun r => (s.x r).psn).head?

/-- The context key of a slot of the core that issues (R17). -/
def slotAt (s : State) (n : Nat) : Nat := 16 * (s.cur / 16) + n

/-- The process of a context, where it has one, is not ending (R237). -/
def GoesOn (s : State) (c : Nat) : Prop :=
  ∀ l e, s.procOf c = some l → s.entry l = some e → e.isEnded = false ∧ e.kill = false

/-- A context can be STOPPED at once: it is at a boundary, in no channel operation, and has no vector work to finish (R111, R120). -/
def StopsAtOnce (s : State) (c : Nat) : Prop :=
  (s.ctx c).slot = .running ∧ (s.ctx c).atBoundary = true ∧ (s.ctx c).chan = none ∧ s.queueOf c = []

/-- Nothing changes but some contexts of one core, its partitions and its shared registers. -/
def OnlyCoreOf (s t : State) : Prop :=
  t = { s with ctxs := t.ctxs, cores := t.cores } ∧ (∀ d, d / 16 ≠ s.cur / 16 → t.ctx d = s.ctx d)
    ∧ (∀ k, k ≠ s.cur / 16 → t.core k = s.core k) ∧ MemSame s t

/-- An endpoint after its holder gave it up (R207): UNBOUND, but a CLOSED one stays CLOSED. -/
def givenUp (p : Endpoint) : Endpoint :=
  { p with st := match p.st with
      | .closed _ => .closed none
      | _ => .unbound }

/-- What the takeover of a region changes outside the context that issues (R126, R208): contexts, cores and endpoints; the stream endpoints of the region are given up by its former owner, and without them only its own core. -/
def TookOver (s t : State) (q : Part) : Prop :=
  t = { s with ctxs := t.ctxs, cores := t.cores, entries := t.entries } ∧ (∀ d, d ≠ s.cur → t.ctx d = s.ctx d) ∧ MemSame s t
    ∧ ((q.owner = none ∨ (q.str0.bound = false ∧ q.str1.bound = false)) → OnlyCoreOf s t)
    ∧ ∀ o l w p, q.owner = some o → s.procOf (slotAt s o) = some l → (q.stream w).bound = true → s.ep l (q.stream w).ep.toNat = some p →
        t.ep l (q.stream w).ep.toNat = some (givenUp p)

/-- The other contexts of the core keep all they hold, but for the slots of a list. -/
def OthersKept (s t : State) (except : List Nat) : Prop := ∀ d, d ≠ s.cur → d ∉ except → t.ctx d = s.ctx d

/-- A barrier operand (R285): the core key and the number of the barrier. -/
def barrierKey (s : State) (v : Word) : Nat × Nat :=
  (if v.getLsbD 7 then 8 * (s.cur / 128) + v.toNat / 256 % 8 else s.cur / 16, v.toNat % 128)

/-- The barrier that an operand names. -/
def barrierOf (s : State) (v : Word) : Barrier := (s.core (barrierKey s v).1).barrier (barrierKey s v).2

/-- The three checks of R285 that end an operation with a status: REMOTE, UNINIT, FAULTED. -/
def BarrierFails (s : State) (v : Word) (e : Nat) : Prop :=
  let far := (barrierKey s v).1 ≠ s.cur / 16 ∧ (barrierOf s v).scope = 1#2
  (e = 2 ∧ far) ∨ (e = 1 ∧ ¬ far ∧ (barrierOf s v).init = false) ∨ (e = 4 ∧ ¬ far ∧ (barrierOf s v).init = true ∧ (barrierOf s v).err = true)

/-- None of the three checks fails. -/
def BarrierOpen (s : State) (v : Word) : Prop :=
  ((barrierKey s v).1 = s.cur / 16 ∨ (barrierOf s v).scope ≠ 1#2) ∧ (barrierOf s v).init = true ∧ (barrierOf s v).err = false

/-- Completion after an event (R283). -/
def afterEvent (b : Barrier) : Barrier :=
  if b.init = true ∧ b.err = false ∧ b.target ≤ b.count ∧ b.pending = 0 then { b with phase := b.phase + 1, count := 0 } else b

/-- One barrier takes a value; every other barrier of every core keeps its own. -/
def OneBarrier (s t : State) (v : Word) (b : Barrier) : Prop :=
  (t.core (barrierKey s v).1).barrier (barrierKey s v).2 = b
    ∧ ∀ k n, (k, n) ≠ barrierKey s v → (t.core k).barrier n = (s.core k).barrier n

/-- Nothing changes but barriers and the context that issues. -/
def OnlyBarriers (s t : State) : Prop :=
  t = { s with ctxs := t.ctxs, cores := t.cores } ∧ (∀ d, d ≠ s.cur → t.ctx d = s.ctx d)
    ∧ (∀ k, t.core k = { s.core k with barriers := (t.core k).barriers }) ∧ MemSame s t

/-- A status of R285 as a register value: 2^64 - e. -/
def statusReg (e : Nat) : Reg := Reg.clean (BitVec.ofInt 64 (-(e : Int)))

/-- The record that CREAP returns for a context STOPPED for a reason (R122): reason, trap cause after a double trap, exit value after CSELF. -/
def stopRecord (c : Ctx) : StopReason → Reg
  | .exited => { val := BitVec.ofNat 64 (1 + 2 ^ 32 * (c.exitv.val.toNat % 2 ^ 32)), psn := c.exitv.psn }
  | .halted => Reg.clean 2#64
  | .double => Reg.clean (BitVec.ofNat 64 (3 + 256 * c.trapcause.toNat))
  | .joined => Reg.clean 4#64

/-- The instructions that only place an entry in the vector queue (R168, R171, R178 to R191): format class (0 any, 1 integer, 2 floating), fields that name data registers, source fields, and the entry. -/
def vecForm (s : State) : Instr → Option (Nat × List VReg × List VReg × VOp)
  | .vadd d a c x mk => some (1, [d, a] ++ vfields x c, [a] ++ vfields x c, .int .add d a (s.vsrc x c) mk)
  | .vsub d a c x mk => some (1, [d, a] ++ vfields x c, [a] ++ vfields x c, .int .sub d a (s.vsrc x c) mk)
  | .vrsub d a c x mk => some (1, [d, a] ++ vfields x c, [a] ++ vfields x c, .int .rsub d a (s.vsrc x c) mk)
  | .vand d a c x mk => some (1, [d, a] ++ vfields x c, [a] ++ vfields x c, .int .and d a (s.vsrc x c) mk)
  | .vor d a c x mk => some (1, [d, a] ++ vfields x c, [a] ++ vfields x c, .int .or d a (s.vsrc x c) mk)
  | .vxor d a c x mk => some (1, [d, a] ++ vfields x c, [a] ++ vfields x c, .int .xor d a (s.vsrc x c) mk)
  | .vsll d a c x mk => some (1, [d, a] ++ vfields x c, [a] ++ vfields x c, .int .sll d a (s.vsrc x c) mk)
  | .vsrl d a c x mk => some (1, [d, a] ++ vfields x c, [a] ++ vfields x c, .int .srl d a (s.vsrc x c) mk)
  | .vsra d a c x mk => some (1, [d, a] ++ vfields x c, [a] ++ vfields x c, .int .sra d a (s.vsrc x c) mk)
  | .vmin d a c x mk => some (1, [d, a] ++ vfields x c, [a] ++ vfields x c, .int .min d a (s.vsrc x c) mk)
  | .vmax d a c x mk => some (1, [d, a] ++ vfields x c, [a] ++ vfields x c, .int .max d a (s.vsrc x c) mk)
  | .vminu d a c x mk => some (1, [d, a] ++ vfields x c, [a] ++ vfields x c, .int .minu d a (s.vsrc x c) mk)
  | .vmaxu d a c x mk => some (1, [d, a] ++ vfields x c, [a] ++ vfields x c, .int .maxu d a (s.vsrc x c) mk)
  | .vmul d a c x mk => some (1, [d, a] ++ vfields x c, [a] ++ vfields x c, .int .mul d a (s.vsrc x c) mk)
  | .vmulh d a c x mk => some (1, [d, a] ++ vfields x c, [a] ++ vfields x c, .int .mulh d a (s.vsrc x c) mk)
  | .vmulhu d a c x mk => some (1, [d, a] ++ vfields x c, [a] ++ vfields x c, .int .mulhu d a (s.vsrc x c) mk)
  | .vsadd d a c x mk => some (1, [d, a] ++ vfields x c, [a] ++ vfields x c, .int .sadd d a (s.vsrc x c) mk)
  | .vsaddu d a c x mk => some (1, [d, a] ++ vfields x c, [a] ++ vfields x c, .int .saddu d a (s.vsrc x c) mk)
  | .vssub d a c x mk => some (1, [d, a] ++ vfields x c, [a] ++ vfields x c, .int .ssub d a (s.vsrc x c) mk)
  | .vssubu d a c x mk => some (1, [d, a] ++ vfields x c, [a] ++ vfields x c, .int .ssubu d a (s.vsrc x c) mk)
  | .vmacc d a c x mk => some (1, [d, a] ++ vfields x c, [a] ++ vfields x c, .int .macc d a (s.vsrc x c) mk)
  | .vabs d a mk => some (1, [d, a], [a], .int .abs d a (.vec a) mk)
  | .vneg d a mk => some (1, [d, a], [a], .int .neg d a (.vec a) mk)
  | .vcmpeq m a c x mk => some (1, [a] ++ vfields x c, [a] ++ vfields x c, .icmp .eq m a (s.vsrc x c) mk)
  | .vcmpne m a c x mk => some (1, [a] ++ vfields x c, [a] ++ vfields x c, .icmp .ne m a (s.vsrc x c) mk)
  | .vcmplt m a c x mk => some (1, [a] ++ vfields x c, [a] ++ vfields x c, .icmp .lt m a (s.vsrc x c) mk)
  | .vcmple m a c x mk => some (1, [a] ++ vfields x c, [a] ++ vfields x c, .icmp .le m a (s.vsrc x c) mk)
  | .vcmpltu m a c x mk => some (1, [a] ++ vfields x c, [a] ++ vfields x c, .icmp .ltu m a (s.vsrc x c) mk)
  | .vcmpleu m a c x mk => some (1, [a] ++ vfields x c, [a] ++ vfields x c, .icmp .leu m a (s.vsrc x c) mk)
  | .vfadd d a c x mk => some (2, [d, a] ++ vfields x c, [a] ++ vfields x c, .fp .add d a (s.vsrc x c) mk)
  | .vfsub d a c x mk => some (2, [d, a] ++ vfields x c, [a] ++ vfields x c, .fp .sub d a (s.vsrc x c) mk)
  | .vfmul d a c x mk => some (2, [d, a] ++ vfields x c, [a] ++ vfields x c, .fp .mul d a (s.vsrc x c) mk)
  | .vfdiv d a c x mk => some (2, [d, a] ++ vfields x c, [a] ++ vfields x c, .fp .div d a (s.vsrc x c) mk)
  | .vfmin d a c x mk => some (2, [d, a] ++ vfields x c, [a] ++ vfields x c, .fp .min d a (s.vsrc x c) mk)
  | .vfmax d a c x mk => some (2, [d, a] ++ vfields x c, [a] ++ vfields x c, .fp .max d a (s.vsrc x c) mk)
  | .vfmacc d a c x mk => some (2, [d, a] ++ vfields x c, [a] ++ vfields x c, .fp .macc d a (s.vsrc x c) mk)
  | .vfsqrt d a mk => some (2, [d, a], [a], .fp .sqrt d a (.vec a) mk)
  | .vfabs d a mk => some (2, [d, a], [a], .fp .abs d a (.vec a) mk)
  | .vfneg d a mk => some (2, [d, a], [a], .fp .neg d a (.vec a) mk)
  | .vfcmpeq m a c x mk => some (2, [a] ++ vfields x c, [a] ++ vfields x c, .fcmp .eq m a (s.vsrc x c) mk)
  | .vfcmplt m a c x mk => some (2, [a] ++ vfields x c, [a] ++ vfields x c, .fcmp .lt m a (s.vsrc x c) mk)
  | .vfcmple m a c x mk => some (2, [a] ++ vfields x c, [a] ++ vfields x c, .fcmp .le m a (s.vsrc x c) mk)
  | .mand d a b _ mk => some (0, [], [], .mask .and d a b mk)
  | .mor d a b _ mk => some (0, [], [], .mask .or d a b mk)
  | .mxor d a b _ mk => some (0, [], [], .mask .xor d a b mk)
  | .mandn d a b _ mk => some (0, [], [], .mask .andn d a b mk)
  | .mnot d a _ mk => some (0, [], [], .mask .not d a a mk)
  | .mset d _ mk => some (0, [], [], .mask .set d d d mk)
  | .mclr d _ mk => some (0, [], [], .mask .clr d d d mk)
  | .vmv d a mk => some (0, [d, a], [a], .mv d a mk)
  | .vmerge d a c x m => some (0, [d, a] ++ vfields x c, [a] ++ vfields x c, .merge d a (s.vsrc x c) m)
  | .vbcast d r mk => some (0, [d], [], .bcast d (s.x r) mk)
  | .vmvsx d r => some (0, [d], [], .mvsx d (s.x r))
  | .vid d mk => some (0, [d], [], .vid d mk)
  | .vshuf d a i mk => some (0, [d, a, i], [a, i], .shuf d a i mk)
  | .vslideup d a r mk => some (0, [d, a], [a], .slideup d a (s.x r) mk)
  | .vslidedn d a r mk => some (0, [d, a], [a], .slidedn d a (s.x r) mk)
  | .vcompress d a m => some (0, [d, a], [a], .compress d a m)
  | .vexpand d a m => some (0, [d, a], [a], .expand d a m)
  | .vredSum d a x mk => if x = 0#1 then some (1, [d, a], [a], .red .sum d a mk) else none
  | .vredMin d a x mk => if x = 0#1 then some (1, [d, a], [a], .red .min d a mk) else none
  | .vredMax d a x mk => if x = 0#1 then some (1, [d, a], [a], .red .max d a mk) else none
  | .vredMinu d a x mk => if x = 0#1 then some (1, [d, a], [a], .red .minu d a mk) else none
  | .vredMaxu d a x mk => if x = 0#1 then some (1, [d, a], [a], .red .maxu d a mk) else none
  | .vredAnd d a x mk => if x = 0#1 then some (1, [d, a], [a], .red .and d a mk) else none
  | .vredOr d a x mk => if x = 0#1 then some (1, [d, a], [a], .red .or d a mk) else none
  | .vredXor d a x mk => if x = 0#1 then some (1, [d, a], [a], .red .xor d a mk) else none
  | .vredFsum d a x mk => if x = 0#1 then some (2, [d, a], [a], .red .fsum d a mk) else none
  | .vredFmin d a x mk => if x = 0#1 then some (2, [d, a], [a], .red .fmin d a mk) else none
  | .vredFmax d a x mk => if x = 0#1 then some (2, [d, a], [a], .red .fmax d a mk) else none
  | .vscanSum d a mk => some (1, [d, a], [a], .scan .sum d a mk)
  | .vscanMin d a mk => some (1, [d, a], [a], .scan .min d a mk)
  | .vscanMax d a mk => some (1, [d, a], [a], .scan .max d a mk)
  | .vscanMinu d a mk => some (1, [d, a], [a], .scan .minu d a mk)
  | .vscanMaxu d a mk => some (1, [d, a], [a], .scan .maxu d a mk)
  | .vscanAnd d a mk => some (1, [d, a], [a], .scan .and d a mk)
  | .vscanOr d a mk => some (1, [d, a], [a], .scan .or d a mk)
  | .vscanXor d a mk => some (1, [d, a], [a], .scan .xor d a mk)
  | .vscanFsum d a mk => some (2, [d, a], [a], .scan .fsum d a mk)
  | _ => none

/-- The reductions to a general register (R190, X = 1): class, destination, source, mask, operation, and whether the value is sign-extended. -/
def redForm : Instr → Option (Nat × XReg × VReg × VMask × RedOp × Bool)
  | .vredSum d a x mk => if x = 1#1 then some (1, d, a, mk, .sum, true) else none
  | .vredMin d a x mk => if x = 1#1 then some (1, d, a, mk, .min, true) else none
  | .vredMax d a x mk => if x = 1#1 then some (1, d, a, mk, .max, true) else none
  | .vredMinu d a x mk => if x = 1#1 then some (1, d, a, mk, .minu, false) else none
  | .vredMaxu d a x mk => if x = 1#1 then some (1, d, a, mk, .maxu, false) else none
  | .vredAnd d a x mk => if x = 1#1 then some (1, d, a, mk, .and, true) else none
  | .vredOr d a x mk => if x = 1#1 then some (1, d, a, mk, .or, true) else none
  | .vredXor d a x mk => if x = 1#1 then some (1, d, a, mk, .xor, true) else none
  | .vredFsum d a x mk => if x = 1#1 then some (2, d, a, mk, .fsum, false) else none
  | .vredFmin d a x mk => if x = 1#1 then some (2, d, a, mk, .fmin, false) else none
  | .vredFmax d a x mk => if x = 1#1 then some (2, d, a, mk, .fmax, false) else none
  | _ => none

/-- The reasons of VCONFIG that hold for a VTYPE, a format class and the data fields of an instruction (R141, R170). -/
def VReason (v : BitVec 18) (cls : Nat) (data : List VReg) : Nat → Prop
  | 2 => ¬ (vtSew v ≤ 5 ∧ vtFmt v ≤ 8 ∧ vtBlk v ≤ 2 ∧ vtRm v ≤ 4)
  | 3 => ¬ ((vtFmt v = 2 ∨ vtFmt v = 3 → vtSew v = 4) ∧ (vtFmt v = 4 → vtSew v = 5)
      ∧ (vtFmt v = 5 ∨ vtFmt v = 6 ∨ vtFmt v = 8 → vtSew v = 3) ∧ (vtFmt v = 7 → vtSew v = 2))
  | 4 => vtBlk v ≠ 0 ∧ ¬ ((vtFmt v = 5 ∨ vtFmt v = 6 ∨ vtFmt v = 7 ∨ (vtFmt v = 1 ∧ (vtSew v = 2 ∨ vtSew v = 3))) ∧ vtSreg v ≤ 23)
  | 5 => (cls = 1 ∧ 1 < vtFmt v) ∨ (cls = 2 ∧ vtFmt v ≠ 2 ∧ vtFmt v ≠ 3 ∧ vtFmt v ≠ 4)
  | 6 => vtSew v = 5 ∧ ∃ r ∈ data, r.toNat % 2 = 1 ∨ (24 ≤ r.toNat ∧ r.toNat ≤ 27)
  | _ => False

/-- No reason of VCONFIG holds. -/
def VLegal (v : BitVec 18) (cls : Nat) (data : List VReg) : Prop := ∀ r, ¬ VReason v cls data r

/-- TRAPVAL of VCONFIG and STREAM: the instruction word above a reason (R170, R213). -/
def reasonVal (s : State) (r : Nat) : Word := BitVec.ofNat 64 (s.iw.toNat * 2 ^ 32 + r)

/-- A stream register can supply a source (R213): it is full and no queued entry takes that vector, or it is bound to an open channel. -/
def StreamReady (p : Part) (w : Bool) : Prop :=
  ((p.stream w).full = true ∧ ∀ e ∈ p.pending, w ∈ e.uses → e.keep = true) ∨ ((p.stream w).bound = true ∧ (p.stream w).closed = false)

/-- Every stream register among some sources can supply its vector. -/
def StreamsReady (p : Part) (srcs : List VReg) : Prop := ∀ w, streamReg w ∈ srcs → StreamReady p w

/-- Every stream register among some sources holds a vector. -/
def StreamsFull (p : Part) (srcs : List VReg) : Prop := ∀ w, streamReg w ∈ srcs → (p.stream w).full = true

/-- A partition whose stream registers among some sources have been read (R213). -/
def consumed (srcs : List VReg) (p : Part) : Part :=
  { p with str0 := if 28#5 ∈ srcs then { p.str0 with full := false } else p.str0
           str1 := if 29#5 ∈ srcs then { p.str1 with full := false } else p.str1 }

/-- Nothing changes but the context that issues, and the partition that it owns, which has become q. -/
def OnlyPart (s t : State) (q : Part) : Prop :=
  t = { s with ctxs := t.ctxs, cores := t.cores, fresh := t.fresh } ∧ (∀ d, d ≠ s.cur → t.ctx d = s.ctx d)
    ∧ (∀ k, k ≠ myCoreKey s → t.core k = s.core k)
    ∧ t.core (myCoreKey s) = { s.core (myCoreKey s) with parts := (t.core (myCoreKey s)).parts }
    ∧ t.myPart = some q
    ∧ (t.core (myCoreKey s)).parts.filter (fun r => r.base ≠ q.base) = (s.core (myCoreKey s)).parts.filter (fun r => r.base ≠ q.base)
    ∧ MemSame s t

/-- The entry that a context places in its partition's queue: what the scalar phase read (R168), its number, its strip interval (R266), and what a FENCE.Q makes it wait for (R94). -/
def entryOf (s : State) (p : Part) (op : VOp) (uses : List Bool) : VEntry :=
  { op := op, vl := p.vl, vtype := p.vtype, vsbase := p.vsbase, vseed := p.vseed, bank := p.bank, stamp := s.fresh, by_ := s.cur,
    after := s.me.depVec, uses := uses, keep := false, iv := p.iv }

/-- An instruction has placed an entry and moved past itself (R127); no register and no predicate changed. -/
def Queued (s t : State) (p : Part) (op : VOp) (srcs : List VReg) : Prop :=
  Fell s t ∧ OnlyPc s.me t.me
    ∧ OnlyPart s t { p with queue := p.queue ++ [entryOf s p op (([false, true] : List Bool).filter fun w => srcs.contains (streamReg w))] }

/-- Bit e of a mask register in a partition: set, and poisoned (R134, R169). -/
def maskAt (s : State) (p : Part) (m : MReg) (e : Nat) : Bool × Bool := s.myCore.maskBit p m.toNat (sewBits (vtSew p.vtype)) e

/-- An element is active under a mask: its bit is 1, or poisoned (R168, R169). -/
def onAt (s : State) (p : Part) (mk : VMask) (e : Nat) : Bool :=
  match mk with
  | none => true
  | some m => (maskAt s p m e).1 || (maskAt s p m e).2

/-- A bit that MPOPC or MFIRST examines is poisoned (R186): a mask bit, or the source bit of an element that the mask does not leave out (log entry 13). -/
def bitsPoisoned (s : State) (p : Part) (ms1 : MReg) (mk : VMask) : Bool :=
  (List.range p.vl).any fun e => onAt s p mk e && ((maskAt s p ms1 e).2 || (match mk with
    | some m => (maskAt s p m e).2
    | none => false))

/-- The drained array may be read: no entry is left to complete and no parity mismatch lies in the core's arrays (R129, R366). -/
def ArrayStill (s : State) (p : Part) : Prop := p.pending = [] ∧ s.myCore.parity = []

/-- An n-bit two's complement number. -/
def signedN (n v : Nat) : Int := (BitVec.ofNat n v).toInt

/-- An integer as n bits. -/
def wrapped (n : Nat) (i : Int) : Nat := (BitVec.ofInt n i).toNat

/-- An integer limited to a range. -/
def limited (lo hi i : Int) : Int := max lo (min hi i)

/-- The integer operations on elements as the table of R179 states them: sources a and b and the old destination d, n bits each. -/
def elementOp (op : VInt) (n a b d : Nat) : Nat :=
  match op with
  | .add => (a + b) % 2 ^ n
  | .sub => wrapped n ((a : Int) - b)
  | .rsub => wrapped n ((b : Int) - a)
  | .and => a &&& b
  | .or => a ||| b
  | .xor => a ^^^ b
  | .sll => a * 2 ^ (b % n) % 2 ^ n
  | .srl => a / 2 ^ (b % n)
  | .sra => wrapped n (signedN n a / 2 ^ (b % n))
  | .min => if signedN n b < signedN n a then b else a
  | .max => if signedN n a < signedN n b then b else a
  | .minu => min a b
  | .maxu => max a b
  | .mul => a * b % 2 ^ n
  | .mulh => wrapped n (signedN n a * signedN n b / 2 ^ n)
  | .mulhu => a * b / 2 ^ n
  | .sadd => wrapped n (limited (-(2 ^ (n - 1))) (2 ^ (n - 1) - 1) (signedN n a + signedN n b))
  | .saddu => min (a + b) (2 ^ n - 1)
  | .ssub => wrapped n (limited (-(2 ^ (n - 1))) (2 ^ (n - 1) - 1) (signedN n a - signedN n b))
  | .ssubu => a - b
  | .macc => (d + a * b) % 2 ^ n
  | .abs => (signedN n a).natAbs % 2 ^ n
  | .neg => wrapped n (-(a : Int))

/-- An operation that has one source reads no second one. -/
def oneSource (op : VInt) : Bool := op == .abs || op == .neg

/-- The second source of an entry at an element of w bits (R168): an element, or the low bits of a scalar; its value and its poison. -/
def secondAt (c : Core) (p : Part) (w : Nat) (b : VSrc) (e : Nat) : Nat × Bool :=
  match b with
  | .vec r => c.elem p r.toNat w e
  | .sc v => (v.val.toNat % 2 ^ w, v.psn.isSome)

/-- An element is active for an entry of a core: below VL, with its mask bit set or poisoned; and the poison of that bit (R168, R169). -/
def entryActive (c : Core) (p : Part) (e : VEntry) (mk : VMask) (j : Nat) : Prop :=
  j < e.vl ∧ ∀ m, mk = some m → (c.maskBit p m.toNat (sewBits (vtSew e.vtype)) j).1 = true ∨ (c.maskBit p m.toNat (sewBits (vtSew e.vtype)) j).2 = true

/-- The poison of the mask bit of an element. -/
def maskPoison (c : Core) (p : Part) (e : VEntry) (mk : VMask) (j : Nat) : Bool :=
  match mk with
  | none => false
  | some m => (c.maskBit p m.toNat (sewBits (vtSew e.vtype)) j).2

/-- The entry at the head of the queue of the partition with a base. -/
def HeadIs (s : State) (k base : Nat) (p : Part) (e : VEntry) : Prop :=
  (s.core k).parts.find? (fun q => q.base == base) = some p ∧ p.queue.head? = some e

/-- The check that a data register overlaps neither index nor mask (R194, R274). -/
def guarded (v : VMem) : VMem := { v with more := fun p => (9, v.overlaps p) :: v.more p }

/-- The vector memory instructions as R193 to R195 and R273 to R280 state them: data register, base, how element addresses are formed, mask, direction, and the entry. -/
def vmemForm (s : State) : Instr → Option VMem
  | .vld d b mk => some (guarded { data := d, base := s.x b, addr := .unit, mk_ := mk, store := false, more := fun _ => [], op := fun els _ => .load d els })
  | .vlds d b r mk => some (guarded { data := d, base := s.x b, addr := .strided (s.x r), mk_ := mk, store := false, more := fun _ => [], op := fun els _ => .load d els })
  | .vldx d b i w mk => some (guarded { data := d, base := s.x b, addr := .indexed i w, mk_ := mk, store := false, more := fun _ => [], op := fun els _ => .load d els })
  | .vst d b mk => some { data := d, base := s.x b, addr := .unit, mk_ := mk, store := true, more := fun _ => [], op := fun els _ => .store d els }
  | .vsts d b r mk => some { data := d, base := s.x b, addr := .strided (s.x r), mk_ := mk, store := true, more := fun _ => [], op := fun els _ => .store d els }
  | .vstx d b i w mk => some { data := d, base := s.x b, addr := .indexed i w, mk_ := mk, store := true, more := fun _ => [], op := fun els _ => .store d els }
  | .vldl d b i w mk => some (guarded { data := d, base := s.x b, addr := .indexed i w, mk_ := mk, store := false, more := fun _ => [], op := fun els _ => .loadLinked d els })
  | .vstc d b i w m => some (guarded { data := d, base := s.x b, addr := .indexed i w, mk_ := some m, store := true, more := fun _ => [], op := fun els l => .storeCond d m els l })
  | .vamoAdd d b i mk => some (guarded { data := d, base := s.x b, addr := .indexed i 2#2, mk_ := mk, store := true, more := fun p => [intClass p.vtype], op := fun els _ => .amo .add d els })
  | .vamoMin d b i mk => some (guarded { data := d, base := s.x b, addr := .indexed i 2#2, mk_ := mk, store := true, more := fun p => [intClass p.vtype], op := fun els _ => .amo .min d els })
  | .vamoMax d b i mk => some (guarded { data := d, base := s.x b, addr := .indexed i 2#2, mk_ := mk, store := true, more := fun p => [intClass p.vtype], op := fun els _ => .amo .max d els })
  | .vamoFadd d b i mk => some (guarded { data := d, base := s.x b, addr := .indexed i 2#2, mk_ := mk, store := true, more := fun p => [fpClass p.vtype], op := fun els _ => .amo .fadd d els })
  | _ => none

/-- The scalar phase of a vector memory instruction finds nothing to trap or to wait for (R141, R195 steps 1 to 3): its VTYPE, its data and index fields are legal, its registers clean, its streams ready, the queue has drained where a mask or an index is read, and what it reads of the array is clean. -/
def VMemClear (s : State) (v : VMem) (p : Part) : Prop :=
  VLegal p.vtype 0 (v.data :: (match v.addr with
      | .indexed i _ => [i]
      | _ => []))
    ∧ (∀ r ∈ v.reasons p, r.2 = false)
    ∧ v.base.psn = none ∧ (∀ x, v.addr = .strided x → x.psn = none) ∧ StreamsReady p v.srcs
    ∧ (v.mk_.isSome ∨ v.index.isSome →
        ArrayStill s p ∧ v.poisoned s.myCore p = false ∧ ∀ i w, v.addr = .indexed i w → StreamsFull p [i])

/-- The checks of R195 step 4 over the elements from VFIDX up that are active: the state after the walks, the elements that pass, and the first that fails. -/
def VChecks (s : State) (v : VMem) (p : Part) : State × List EAddr × Option (Nat × VFault) :=
  s.checkElems v.isUnit (if v.store then AccKind.store else .load) (max 1 (sewBits (vtSew p.vtype) / 8)) (v.elemAddr s.myCore p)
    ((List.range p.vl).filter fun e => decide (p.vfidx ≤ e) && (match v.mk_ with
      | some m => (maskAt s p m e).1
      | none => true)) []

/-- The active elements all pass their checks, and translate to els. -/
def VTranslates (s : State) (v : VMem) (p : Part) (s1 : State) (els : List EAddr) : Prop := VChecks s v p = (s1, els, none)

/-- The elements of an instruction in the pieces that its queue entries take (R257). -/
def piecesAt (s1 : State) (v : VMem) (els : List EAddr) : List (List EAddr) := s1.cutPieces v.isUnit els [] []

/-- Distinct pages that some elements touch, by their translations (R257). -/
def pageCount (els : List EAddr) : Nat := (els.map EAddr.page).dedup.length

/-- The entries of the pieces of an instruction (R257): each takes a number; only the last, when no element failed, gives stream registers up. -/
def piecesOf (s : State) (p : Part) (uses : List Bool) (ops : List VOp) (fails : Bool) : List VEntry :=
  ops.zipIdx.map fun x => { entryOf s p x.1 uses with stamp := s.fresh + x.2, keep := decide (x.2 + 1 < ops.length) || fails }

/-- Elements that the lanes of a partition hold at a width (R134). -/
def roomAt (p : Part) (w : Nat) : Nat := 128 * p.svc.length * slotsOf w

/-- The elements of a register at a width that a condition names have become what f gives; the others, and the rows of every other register, are as they were (R134, R168). -/
def ElementsAre (s t : State) (k : Nat) (p : Part) (d w : Nat) (on : Nat → Prop) (f : Nat → Nat × Bool) : Prop :=
  (∀ j, on j → (t.core k).elem p d w j = f j)
    ∧ (∀ j, j < roomAt p w → ¬ on j → (t.core k).elem p d w j = (s.core k).elem p d w j)
    ∧ ∀ r l, r ≠ d → (w = 32 → r ≠ d + 1) → (t.core k).rows r l = (s.core k).rows r l

/-- The same of the bits of a mask register. -/
def BitsAre (s t : State) (k : Nat) (p : Part) (m w : Nat) (on : Nat → Prop) (f : Nat → Bool × Bool) : Prop :=
  (∀ j, on j → (t.core k).maskBit p m w j = f j)
    ∧ (∀ j, j < roomAt p w → ¬ on j → (t.core k).maskBit p m w j = (s.core k).maskBit p m w j)
    ∧ ∀ r l, r ≠ 24 + m → (t.core k).rows r l = (s.core k).rows r l

/-- The head of a partition's queue may perform at once, on an array without parity mismatches (R94, R128, R366). -/
def StillHead (s : State) (k base : Nat) (p : Part) (e : VEntry) : Prop :=
  HeadIs s k base p e ∧ s.clocked k = true ∧ e.after = [] ∧ e.uses = [] ∧ p.fly = [] ∧ (s.core k).parity = [] ∧ p.svc.Nodup ∧ vtSew e.vtype ≤ 5

/-- The head has left the queue, and nothing changes outside the core; its contexts, and every byte of memory, are as they were. -/
def HeadDone (s t : State) (k base : Nat) (p : Part) : Prop :=
  (∃ q, (t.core k).parts.find? (fun r => r.base == base) = some q ∧ q = { p with queue := p.queue.tail, vflags := q.vflags, vporig := q.vporig })
    ∧ MemSame s t ∧ (∀ j, j ≠ k → t.core j = s.core j) ∧ ∀ x, t.ctx x = s.ctx x

/-- The random word of an element under SR (R149). -/
def entryRnd (e : VEntry) (j : Nat) : Nat := srBits e.vseed (e.vsbase + BitVec.ofNat 64 j)

/-- The floating format that VTYPE names (R181). -/
def entryFmt (e : VEntry) : Fmt := if vtFmt e.vtype = 2 then fmtBF16 else if vtFmt e.vtype = 3 then fmtFP16 else fmtF32

/-- The floating operations on elements as R181 states them: the exact result, rounded once. -/
def floatOp (op : VFp) (f : Fmt) (mode : RMode) (rnd a b d : Nat) : Nat :=
  match op with
  | .add => ((FV.add mode (f.decode a) (f.decode b)).round f mode rnd).1
  | .sub => ((FV.add mode (f.decode a) (f.decode b).neg).round f mode rnd).1
  | .mul => ((FV.mul (f.decode a) (f.decode b)).round f mode rnd).1
  | .div => ((FV.div (f.decode a) (f.decode b)).round f mode rnd).1
  | .sqrt => ((FV.sqrt (f.decode a)).round f mode rnd).1
  | .min => f.minmax false a b
  | .max => f.minmax true a b
  | .macc => ((FV.fma mode (f.decode d) (f.decode a) (f.decode b)).round f mode rnd).1
  | .abs => a % 2 ^ f.mbits
  | .neg => if a / 2 ^ f.mbits % 2 = 1 then a % 2 ^ f.mbits else a % 2 ^ f.mbits + 2 ^ f.mbits

/-- A floating operation that has one source. -/
def oneSourceFp (op : VFp) : Bool := op == .sqrt || op == .abs || op == .neg

/-- The integer conditions (R180) on n-bit patterns. -/
def condAt (c : Cond) (n a b : Nat) : Bool :=
  match c with
  | .eq => decide (a = b)
  | .ne => decide (a ≠ b)
  | .lt => decide (signedN n a < signedN n b)
  | .le => decide (signedN n a ≤ signedN n b)
  | .ge => decide (signedN n b ≤ signedN n a)
  | .ltu => decide (a < b)
  | .leu => decide (a ≤ b)
  | .geu => decide (b ≤ a)

/-- The floating conditions (R182): false for a NaN. -/
def fcondAt (c : FCond) (f : Fmt) (a b : Nat) : Bool :=
  !(f.decode a).isNan && !(f.decode b).isNan && (match c with
    | .eq => (f.decode a).cmp (f.decode b) == .eq
    | .lt => (f.decode a).cmp (f.decode b) == .lt
    | .le => (f.decode a).cmp (f.decode b) != .gt)

/-- What a queued operation with one result for each active element gives (R181, R187 to R190): destination, mask, and for an element its value and whether it is poisoned. -/
def elementForm (c : Core) (p : Part) (e : VEntry) : Option (VReg × VMask × (Nat → Nat × Bool)) :=
  let w := sewBits (vtSew e.vtype)
  let el := fun (r : VReg) (j : Nat) => c.elem p r.toNat w j
  let mp := maskPoison c p e
  let mode := rmodeOf (vtRm e.vtype)
  match e.op with
  | .fp op d a b mk => some (d, mk, fun j =>
      (floatOp op (entryFmt e) mode (entryRnd e j) (el a j).1 (if oneSourceFp op then 0 else (secondAt c p w b j).1) (el d j).1 % 2 ^ w,
       (el a j).2 || (!oneSourceFp op && (secondAt c p w b j).2) || (decide (op = .macc) && (el d j).2) || mp mk j))
  | .mv d a mk => some (d, mk, fun j => ((el a j).1, (el a j).2 || mp mk j))
  | .bcast d v mk => some (d, mk, fun j => (v.val.toNat % 2 ^ w, v.psn.isSome || mp mk j))
  | .vid d mk => some (d, mk, fun j => (j % 2 ^ w, mp mk j))
  | .shuf d a i mk => some (d, mk, fun j =>
      if (el i j).1 < e.vl then ((el a (el i j).1).1, (el i j).2 || (el a (el i j).1).2 || mp mk j) else (0, (el i j).2 || mp mk j))
  | .slidedn d a n mk => some (d, mk, fun j =>
      if j + n.val.toNat < e.vl then ((el a (j + n.val.toNat)).1, n.psn.isSome || (el a (j + n.val.toNat)).2 || mp mk j) else (0, n.psn.isSome || mp mk j))
  | .scan op d a mk => some (d, mk, fun j =>
      ((({ core := c, part := p, ent := e } : VEnv).scanAt op a mk j).v % 2 ^ w, (({ core := c, part := p, ent := e } : VEnv).scanAt op a mk j).o.isSome || mp mk j))
  | _ => none

/-- What a queued operation with one result bit for each active element gives (R180, R182, R185): mask register, mask, and for an element its bit and whether it is poisoned. -/
def bitForm (c : Core) (p : Part) (e : VEntry) : Option (MReg × VMask × (Nat → Bool × Bool)) :=
  let w := sewBits (vtSew e.vtype)
  let el := fun (r : VReg) (j : Nat) => c.elem p r.toNat w j
  let bit := fun (m : MReg) (j : Nat) => c.maskBit p m.toNat w j
  let mp := maskPoison c p e
  match e.op with
  | .icmp op m a b mk => some (m, mk, fun j => (condAt op w (el a j).1 (secondAt c p w b j).1, (el a j).2 || (secondAt c p w b j).2 || mp mk j))
  | .fcmp op m a b mk => some (m, mk, fun j => (fcondAt op (entryFmt e) (el a j).1 (secondAt c p w b j).1, (el a j).2 || (secondAt c p w b j).2 || mp mk j))
  | .mask .and m a b mk => some (m, mk, fun j => ((bit a j).1 && (bit b j).1, (bit a j).2 || (bit b j).2 || mp mk j))
  | .mask .or m a b mk => some (m, mk, fun j => ((bit a j).1 || (bit b j).1, (bit a j).2 || (bit b j).2 || mp mk j))
  | .mask .xor m a b mk => some (m, mk, fun j => (Bool.xor (bit a j).1 (bit b j).1, (bit a j).2 || (bit b j).2 || mp mk j))
  | .mask .andn m a b mk => some (m, mk, fun j => ((bit a j).1 && !(bit b j).1, (bit a j).2 || (bit b j).2 || mp mk j))
  | .mask .not m a _ mk => some (m, mk, fun j => (!(bit a j).1, (bit a j).2 || mp mk j))
  | .mask .set m _ _ mk => some (m, mk, fun j => (true, mp mk j))
  | .mask .clr m _ _ mk => some (m, mk, fun j => (false, mp mk j))
  | _ => none

/-- The elements below VL whose mask bit is set or poisoned, in order (R169, R191). -/
def packed (c : Core) (p : Part) (e : VEntry) (m : MReg) : List Nat :=
  (List.range e.vl).filter fun j => (c.maskBit p m.toNat (sewBits (vtSew e.vtype)) j).1 || (c.maskBit p m.toNat (sewBits (vtSew e.vtype)) j).2

/-- A mask bit at or below an element is poisoned. -/
def poisonUpTo (c : Core) (p : Part) (e : VEntry) (m : MReg) (j : Nat) : Bool :=
  (List.range (j + 1)).any fun i => (c.maskBit p m.toNat (sewBits (vtSew e.vtype)) i).2

/-- The formats of a conversion with their widths (R183): of its source and of its result. -/
def cvtPair (k : Cvt) (e : VEntry) (tag : BitVec 5) : EltFmt × EltFmt :=
  match k with
  | .dequant => (tagFmt (vtFmt e.vtype), tagFmt tag.toNat)
  | _ => (tagFmt tag.toNat, tagFmt (vtFmt e.vtype))

/-- A value under a block scale code (R145): divided by its power of two where it is quantised, multiplied where not; a NaN under the code 0xFF. -/
def underScale (x : FV) (code : Nat) (divide : Bool) : FV :=
  if code = 255 then .nan else x.scale (if divide then 127 - (code : Int) else (code : Int) - 127)

/-- The bytes that an element access of a width covers (R194). -/
def spanAt (w : Nat) (a : EAddr) (x : Nat) : Prop := a.pa ≤ x ∧ x < a.pa + max 1 (w / 8)

/-- Element accesses of an entry in rising order of element, within what the lanes hold. -/
def InOrder (p : Part) (w : Nat) (els : List EAddr) : Prop := els.Pairwise (fun a b => a.e < b.e) ∧ ∀ a ∈ els, a.e < roomAt p w

/-- No two element accesses share a byte. -/
def Apart (w : Nat) (els : List EAddr) : Prop := els.Pairwise fun a b => ∀ x, spanAt w a x → ¬ spanAt w b x

/-- No core of the tile of a core but that core holds writes short of TILE. -/
def OthersHoldNothing (s : State) (k : Nat) : Prop := ∀ j, j / 8 = k / 8 → j ≠ k → (s.core j).buf = []

/-- The new value of a VAMO element (R280). -/
def amoOp (op : VAmoOp) (e : VEntry) (j old x : Nat) : Nat :=
  let w := sewBits (vtSew e.vtype)
  match op with
  | .add => (old + x) % 2 ^ w
  | .min => if vtFmt e.vtype = 1 then (if signedN w x < signedN w old then x else old) else min old x
  | .max => if vtFmt e.vtype = 1 then (if signedN w old < signedN w x then x else old) else max old x
  | .fadd => ((FV.add (rmodeOf (vtRm e.vtype)) ((entryFmt e).decode old) ((entryFmt e).decode x)).round (entryFmt e) (rmodeOf (vtRm e.vtype)) (entryRnd e j)).1

/-- A memory entry has performed all its elements and left its queue; no context changes, no memory but that of its tile, and no register but those its kind of entry writes. -/
def MemoryDone (s t : State) (k base : Nat) (p : Part) : Prop :=
  (∃ q, (t.core k).parts.find? (fun r => r.base == base) = some q ∧ q.queue = p.queue.tail ∧ q.fly = [] ∧ q.vl = p.vl ∧ q.vtype = p.vtype ∧ q.owner = p.owner)
    ∧ (∀ x, t.ctx x = s.ctx x) ∧ t.kmem = s.kmem ∧ ∀ j a, j ≠ k / 8 → (t.tile j).mem.byte a = (s.tile j).mem.byte a

/-- The endpoint number of an operand: bits [9:0] (R204). -/
def epNum (v : Word) : Nat := v.toNat % 1024

/-- Every endpoint but one is as it was. -/
def OtherEndpoints (s t : State) (l : Word) (e : Nat) : Prop := ∀ l' e', (l', e') ≠ (l, e) → t.ep l' e' = s.ep l' e'

/-- An endpoint whose far end closed (R218): CLOSED with its holder. -/
def farClosed (p : Endpoint) : Endpoint :=
  { p with st := match p.st with
      | .unbound => .closed none
      | .bound c => .closed (some c)
      | .stream c _ => .closed (some c)
      | .closed h => .closed h }

/-- The reason of a CHANNEL trap for an endpoint that a transfer may not name (R205 item 2); a sink is held by the channel unit (R241). -/
def EpReason (s : State) (e : Nat) : Nat → Prop
  | 1 => s.myEp e = none ∨ ∃ p, s.myEp e = some p ∧ p.sink = none ∧ (p.st = .unbound ∨ p.st = .closed none)
  | 2 => ∃ p, s.myEp e = some p ∧ (p.sink.isSome = true ∨ ∃ c, c ≠ s.cur ∧ p.st.holder = some c)
  | 4 => ∃ p w, s.myEp e = some p ∧ p.sink = none ∧ p.st = .stream s.cur w
  | _ => False

/-- Endpoint e of the caller is bound to it, and connected within this module to an endpoint that context b of a placed process holds; neither is a sink, no offer of another module stands on e, and both cores are clocked (R202, R209, R394). -/
def Connected (s : State) (e : Nat) (p : Endpoint) (b : Nat) : Prop :=
  ∃ l far f, s.procOf s.cur = some l ∧ s.ep l e = some p ∧ p.sink = none ∧ p.st = .bound s.cur
    ∧ s.entry p.ptag = some far ∧ far.placed = true ∧ s.ep p.ptag p.pep = some f ∧ f.sink = none ∧ f.st = .bound b ∧ b ≠ s.cur
    ∧ (∀ r ∈ s.remotes, ¬ (r.ltag = l ∧ r.ep = e)) ∧ s.clocked (s.cur / 16) = true ∧ s.clocked (b / 16) = true

/-- Context b waits in a plain channel instruction with one offer, which stands at no other module and which nothing holds. -/
def WaitsIn (s : State) (b : Nat) (op : ChOp) (o : Offer) : Prop :=
  ∃ w, (s.ctx b).chan = some { op := op, offers := [o], word := w } ∧ o.guard = 0

/-- A context's channel operation has completed (R209): it is past its instruction, in no channel operation, and its registers are those that f gives. -/
def ChanDone (s t : State) (c : Nat) (f : XReg → Reg) : Prop :=
  (t.ctx c).chan = none ∧ (t.ctx c).wait = .no ∧ (t.ctx c).pc = (s.ctx c).pc + 4#64 ∧ (t.ctx c).pfx = none ∧ (t.ctx c).p = (s.ctx c).p
    ∧ ∀ r, (t.ctx c).getX r = if r = 0#5 then Reg.zero else f r

/-- Status 3, SHORT, when two lane counts differ, else 0 (R212). -/
def shortReg (a b : Nat) : Reg := Reg.clean (if a = b then 0#64 else 3#64)

/-- The lanes of a partition hold the rows of another register, lane by lane; lanes past those of the sender hold zeros, and none is poisoned (R212). -/
def RowsMoved (s t : State) (a b : Nat) (pa pb : Part) (ra rb : VReg) : Prop :=
  ∀ l, l < 128 * pb.svc.length →
    (t.core (b / 16)).rows rb.toNat (pb.phys l) =
      { bits := if l < 128 * pa.svc.length then ((s.core (a / 16)).rows ra.toNat (pa.phys l)).bits else 0#16, psn := 0#16 }

/-- A word that a load of a tile context reads from its list (R214): clean, past all its checks, with the state after the read. -/
def ReadsWord (s : State) (va : Word) (w : Nat) (t : State) : Prop :=
  ∃ s1 pa, Translates s va 4 .load s1 pa ∧ s.vectorConflict pa 4 = false ∧ (s.tile (myTileKey s)).latent = []
    ∧ (∀ i, i < 4 → (s.coreMem (myCoreKey s)).marked (pa + i) = false) ∧ numberAt (s.coreMem (myCoreKey s)) pa 4 = w ∧ t = (s1.readOwn pa 4).1

/-- The engines of the tile of the context that issues. -/
def myEngines (s : State) : Engines := (s.tile (myTileKey s)).eng

/-- Nothing changes but the context that issues, identifiers, attach state and translations of its core, and the engines and walker cache of its tile; no byte of memory changes. -/
def OnlyEngine (s t : State) : Prop :=
  t = { s with ctxs := t.ctxs, cores := t.cores, tiles := t.tiles, fresh := t.fresh } ∧ (∀ d, d ≠ s.cur → t.ctx d = s.ctx d)
    ∧ (∀ k, k ≠ myCoreKey s → t.core k = s.core k)
    ∧ t.core (myCoreKey s) = { s.core (myCoreKey s) with
        tlb := (t.core (myCoreKey s)).tlb, mstate := (t.core (myCoreKey s)).mstate, mjob := (t.core (myCoreKey s)).mjob,
        pjob := (t.core (myCoreKey s)).pjob, cjob := (t.core (myCoreKey s)).cjob }
    ∧ (∀ k, k ≠ myTileKey s → t.tile k = s.tile k) ∧ MemSame s t

/-- A matrix job is in the queue (R299): the core's next identifier, the caller and its FENCE.Q markers, and its latency; MJOBLAST has the identifier. -/
def MatrixJob (s t : State) (op : MOpk) (lat : Nat) : Prop :=
  (myEngines t).mq = (myEngines s).mq ++ [{ core := myCoreKey s, id := s.myCore.mjob + 1, ctx := s.cur, op := op, stamp := s.fresh, lat := lat, after := s.me.depMat }]
    ∧ t.myCore.mjob = s.myCore.mjob + 1 ∧ t.me.mjoblast = BitVec.ofNat 64 (s.myCore.mjob + 1)
    ∧ (myEngines t).acc = (myEngines s).acc ∧ (myEngines t).gov = (myEngines s).gov ∧ (myEngines t).pq = (myEngines s).pq
    ∧ (myEngines t).cq = (myEngines s).cq ∧ (myEngines t).tabs = (myEngines s).tabs ∧ OnlyEngine s t

/-- An instruction has enqueued a matrix job and moved past itself; no general register changed. -/
def MatrixQueued (s t : State) (op : MOpk) (lat : Nat) : Prop :=
  MatrixJob s t op lat ∧ Fell s t ∧ OnlyPc { s.me with mjoblast := t.me.mjoblast } t.me

/-- Every operand slot of the tile but one is as it was. -/
def OtherSlots (s t : State) (n : Nat) : Prop := ∀ m, m ≠ n → (myEngines t).slot m = (myEngines s).slot m

/-- Every operand slot of the tile is as it was. -/
def SlotsSame (s t : State) : Prop := ∀ m, (myEngines t).slot m = (myEngines s).slot m

/-- On a tile core, the matrix layer is not gated, the core is attached and its queue has room for a job (R298, R299). -/
def MatrixReady (s : State) : Prop :=
  s.cur < 32768 ∧ s.myTile.mat = false ∧ s.myCore.mstate = .attached ∧ s.myCore.mjob < 2 ^ 64 - 1
    ∧ (myEngines s).mq.length < 64 ∧ ((myEngines s).mq.filter fun j => j.core == myCoreKey s).length < 16

/-- A slot is the core's own (R298). -/
def Mine (s : State) (n : Nat) : Prop := ((myEngines s).slot n).claim = .claimed (myCoreKey s)

/-- The k-steps of one issue for a format code (R294). -/
def rateOf (fmt : BitVec 2) : Nat := if fmt = 0#2 then 1 else if fmt = 3#2 then 4 else 2

/-- The k-steps that one operand slot holds for a format code (R294). -/
def slotSteps (fmt : BitVec 2) : Nat := if fmt = 0#2 then 128 else if fmt = 3#2 then 512 else 256

/-- Right-hand slots from b on, n of them, are the core's own and hold operands of a format's class (R311). -/
def RightHand (s : State) (b n : Nat) (fmt : BitVec 2) : Prop :=
  b + n ≤ 16 ∧ ∀ i, i < n → Mine s (b + i) ∧ ∃ f, ((myEngines s).slot (b + i)).contents = .denseB f ∧
    (f = fmt ∨ (f = 1#2 ∧ fmt = 2#2) ∨ (f = 2#2 ∧ fmt = 1#2))

/-- Latency of a MOP over a count of kept k-steps (R313). -/
def mopLatency (rows cols count : Nat) (fmt : BitVec 2) : Nat :=
  if rows = 0 ∨ cols = 0 then 1 else (count + rateOf fmt - 1) / rateOf fmt

/-- The job at the head of a tile's matrix queue may perform (R300, R94): the engine runs, and nothing that it waits for is left. -/
def MatrixHead (s : State) (k : Nat) (j : MJob) : Prop :=
  (s.tile k).eng.mq.head? = some j ∧ s.clocked (8 * k) = true ∧ s.movesBefore j.core j.stamp = false ∧ j.after = []

/-- A matrix job has performed: it has left the queue, and nothing changes but the engines of the tile and the attach state of a core. -/
def MatrixPerformed (s t : State) (k core : Nat) : Prop :=
  t = { s with cores := t.cores, tiles := t.tiles } ∧ (t.tile k).eng.mq = (s.tile k).eng.mq.tail
    ∧ (∀ j, j ≠ k → t.tile j = s.tile j)
    ∧ t.tile k = { s.tile k with eng := (t.tile k).eng, mem := (t.tile k).mem, old := (t.tile k).old, dir := (t.tile k).dir, latent := (t.tile k).latent, hbmue := (t.tile k).hbmue }
    ∧ (t.tile k).eng = { (s.tile k).eng with mq := (t.tile k).eng.mq, slots := (t.tile k).eng.slots, acc := (t.tile k).eng.acc, gov := (t.tile k).eng.gov }
    ∧ (∀ i, i ≠ core → { t.core i with parts := [] } = { s.core i with parts := [] })
    ∧ { t.core core with parts := [] } = { s.core core with parts := [], mstate := (t.core core).mstate, mrows := (t.core core).mrows }

/-- Row i of accumulator tile n of a core in an engine: an unlisted element is +0 (R294). -/
def accRow (g : Engines) (core n i j : Nat) : BitVec 32 × Bool := g.accAt core n i j

/-- The FP32 word of an accumulator row in memory (R309): element j of the row at an address, through a job's frames, and its poison. -/
def rowWordAt (m : Memory) (fr : Frames) (a : Word) (j : Nat) : BitVec 32 × Bool :=
  let p := fun (i : Nat) => frameAddr fr (a + BitVec.ofNat 64 (4 * j + i))
  (BitVec.ofNat 32 ((m.byte (p 0)).toNat + 256 * (m.byte (p 1)).toNat + 65536 * (m.byte (p 2)).toNat + 2 ^ 24 * (m.byte (p 3)).toNat),
   m.marked (p 0) || m.marked (p 1) || m.marked (p 2) || m.marked (p 3))

/-- Where element c of row i of a stored tile goes (R309): 4 bytes an element, or 2 under half. -/
def rowAddr (fr : Frames) (base stride : Word) (half : Bool) (i c : Nat) : Nat :=
  frameAddr fr (base + BitVec.ofNat 64 i * stride + BitVec.ofNat 64 ((if half then 2 else 4) * c))

/-- The bytes that the elements of g rows go to are all different. -/
def RowsApart (fr : Frames) (base stride : Word) (half : Bool) (g : Nat) : Prop :=
  ∀ i c b i' c' b', i < g → i' < g → c < 128 → c' < 128 → b < (if half then 2 else 4) → b' < (if half then 2 else 4) →
    rowAddr fr base stride half i c + b = rowAddr fr base stride half i' c' + b' → i = i' ∧ c = c' ∧ b = b'

/-- What MTST stores of an element (R309): its FP32 code, or its value rounded to BF16 under RNE. -/
def storedRow (g : Engines) (core n i c : Nat) (half : Bool) : Nat :=
  if half then (fmtBF16.round .rne (fmtF32.decode (accRow g core n i c).1.toNat) false 0).1 else (accRow g core n i c).1.toNat

/-- A sparse image passes every check of R308 and R316: its header block is translated, read clean and accepted, its parts are translated, and its indices read clean and are accepted. -/
def SparseAccepted (s : State) (fmt : BitVec 2) (base stride h : Word) (idx : List (List Nat)) (fr : Frames) : Prop :=
  ∃ (s1 s2 s3 s4 : State) (w1 w : Walked) (bs ix : List (Byte × Bool)),
    s.walkPart .load [base] {} = (s1, w1) ∧ w1.fail = none ∧ s1.conflictVa w1.fr [base] = false ∧ s1.readVa w1.fr base 64 = (s2, bs)
    ∧ (∀ b ∈ bs, b.2 = false)
    ∧ hdrReason (bs.map fun b => b.1) (BitVec.ofNat 64 (leNat ((bs.map fun b => b.1).take 8))) fmt = none
    ∧ h = hdrResolve (BitVec.ofNat 64 (leNat ((bs.map fun b => b.1).take 8)))
    ∧ s2.walkParts .load (sparseParts fmt base stride (hdrKlen h) (hdrCount h)) { fr := w1.fr } = (s3, w) ∧ w.fail = none
    ∧ s3.conflictVa w.fr (pieces (base + 64#64 + 128#64 * stride) (64 * hdrCount h)) = false
    ∧ s3.readVa w.fr (base + 64#64 + 128#64 * stride) (64 * hdrCount h) = (s4, ix) ∧ (∀ b ∈ ix, b.2 = false)
    ∧ idx = indexRows (ix.map fun b => b.1) (hdrCount h) ∧ indexReason h idx = none ∧ fr = w.fr

/-- Bytes of one line that a plain load of a tile context reads (R326, R343): past all its checks and clean, with the state after the read. -/
def ReadsLine (s : State) (va : Word) (n : Nat) (bs : List Byte) (t : State) : Prop :=
  ∃ s1 pa, Translates s va 1 .load s1 pa ∧ s1.vectorConflict pa n = false ∧ t = s1.touchScalar (myCoreKey s) [pa]
    ∧ (∀ i, i < n → (t.coreMem (myCoreKey s)).marked (pa + i) = false) ∧ bs = (t.coreMem (myCoreKey s)).bytes pa n

/-- A run of bytes from a line boundary, read line by line. -/
def ReadsLines : Nat → State → Word → Nat → List Byte → State → Prop
  | 0, s, _, _, bs, t => bs = [] ∧ t = s
  | f + 1, s, va, n, bs, t =>
    if n = 0 then bs = [] ∧ t = s
    else ∃ s1 b1 b2, ReadsLine s va (min 64 n) b1 s1 ∧ ReadsLines f s1 (va + 64#64) (n - min 64 n) b2 t ∧ bs = b1 ++ b2

/-- A descriptor block that an instruction reads (R326 steps 1 to 3): its first line, then the rest when DLEN is one that R323 allows. -/
def ReadsDesc (s : State) (a : Word) (bs : List Byte) (t : State) : Prop :=
  a.toNat % 64 = 0 ∧ ∃ s1 b1 b2, ReadsLine s a 64 b1 s1 ∧ bs = b1 ++ b2
    ∧ (if 88 ≤ field b1 0 4 ∧ field b1 0 4 ≤ 448 then ReadsLines 8 s1 (a + 64#64) (field b1 0 4 - 64) b2 t else b2 = [] ∧ t = s1)

/-- A parameter block that CLRUN reads (R343): its first line, then its page list. -/
def ReadsBlock (s : State) (a : Word) (bs : List Byte) (t : State) : Prop :=
  ∃ s1 b1 b2, ReadsLine s a 64 b1 s1 ∧ blockSized b1 = true ∧ ReadsLines 8 s1 (a + 64#64) (8 * blockPages b1) b2 t ∧ bs = b1 ++ b2

/-- The Porter queue has room for the core (R322, R334), and for a completion under IRQ (R331). -/
def PorterRoom (s : State) (d : Desc) : Prop :=
  ((myEngines s).pq.filter fun j => j.core == myCoreKey s).length + (myEngines s).pres.get (myCoreKey s) 0 < 128
    ∧ (myEngines s).pq.length + ((myEngines s).pres.map fun kv => kv.2).sum < 1024 ∧ (d.irq = true → s.me.places < 128)

/-- PCOPY or PFILL has enqueued its job (R326): the core's next identifier is in rd and PJOBLAST, a completion place is taken under IRQ, and no other register and no byte of memory changes. -/
def PorterQueued (s t : State) (rd : XReg) (kind : PKind) (d : Desc) : Prop :=
  WroteX s t rd (Reg.clean (BitVec.ofNat 64 (s.myCore.pjob + 1))) ∧ Fell s t
    ∧ OnlyRegs { s.me with pjoblast := BitVec.ofNat 64 (s.myCore.pjob + 1), places := s.me.places + (if d.irq then 1 else 0) } t.me
    ∧ (myEngines t).pq = (myEngines s).pq ++ [{ core := myCoreKey s, id := s.myCore.pjob + 1, ctx := s.cur, priv := s.me.priv, kind := kind, desc := d, pos := d.start, stamp := s.fresh, after := s.me.depPort }]
    ∧ t.myCore.pjob = s.myCore.pjob + 1 ∧ OnlyEngine s t

/-- What a core knows of a job (R328): never made, under way, ended and kept, or older than the 256 most recent. -/
def JobUnknown (s : State) (j : Nat) : Prop := s.myCore.pjob < j
def JobLive (s : State) (j : Nat) : Prop :=
  j ≠ 0 ∧ j ≤ s.myCore.pjob ∧ s.myCore.pjob < j + 256 ∧ (s.pjob (myCoreKey s) j).isSome = true
def JobKept (s : State) (j : Nat) (e : JobEnd) : Prop :=
  j ≠ 0 ∧ j ≤ s.myCore.pjob ∧ (s.pjob (myCoreKey s) j).isSome = false ∧ s.myCore.pjob < j + 256 ∧ s.myCore.pended.find? (fun x => x.id == j) = some e
def JobExpired (s : State) (j : Nat) : Prop := j ≠ 0 ∧ j + 256 ≤ s.myCore.pjob

/-- A job's status is in rd, and PFSTAT and PFADDR have the detail of a cancelled or faulted one (R328). -/
def JobStatus (s t : State) (rd : XReg) (e : JobEnd) : Prop :=
  WroteX s t rd (Reg.clean (BitVec.ofNat 64 e.status)) ∧ Fell s t ∧ OnlyMe s t
    ∧ OnlyRegs (if e.status = 2 ∨ e.status = 3 then { s.me with pfstat := e.detail, pfaddr := e.addr } else s.me) t.me

/-- A context waits for a job, with no effect so far (R109). -/
def WaitsForJob (s t : State) : Prop := t.me = { s.me with wait := .job, uword := s.iw } ∧ OnlyMe s t

/-- The Porter job at the head of a tile's queue may perform (R267, R94). -/
def PorterHead (s : State) (k : Nat) (j : PJob) : Prop :=
  (s.tile k).eng.pq.head? = some j ∧ tileOfCore j.core = k ∧ s.clocked (8 * k) = true ∧ j.after = [] ∧ j.desc.bar = none

/-- Bytes of a job have landed at the second addresses of some pairs: each is what f gives, every other byte of the tile, and of every other tile, reads as before. -/
def Landed (s t : State) (k : Nat) (ps : List (Nat × Nat)) (f : Nat → Byte) : Prop :=
  (∀ i, i < ps.length → (t.tile k).mem.byte ((ps.map fun p => p.2).getD i 0) = f i)
    ∧ (∀ a, a ∉ ps.map (fun p => p.2) → (t.tile k).mem.byte a = (s.tile k).mem.byte a)
    ∧ (∀ m, m ≠ k → t.tile m = s.tile m) ∧ t.kmem = s.kmem

/-- After an event that moved n positions (R327): when the job has reached TOTAL it has left the queue with status DONE, kept while it is among the core's 256 most recent (R328); else it stands at its new position. -/
def JobMoved (t : State) (k : Nat) (j : PJob) (n : Nat) : Prop :=
  (j.desc.total ≤ j.pos + n → (∀ q ∈ (t.tile k).eng.pq, ¬ (q.core = j.core ∧ q.id = j.id))
      ∧ ((t.core j.core).pjob < j.id + 256 → ∃ e, e ∈ (t.core j.core).pended ∧ e.id = j.id ∧ e.status = 0))
    ∧ (j.pos + n < j.desc.total → ∃ q, q ∈ (t.tile k).eng.pq ∧ q.core = j.core ∧ q.id = j.id ∧ q.pos = j.pos + n)

/-- On a tile core, the Cellar layer is not gated, its queue has room for the core, and identifiers are left (R335). -/
def CellarReady (s : State) : Prop :=
  s.cur < 32768 ∧ s.myTile.cell = false ∧ s.myCore.cjob < 2 ^ 64 - 1 ∧ (myEngines s).cq.length < 64
    ∧ ((myEngines s).cq.filter fun j => j.core == myCoreKey s).length < 16

/-- A Cellar job is in the queue (R335): its identifier is in rd and CJOBLAST; no other register and no byte of memory changes. -/
def CellarQueued (s t : State) (rd : XReg) (kind : CKind) : Prop :=
  WroteX s t rd (Reg.clean (BitVec.ofNat 64 (s.myCore.cjob + 1))) ∧ Fell s t
    ∧ OnlyRegs { s.me with cjoblast := BitVec.ofNat 64 (s.myCore.cjob + 1) } t.me
    ∧ (myEngines t).cq = (myEngines s).cq ++ [{ core := myCoreKey s, id := s.myCore.cjob + 1, ctx := s.cur, kind := kind, stamp := s.fresh, after := s.me.depCell }]
    ∧ t.myCore.cjob = s.myCore.cjob + 1 ∧ OnlyEngine s t

/-- The pages of a parameter block are translated at the caller's privilege (R343 step 5), in order, with the state after the walks. -/
def PagesWalked : List Word → State → List KPage → State → Prop
  | [], s, ps, t => ps = [] ∧ t = s
  | w :: ws, s, ps, t => ∃ s1 pa p rest,
      s.translate (myCoreKey s) s.me.priv (w &&& ~~~0xFFFF#64) (if w.getLsbD 0 then AccKind.store else .load) = (s1, .ok pa)
      ∧ p.va = w &&& ~~~0xFFFF#64 ∧ p.w = w.getLsbD 0 ∧ p.frame = pa ∧ p.stale = false
      ∧ p.big = (match tlbFind (s1.core (myCoreKey s)).tlb (w &&& ~~~0xFFFF#64) with | some e => e.big | none => false)
      ∧ PagesWalked ws s1 rest t ∧ ps = p :: rest

/-- A parameter block agrees with R342, and its code table is loaded with 4-byte entries and holds its entry point (R343 step 4). -/
def BlockAccepted (s : State) (bs : List Byte) : Prop :=
  blockBad bs = false ∧ ∃ x, (myEngines s).tabs.find (field bs 4 1) = some x ∧ x.ew = 2 ∧ field bs 6 2 < x.len / 4

/-- The Cellar job at the head of a tile's queue may perform (R335, R94). -/
def CellarHead (s : State) (k : Nat) (j : CJob) : Prop :=
  (s.tile k).eng.cq.head? = some j ∧ tileOfCore j.core = k ∧ s.clocked (8 * k) = true ∧ s.queriesBefore j.core j.stamp = false ∧ j.after = []

/-- The move word at a kernel's mi (R344): the 4 bytes of its code table, in a tile without undiscovered errors. -/
def KernelWord (s : State) (k : Nat) (x : Kernel) (w : BitVec 32) : Prop :=
  (s.tile k).latent = [] ∧ x.stalled = false ∧ x.mi < ((s.tile k).eng.tabs.get x.code { ew := 2, len := 0 }).len / 4
    ∧ w.toNat = numberAt (s.tile k).mem (0x7FF00000 + 2048 * x.code + 4 * x.mi) 4

/-- A Cellar job has ended with a status (R346, R348): it has left the queue, and while it is among its core's 256 most recent jobs its outcome is kept first. -/
def CellarEnded (t : State) (k : Nat) (j : CJob) (status : Nat) (detail : Word) : Prop :=
  (∀ q ∈ (t.tile k).eng.cq, ¬ (q.core = j.core ∧ q.id = j.id))
    ∧ ((t.core j.core).cjob < j.id + 256 → ∃ e, (t.core j.core).cended.head? = some e ∧ e.id = j.id ∧ e.status = status ∧ e.detail = detail)

/-- What one move leaves of a kernel that goes on (R344). -/
def KernelIs (t : State) (k : Nat) (j : CJob) (x : Kernel) : Prop :=
  ∃ q, (t.tile k).eng.cq.head? = some q ∧ q.core = j.core ∧ q.id = j.id ∧ q.kind = .kernel x

/-- The steps that end a wait with no other effect, with whether the wait is over and what the context then stands at (R85, R64, R93, R198, R163, R155, R195, R213, R289): at its slot again, or at its instruction, which performs in this i-cycle. A context that waits for something else is not touched by the step. -/
def waitEnds (s : State) : Instr → Option (Bool × Wait)
  | .memoryReply => some (s.me.wait == .memReply, .no)
  | .divideComplete => some (s.me.wait == .divide && decide (s.me.ready ≤ s.now), .no)
  | .fenceWaitEnd => some ((s.me.wait == .fence || s.me.wait == .release) &&
      (if s.me.uword.extractLsb' 26 6 = 0x1D#6 ∧ s.me.uword.extractLsb' 8 3 = 1#3
       then s.fenceQDone (s.me.uword.extractLsb' 2 5) (s.me.uword.extractLsb' 0 2) else s.vectorAccessesDone s.cur), .resume)
  | .vectorOrderWaitEnd => some (s.me.wait == .vectorOrder && s.vectorAccessesDone s.cur, .resume)
  | .hwmRecheck => some (s.me.wait == .hwm, .no)
  | .streamIndexWaitEnd => some (match s.myPart with
      | some p => (s.me.wait == .streamIndex false && ((p.stream false).full || (p.stream false).closed))
          || (s.me.wait == .streamIndex true && ((p.stream true).full || (p.stream true).closed))
      | none => false, .resume)
  | .scatterDrainEnd => some (s.me.wait == .scatter && s.scatters == 0, .resume)
  | _ => none

/-- The context's wait has become another, and nothing else has changed (R109). -/
def Resumed (s t : State) (w : Wait) : Prop := t.cur = s.cur ∧ t.me = { s.me with wait := w } ∧ OnlyMe s t

/-- Whether TLBINV drops a translation (R256): every one, or those of the page, a 2 MiB one when the page lies in it. -/
def Dropped (v : Word) (e : TlbEntry) : Prop :=
  v.toNat / 2 % 2 = 1 ∨ (if e.big = true then e.page / 32 = v.toNat / 2 ^ 16 % 2 ^ 32 / 32 else e.page = v.toNat / 2 ^ 16 % 2 ^ 32)

/-- What R400 has a request to a tile's power block do, by its operation (0 RUN, 1 QUIESCE, 2 GATE, 3 WAKE): from one state to the next, or an error in ERR and nothing else. -/
def powerAsked (s : State) (k : Nat) : Nat → Power
  | 0 => if (s.pwr k).st = .quiet then { s.pwr k with st := .on, err := 0 } else { s.pwr k with err := 2 }
  | 1 => if (s.pwr k).st = .on then
      (if s.tileBusy k = true then { s.pwr k with err := 1 } else { s.pwr k with st := .quiescing, err := 0 })
      else { s.pwr k with err := 2 }
  | 2 => if (s.pwr k).st = .quiet then { s.pwr k with st := .gating, err := 0, retained := true } else { s.pwr k with err := 2 }
  | 3 => if (s.pwr k).st = .gated then { s.pwr k with st := .waking, err := 0 } else { s.pwr k with err := 2 }
  | _ => { s.pwr k with err := 2 }

/-- The requests as events, with their operation. -/
def powerRequest (s : State) (k : Nat) : Instr → Option Power
  | .run _ => some (powerAsked s k 0)
  | .quiesce _ => some (powerAsked s k 1)
  | .gate _ => some (powerAsked s k 2)
  | .wake _ => some (powerAsked s k 3)
  | _ => none

/-- What SD of a value to a register of a tile's power block leaves there (R399, R400); none where R399 lists no register. -/
def powerStored (s : State) (k : Nat) (v : Word) : Nat → Option Power
  | 0x00 => some (powerAsked s k (if v.toNat % 4 = 3 then 4 else v.toNat % 4))
  | 0x08 => some (s.pwr k)
  | 0x10 => if v.toNat % 2 = 1 then some (powerAsked s k 3) else some (s.pwr k)
  | 0x18 => some { s.pwr k with lanecap := BitVec.ofNat 17 v.toNat }
  | 0x20 => some { s.pwr k with ramp := BitVec.ofNat 8 (v.toNat / 2 ^ 8), budget := BitVec.ofNat 8 v.toNat }
  | _ => none

/-- The tile that a power request or its end concerns. -/
def powerTile : Instr → Nat
  | .run k => k
  | .quiesce k => k
  | .gate k => k
  | .wake k => k
  | .quiesceComplete k => k
  | .gatingComplete k => k
  | .wakingComplete k => k
  | _ => 0

/-- Only the power block of one tile has changed, and it holds p. -/
def PowerSet (s t : State) (k : Nat) (p : Power) : Prop :=
  t.pwr k = p ∧ (∀ j, j ≠ k → t.pwr j = s.pwr j) ∧ { t with power := s.power } = s

/-- The state of a die after a sample in units of 0.25 degrees (R393): thresholds 400, 432 and 472 on the way up; on the way down one state at a time, at 384, 416 and 456. -/
def dieAfter (st temp : Nat) : Nat :=
  let up := if 472 ≤ temp then 3 else if 432 ≤ temp then 2 else if 400 ≤ temp then 1 else 0
  if st < up then up
  else if (st = 3 ∧ temp ≤ 456) ∨ (st = 2 ∧ temp ≤ 416) ∨ (st = 1 ∧ temp ≤ 384) then st - 1 else st

/-- The refresh regime after a sample (R396): entered above 340 and 380, left at 332 and 372. -/
def refreshAfter (r temp : Nat) : Nat :=
  if r = 0 then (if 340 < temp then 1 else 0)
  else if r = 1 then (if 380 < temp then 2 else if temp ≤ 332 then 0 else 1)
  else (if temp ≤ 372 then 1 else 2)

/-- The tiles of a compute stack (R390): a quarter of the 16 x 16 mesh. -/
def OnStack (k tile : Nat) : Prop := tile < 256 ∧ tile / 128 = k / 2 ∧ tile % 16 / 8 = k % 2

/-- The cores that a droop on a stack concerns: those of its tiles, or for the I/O die (4) the keeper cores. -/
def DroopCore (k core : Nat) : Prop := if k = 4 then 2048 ≤ core ∧ core < 2052 else core < 2048 ∧ OnStack k (core / 8)

/-- The entry of a launch tag, with what a clause says of it. -/
def EntryIs (t : State) (l : Word) (f : Entry → Prop) : Prop := ∃ e, t.entry l = some e ∧ f e

/-- A resident process of queue 7 that this home holds, as the ballast loop may pre-empt it (R234). -/
def Resident7 (e : Entry) : Prop := e.rec_.prio = 7 ∧ e.lseq ≠ 0 ∧ e.st = .running ∧ e.resident = true

/-- A parked process of queue 7 that this home holds (R234). -/
def Parked7 (e : Entry) : Prop := e.rec_.prio = 7 ∧ e.lseq ≠ 0 ∧ e.st = .running ∧ e.saved.isSome = true ∧ e.kill = false

/-- The parked process that the ballast loop restores next (R234, R237): the one that was asked for, else that of lowest LSEQ. -/
def RestoresNext (s : State) (e : Entry) : Prop :=
  e ∈ s.entries ∧ Parked7 e ∧
    ((e.hot = true ∧ ∀ d ∈ s.entries, Parked7 d → d.hot = true → d = e)
      ∨ ∀ d ∈ s.entries, Parked7 d → d.hot = false ∧ (d = e ∨ e.lseq < d.lseq))

/-- What placement leaves of the tiles of an entry (R235, R236): the process with its index on each tile, its gates as the record's LAYERS say, empty caches and engines, and the cores of the launch in its mode with cleared shared state. -/
def PlacedOn (s t : State) (e : Entry) (first : Nat) : Prop :=
  ∀ i k, e.tiles[i]? = some k →
    (t.tile k).place = some { ltag := e.rec_.ltag, cores := e.rec_.cores, tiles := e.rec_.tiles, index := first + i, va := e.rec_.copyVa }
    ∧ (t.tile k).top = !e.rec_.layers.getLsbD 0 ∧ (t.tile k).mat = !e.rec_.layers.getLsbD 1 ∧ (t.tile k).cell = !e.rec_.layers.getLsbD 2
    ∧ (t.tile k).old = [] ∧ (t.tile k).dir = [] ∧ (t.tile k).walker = [] ∧ (t.tile k).eng = { gov := (s.tile k).eng.gov }
    ∧ ∀ j, j < 8 → (t.core (8 * k + j)).h = Vector.replicate 8 {} ∧ (t.core (8 * k + j)).arr = [] ∧ (t.core (8 * k + j)).parts = []
        ∧ (t.core (8 * k + j)).tlb = [] ∧ (t.core (8 * k + j)).barriers = [] ∧ (t.core (8 * k + j)).cyc = (s.core (8 * k + j)).cyc
        ∧ (j < e.rec_.cores → (t.core (8 * k + j)).vmode = e.rec_.mode)

/-- A launch of this home that has not ended joins an endpoint back, and its end is not CLOSED (R202, R236, log entry 84). -/
def FarThere (s : State) (far : Word) (pep ep : Nat) (ltag : Word) : Prop :=
  ∃ d, s.listed far = some d ∧ d.isEnded = false ∧ d.rec_.joinsBack pep ep ltag = true ∧ ∀ q h, d.eps.find pep = some q → q.st ≠ .closed h

/-- The endpoints that a launch of this home has on this module once it is placed (R236): joined under SELF, with another launch of this home, or with one of another home, which is asked. -/
def EndpointsJoined (s t : State) (e : Entry) : Prop :=
  s.remote e.rec_.ltag = false → (e.rec_.chans.map Channel.ep).Nodup → ∀ c ∈ e.rec_.chans, ∃ p, t.ep e.rec_.ltag c.ep = some p
    ∧ p.pep = c.pep ∧ p.resume = c.resume ∧ p.sink = c.sink
    ∧ (c.self = true → p.ptag = e.rec_.ltag ∧ p.st = .unbound)
    ∧ (c.self = false → c.ptag ≠ e.rec_.ltag → s.remote c.ptag = false →
        p.ptag = c.ptag ∧ (FarThere s c.ptag c.pep c.ep e.rec_.ltag → p.st = .unbound) ∧ (¬ FarThere s c.ptag c.pep c.ep e.rec_.ltag → p.st = .closed none))
    ∧ (c.self = false → s.remote c.ptag = true → p.ptag = c.ptag ∧ p.st = .unbound ∧ p.joining = true)

/-- Slot 0 of every core of an entry has started at the record's ENTRY (R235 step 6). -/
def Slot0Started (t : State) (e : Entry) : Prop :=
  ∀ k j, k ∈ e.tiles → j < e.rec_.cores → j < 8 →
    ∃ n, t.ctx (16 * (8 * k + j)) = { Ctx.start e.rec_.entry (if e.rec_.spriv then 1#2 else 0#2) with ready := n }

/-- An entry that a number names alone, and that its tag names too. -/
def Named (s : State) (n : Nat) (e : Entry) : Prop :=
  e ∈ s.entries ∧ e.lseq = n ∧ n ≠ 0 ∧ (∀ d ∈ s.entries, d.lseq = n → d = e) ∧ s.entry e.rec_.ltag = some e

/-- A message of a kind whose flits come whole, for this module, over a link that is UP and accepts them (R410, R414). -/
def Comes (s : State) (m : MsgIn) (kind : Nat) : Prop :=
  s.linksRun = true ∧ m.link < 16 ∧ (s.link m.link).st = .up ∧ m.lead.dest = s.sec.module ∧ m.src ≠ s.sec.module ∧ m.whole kind = true
    ∧ (Link.hear m.flits (s.link m.link)).isSome = true

/-- A message that comes in its turn, with none waiting behind it (R414); and no pair's numbers are at their end (R5). -/
def InTurn (s : State) (m : MsgIn) (kind : Nat) : Prop :=
  Comes s m kind ∧ m.mseq = (s.peers.get m.src {}).got + 1 ∧ (s.peers.get m.src {}).early = [] ∧ ∀ d, (s.peers.get d {}).sent + 1 < 2 ^ 64

/-- The module after a message in its turn, before its body acts (R413, R414): its link end has heard the flits, the message is the last delivered, an EACK is owed, and the messages that its EACK covers are kept no longer. -/
def arrived (s : State) (m : MsgIn) : State :=
  let u := (s.setLink m.link ((Link.hear m.flits (s.link m.link)).getD {})).acked m.src m.eack
  { u with peers := u.peers.set m.src { u.peers.get m.src {} with got := m.mseq, owed := true } }

/-- A message has been delivered: its pair's last number is its own. -/
def Got (t : State) (m : MsgIn) : Prop := (t.peers.get m.src {}).got = m.mseq

/-- The last message sent to a module (R415, R418): a KEEPER message with an OPC, a tag and operands. -/
def LastSent (t : State) (d kind : Nat) (body : List Byte) : Prop :=
  (t.peers.get d {}).kept.getLast? = some ((t.peers.get d {}).sent, { kind := kind, body := body })

def Answers (t : State) (d opc : Nat) (l : Word) (ops : List Byte) : Prop :=
  LastSent t d 9 (leBytes 2 opc ++ leBytes 6 0 ++ leBytes 8 l.toNat ++ ops)

/-- A KEEPER message in its turn, to a module whose Innkeeper runs (R415, R418). -/
def KeeperIn (s : State) (m : MsgIn) (opc : Nat) (l : Word) (ops : List Byte) : Prop :=
  InTurn s m 9 ∧ s.keeperUp = true ∧ m.body = leBytes 2 opc ++ leBytes 6 0 ++ leBytes 8 l.toNat ++ ops

/-- The shadow of a launch at a member, with its step (R418). -/
def Shadow (s : State) (m : MsgIn) (l : Word) (e : Entry) (x : Members) : Prop :=
  s.entry l = some e ∧ e.multi = some x ∧ e.lseq = 0 ∧ x.home = m.src

/-- A launch on several modules at its home. -/
def AtHome (s : State) (l : Word) (e : Entry) (x : Members) : Prop := s.entry l = some e ∧ e.multi = some x ∧ e.lseq ≠ 0

/-- Only a link end has changed. -/
def OnlyLink (s t : State) (n : Nat) (f : Link) : Prop := t.link n = f ∧ (∀ j, j ≠ n → t.link j = s.link j) ∧ { t with links := s.links } = s

/-- The fields of a flit (R409): destination, source, kind, FTAG, ACKTAG, the payload that LEN gives, zeros in the low bits, and a correct CRC. -/
def FlitIs (f : Flit) (src dst kind ftag ack : Nat) (payload : List Byte) : Prop :=
  f.bytes.length = 64 ∧ f.dest = dst ∧ f.src = src ∧ f.kind = kind ∧ f.ftag = ftag ∧ f.acktag = ack ∧ f.payload = payload ∧ f.low = 0 ∧ f.crcOk = true

/-- A link end may send at once: fewer than 2,048 flits are unacknowledged, and none waits (R410). -/
def LinkRoom (k : Link) : Prop := k.kept.length < 2048 ∧ k.unsent = []

/-- A flit has been put on a link end k (R409): the next FTAG is taken, the flit is kept, last of those kept. -/
def FlitPut (k f : Link) (src dst kind : Nat) (payload : List Byte) : Prop :=
  f.tx = (k.tx + 1) % 4096 ∧ ∃ x, f.kept = k.kept ++ [x] ∧ FlitIs x src dst kind k.tx ((k.rx + 4095) % 4096) payload

/-- Flits that a message takes (R414): one for each 32 bytes of body, at least one. -/
def flitCount (bs : List Byte) : Nat := max 1 ((bs.length + 31) / 32)

/-- The state of contexts, cores, tiles and memory is as it was. -/
def MachineSame (s t : State) : Prop := t.ctxs = s.ctxs ∧ t.cores = s.cores ∧ t.tiles = s.tiles ∧ t.kmem = s.kmem ∧ t.power = s.power

/-- A datagram that reaches the Innkeeper (R419, R423): the ports answer, it has the address of one of them, and it goes to UDP port 47,040. -/
def Addressed (s : State) (q : HostReq) : Prop := s.sec.up = true ∧ q.dest ∈ s.sec.addrs ∧ q.port = 47040

/-- A command that a host sends anew and that runs (R419, R420): it reaches the ports, the part is not locked and an Innkeeper runs. -/
def Runs (s : State) (op : Nat) (q : HostReq) : Prop :=
  Addressed s q ∧ reqGood q = true ∧ q.op.toNat = op ∧ s.sec.locked = false ∧ s.kstopped ≠ 0xF#4 ∧ (s.hosts.get q.source {}).next ≤ q.reqid.toNat

/-- No entry is due to dispatch, so that a CANCEL finds every entry as it is (R232, R233). -/
def NoDispatchDue (s : State) : Prop := ∀ e ∈ s.entries, s.mayDispatch e = true → s.startsAway e = false ∧ s.fits e.rec_ = false

/-- A reply's datagram (R419): the header with MAGIC, VERSION, OP, REQID, LEN, STATUS and reserved zeros, then the payload. -/
def replyBytes (op : Nat) (reqid : Word) (status : Nat) (body : List Byte) : List Byte :=
  [0x4B#8, 0x47#8, 0x5A#8, 0x37#8, 1#8, 0#8] ++ leBytes 2 op ++ leBytes 8 reqid.toNat ++ leBytes 4 body.length ++ leBytes 2 status
    ++ List.replicate 10 0#8 ++ body

/-- The datagram that answers a request. -/
def datagram (q : HostReq) (status : Nat) (body : List Byte) : List Byte := replyBytes q.op.toNat q.reqid status body

/-- The reply that a command gives (R419): its datagram goes to the host's source, and its request number, operation, status and body are kept under it. -/
def Replied (s t : State) (q : HostReq) (status : Nat) (body : List Byte) : Prop :=
  t.sent = s.sent ++ [(q.source, datagram q status body)]
    ∧ (t.hosts.get q.source {}).replies.getLast? = some { reqid := q.reqid, op := q.op, status := status, body := body }
    ∧ (t.hosts.get q.source {}).next = q.reqid.toNat + 1

/-- The commands with their OP (R419). -/
def commandOp : Instr → Option (Nat × HostReq)
  | .stage q => some (1, q)
  | .submit q => some (2, q)
  | .cancel q => some (3, q)
  | .query q => some (4, q)
  | .knotlog q => some (5, q)
  | .floor q => some (6, q)
  | .attest q => some (7, q)
  | .release q => some (8, q)
  | _ => none

/-- The 64 bits of a payload from an offset. -/
def payloadAt (q : HostReq) (off : Nat) : Nat := leNat ((q.payload.drop off).take 8)

/-- A region of staging memory that is still held after those let go are dropped (R421). -/
def HeldRegion (s : State) (r : Region) : Prop :=
  r.released = false ∨ ∃ e ∈ s.entries, e.region = r.off ∧ 0 < r.size ∧ e.isEnded = false

/-- The answers given on a queue pair once a CE mark has been answered with a Congestion Notification Packet (R421). -/
def acksSeen (s : State) (key : Nat) (w : RdmaWrite) : List (Nat × RdmaAck) := s.acks ++ (if w.ce = true then [(key, .congestion)] else [])

/-- The packets that a queue pair takes (R421): First and Middle are full, none is longer than the path MTU of 4,096 bytes, and Middle and Last go on with a WRITE that a First began. -/
def PacketOk (s : State) (key : Nat) (w : RdmaWrite) : Prop :=
  match w.op with
  | .first => w.bytes.length = 4096 ∧ s.qpruns.find key = none
  | .middle => w.bytes.length = 4096 ∧ s.qpruns.find key ≠ none
  | .last => w.bytes.length ≤ 4096 ∧ s.qpruns.find key ≠ none
  | .only => w.bytes.length ≤ 4096 ∧ s.qpruns.find key = none
  | .other => False

/-- Key and address of a packet's bytes (R421): its own, or those that the WRITE it goes on with has come to. -/
def PacketAt (s : State) (key : Nat) (w : RdmaWrite) (run : RdmaRun) : Prop :=
  s.qpruns.find key = some run ∨ (s.qpruns.find key = none ∧ run = { rkey := w.rkey, addr := w.addr })

/-- A region that a host holds, under the key and about the bytes of a packet (R421). -/
def Staged (r : Region) (run : RdmaRun) (n : Nat) : Prop :=
  r.host = true ∧ r.released = false ∧ r.rkey = run.rkey ∧ 0x1000000000 + r.off ≤ run.addr ∧ run.addr + n ≤ 0x1000000000 + r.off + r.size

/-- Steps 1 and 2 of boot succeed (R422): the root key has the digest held in ROM, both signatures verify under it, and the record keeps to its layout (R423). -/
def BootVerifies (b : BootInput) : Prop :=
  sha512 b.rootKey = b.romDigest ∧ pssVerify (beNat b.rootKey) b.firmware b.fwSig = true ∧ pssVerify (beNat b.rootKey) b.record b.recSig = true
    ∧ recordGood b.record = true

/-- The state in which context c uses the slot of its core in i-cycle n (R12, R15). -/
def inSlot (s : State) (c n : Nat) : State := { s with cur := c }.updCore (c / 16) fun k => { k with cyc := n }

/-- A slot of a core comes round in which a context runs its next instruction: nothing stops the boundary and the context waits for nothing; the fetch at its pc gives a word (R24, R86, R109). -/
def Fetches (s : State) (k c n : Nat) (v : State) (w : Insn) : Prop :=
  s.sec.up = true ∧ s.nextSlot k = some (c, n) ∧ (inSlot s c n).boundary c = none ∧ ((inSlot s c n).ctx c).wait = .no ∧ (inSlot s c n).fetch = .word v w

/-- The majors that a keeper core does not have (R21). -/
def keeperMajor (w : Insn) : Prop := w.toNat / 2 ^ 26 ∈ [0x21, 0x22, 0x28, 0x29, 0x2A, 0x2B, 0x2C, 0x2D, 0x2E, 0x30, 0x31, 0x32]

/-- The invariant of memory: every memory has its canonical form, and what is kept of a dirty line's HBM4 contents is a whole line. -/
def MemInv (s : State) : Prop := MemOk s ∧ LinesOk s

end Sys2Proof.Safety
end

