-- ==== Sys2Proof/Certificates/Slice0/Obligations.lean ====
section
/-! DEFINITION. Sys2Proof/Certificates/Slice0/Obligations.lean: the statements for the provers. Each docstring names the rules of spec/ that it formalises. -/

open Sys2Proof Sys2Proof.Machine Sys2Proof.Safety

/-- R69: a binary integer operation writes what its table states, poisoned when a source is (R65), to rd and to the copy register, moves past itself, and changes nothing else. R69, R71 to R73: a unary operation or an operation with an immediate writes what its table states, poisoned when its source is, and changes nothing else. -/
def Obligations.IntegerResults : Prop :=
  (∀ (i : Instr) (rd a b : XReg) (f : Word → Word → Word), intTwo i = some (rd, a, b, f) →
    ∀ s : State, CanFall s →
      ∃ t, exec i s = .next t ∧ WroteOnly s t rd { val := f (s.x a).val (s.x b).val, psn := origin2 (s.x a) (s.x b) })
  ∧ (∀ (i : Instr) (rd a : XReg) (f : Word → Word), intOne i = some (rd, a, f) →
    ∀ s : State, CanFall s →
      ∃ t, exec i s = .next t ∧ WroteOnly s t rd { val := f (s.x a).val, psn := (s.x a).psn })

/-- R70: a divide or remainder writes the quotient or remainder towards zero, with 0 and the dividend for a zero divisor, raises no trap for any operand, and waits out its cost of 64 i-cycles (R64). -/
def Obligations.DivideResults : Prop :=
  ∀ (i : Instr) (rd a b : XReg) (f : Word → Word → Word), divTwo i = some (rd, a, b, f) →
    ∀ s : State, CanFall s →
      ∃ t, exec i s = .next t
        ∧ WroteX s t rd { val := f (s.x a).val (s.x b).val, psn := origin2 (s.x a) (s.x b) }
        ∧ t.me.pc = s.me.pc + 4#64 ∧ t.me.pfx = none ∧ t.me.wait = .divide ∧ t.me.ready = s.now + 64
        ∧ OnlyRegs s.me t.me ∧ OnlyMe s t

/-- R74, R75: on clean registers a compare or PFROMX writes its condition to the predicate, and changes nothing else. R75: predicate logic writes its function of two predicates to pd, and PTOX writes 1 or 0 to rd; neither changes anything else. -/
def Obligations.PredicateResults : Prop :=
  (∀ (i : Instr) (pd : PReg) (a b : XReg) (f : Word → Word → Bool), compareTwo i = some (pd, a, b, f) →
    ∀ s : State, CanFall s → (s.x a).psn = none → (s.x b).psn = none →
      ∃ t, exec i s = .next t ∧ WrotePredOnly s t pd (f (s.x a).val (s.x b).val))
  ∧ ((∀ (i : Instr) (pd a b : PReg) (f : Bool → Bool → Bool), predTwo i = some (pd, a, b, f) →
    ∀ s : State, CanFall s → ∃ t, exec i s = .next t ∧ WrotePredOnly s t pd (f (s.p a) (s.p b)))
  ∧ ∀ (rd : XReg) (q : PReg) (s : State), CanFall s →
    ∃ t, exec (.ptox rd q) s = .next t ∧ WroteOnly s t rd { val := if s.p q then 1#64 else 0#64, psn := none })

/-- R76, R77: a conditional branch with clean sources, or BP, goes to pc + 4 * SignExtend(off) when its condition holds and that address is canonical and aligned, falls through when the condition does not hold, and changes nothing but the pc. R78, R79: J, JAL and JALR go to their target when it is canonical and aligned; JAL links pc + 4 through x31 and JALR through rd, after its base is read, and x0 stays zero. -/
def Obligations.ControlTransfers : Prop :=
  ((∀ (i : Instr) (a b : XReg) (off : BitVec 16) (f : Word → Word → Bool), branchTwo i = some (a, b, off, f) →
    ∀ s : State, (s.x a).psn = none → (s.x b).psn = none →
      (f (s.x a).val (s.x b).val = true → GoodTarget (targetOf s.me.pc off.toInt) →
        ∃ t, exec i s = .next t ∧ MovedTo s t (targetOf s.me.pc off.toInt) ∧ OnlyPc s.me t.me ∧ OnlyMe s t)
      ∧ (f (s.x a).val (s.x b).val = false → CanFall s →
        ∃ t, exec i s = .next t ∧ Fell s t ∧ OnlyPc s.me t.me ∧ OnlyMe s t))
  ∧ ∀ (q : PReg) (sense : BitVec 1) (off : BitVec 16) (s : State),
      (Bool.xor (s.p q) (decide (sense = 1#1)) = true → GoodTarget (targetOf s.me.pc off.toInt) →
        ∃ t, exec (.bp q sense off) s = .next t ∧ MovedTo s t (targetOf s.me.pc off.toInt) ∧ OnlyPc s.me t.me ∧ OnlyMe s t)
      ∧ (Bool.xor (s.p q) (decide (sense = 1#1)) = false → CanFall s →
        ∃ t, exec (.bp q sense off) s = .next t ∧ Fell s t ∧ OnlyPc s.me t.me ∧ OnlyMe s t))
  ∧ (∀ s : State,
    (∀ off : BitVec 26, GoodTarget (targetOf s.me.pc off.toInt) →
      ∃ t, exec (.j off) s = .next t ∧ MovedTo s t (targetOf s.me.pc off.toInt) ∧ OnlyPc s.me t.me ∧ OnlyMe s t)
    ∧ (∀ off : BitVec 26, GoodTarget (targetOf s.me.pc off.toInt) →
      ∃ t, exec (.jal off) s = .next t ∧ MovedTo s t (targetOf s.me.pc off.toInt)
        ∧ (∀ r, t.x r = if r = 31#5 then Reg.clean (s.me.pc + 4#64) else s.x r) ∧ OnlyRegs s.me t.me ∧ OnlyMe s t)
    ∧ ∀ (rd base : XReg) (imm : BitVec 16), (s.x base).psn = none →
      GoodTarget (BitVec.ofInt 64 ((s.x base).val.toNat + imm.toInt)) →
      ∃ t, exec (.jalr rd base imm) s = .next t ∧ MovedTo s t (BitVec.ofInt 64 ((s.x base).val.toNat + imm.toInt))
        ∧ (∀ r, t.x r = if r = 0#5 then Reg.zero else if r = rd then Reg.clean (s.me.pc + 4#64) else s.x r)
        ∧ OnlyRegs s.me t.me ∧ OnlyMe s t)

/-- R66, R76 to R78: a taken branch, BP or jump to an address that is not canonical raises ACCESS_FAULT with that address, and JALR to a canonical address that is not a multiple of 4 raises MISALIGNED with it; no register is written. R65, R361, R363: a compare, PFROMX, branch or JALR that reads a poisoned register raises POISON with the origin of the first of them, and writes nothing. R67: an integer instruction, clean compare, predicate operation, PTOX, or branch with clean sources or BP that is not taken, at the last word of the lower canonical half, has no next address: ACCESS_FAULT with 0x0000_8000_0000_0000, and no effect. -/
def Obligations.ControlTraps : Prop :=
  (∀ s : State, s.me.intrap = false →
    (∀ (i : Instr) (a b : XReg) (off : BitVec 16) (f : Word → Word → Bool), branchTwo i = some (a, b, off, f) →
      (s.x a).psn = none → (s.x b).psn = none → f (s.x a).val (s.x b).val = true → ¬ Canonical (targetOf s.me.pc off.toInt) →
      ∃ t, exec i s = .next t ∧ Trapped s t 0x07#8 (targetOf s.me.pc off.toInt))
    ∧ (∀ off : BitVec 26, ¬ Canonical (targetOf s.me.pc off.toInt) →
      (∃ t, exec (.j off) s = .next t ∧ Trapped s t 0x07#8 (targetOf s.me.pc off.toInt))
      ∧ ∃ t, exec (.jal off) s = .next t ∧ Trapped s t 0x07#8 (targetOf s.me.pc off.toInt))
    ∧ (∀ (q : PReg) (sense : BitVec 1) (off : BitVec 16), Bool.xor (s.p q) (decide (sense = 1#1)) = true → ¬ Canonical (targetOf s.me.pc off.toInt) →
      ∃ t, exec (.bp q sense off) s = .next t ∧ Trapped s t 0x07#8 (targetOf s.me.pc off.toInt))
    ∧ ∀ (rd base : XReg) (imm : BitVec 16), (s.x base).psn = none →
      let target := BitVec.ofInt 64 ((s.x base).val.toNat + imm.toInt)
      (¬ Canonical target → ∃ t, exec (.jalr rd base imm) s = .next t ∧ Trapped s t 0x07#8 target)
      ∧ (Canonical target → target.toNat % 4 ≠ 0 → ∃ t, exec (.jalr rd base imm) s = .next t ∧ Trapped s t 0x03#8 target))
  ∧ (∀ (s : State) (o : Word), s.me.intrap = false →
    (∀ (i : Instr) (pd : PReg) (a b : XReg) (f : Word → Word → Bool), compareTwo i = some (pd, a, b, f) →
      origin2 (s.x a) (s.x b) = some o → ∃ t, exec i s = .next t ∧ Trapped s t 0x10#8 o)
    ∧ (∀ (i : Instr) (a b : XReg) (off : BitVec 16) (f : Word → Word → Bool), branchTwo i = some (a, b, off, f) →
      origin2 (s.x a) (s.x b) = some o → ∃ t, exec i s = .next t ∧ Trapped s t 0x10#8 o)
    ∧ ∀ (rd base : XReg) (imm : BitVec 16), (s.x base).psn = some o →
      ∃ t, exec (.jalr rd base imm) s = .next t ∧ Trapped s t 0x10#8 o)
  ∧ (∀ (s : State), s.me.pc = 0x00007FFFFFFFFFFC#64 → s.me.intrap = false →
    (∀ i, (intTwo i).isSome ∨ (intOne i).isSome ∨ (divTwo i).isSome ∨ (predTwo i).isSome →
      ∃ t, exec i s = .next t ∧ Trapped s t 0x07#8 0x0000800000000000#64)
    ∧ (∀ (i : Instr) (pd : PReg) (a b : XReg) (f : Word → Word → Bool), compareTwo i = some (pd, a, b, f) →
      (s.x a).psn = none → (s.x b).psn = none →
      ∃ t, exec i s = .next t ∧ Trapped s t 0x07#8 0x0000800000000000#64)
    ∧ (∀ (rd : XReg) (q : PReg), ∃ t, exec (.ptox rd q) s = .next t ∧ Trapped s t 0x07#8 0x0000800000000000#64)
    ∧ (∀ (i : Instr) (a b : XReg) (off : BitVec 16) (f : Word → Word → Bool), branchTwo i = some (a, b, off, f) →
      (s.x a).psn = none → (s.x b).psn = none → f (s.x a).val (s.x b).val = false →
      ∃ t, exec i s = .next t ∧ Trapped s t 0x07#8 0x0000800000000000#64)
    ∧ ∀ (q : PReg) (sense : BitVec 1) (off : BitVec 16), Bool.xor (s.p q) (decide (sense = 1#1)) = false →
      ∃ t, exec (.bp q sense off) s = .next t ∧ Trapped s t 0x07#8 0x0000800000000000#64)

/-- R24, R101: ECALL and EBREAK take their trap, with value 0, at any privilege; TRAPPC holds the address of the instruction itself, and nothing but the trap registers, the privilege, the interrupt enable, the prefix and the pc of the context changes. R25: a synchronous trap while INTRAP = 1 is a double trap: the trap registers are written, DBL is set and the context is STOPPED with reason DOUBLE; pc, privilege, IE and TRAPVEC keep their values. Stated for ECALL and EBREAK in a keeper context, whose bit in KSTAT is set (R239). R34, R22, R27, R254: a word that is no instruction raises ILLEGAL_INSN with the word; a fetch at a pc that is not canonical raises ACCESS_FAULT with the pc, one whose translation fails PAGE_FAULT_FETCH with the pc, the level and the reason in XLSTAT, and one that reads poison POISON with the pc; a fetch that gives a word raises nothing. -/
def Obligations.TrapsAreTaken : Prop :=
  (∀ s : State, s.me.intrap = false →
    (∃ t, exec .ecall s = .next t ∧ Trapped s t 0x08#8 0#64) ∧ ∃ t, exec .ebreak s = .next t ∧ Trapped s t 0x09#8 0#64)
  ∧ (∀ s : State, s.me.intrap = true → 32768 ≤ s.cur → s.me.chan = none → s.myPart = none →
    ∀ i cause, (i = .ecall ∧ cause = 0x08#8) ∨ (i = .ebreak ∧ cause = 0x09#8) →
      ∃ t, exec i s = .next t ∧ t.cur = s.cur ∧ t.me.slot = .stopped .double ∧ t.me.dbl = true
        ∧ t.me.trapcause = cause ∧ t.me.trapval = 0#64 ∧ t.me.trappc = s.me.pc ∧ t.me.pfxBit = s.me.pfx.isSome
        ∧ (∀ w, s.me.pfx = some w → t.me.pfxsave = w) ∧ (s.me.pfx = none → t.me.pfxsave = s.me.pfxsave)
        ∧ t.me.pc = s.me.pc ∧ t.me.priv = s.me.priv ∧ t.me.ie = s.me.ie ∧ t.me.trapvec = s.me.trapvec ∧ t.me.x = s.me.x ∧ t.me.p = s.me.p
        ∧ t.kstopped.getLsbD ((s.cur / 16 - 2048) % 4) = true
        ∧ (∀ d, d ≠ s.cur → t.ctx d = s.ctx d) ∧ MemSame s t)
  ∧ (∀ (s : State), s.me.intrap = false →
    (∀ w, ∃ t, exec (.illegalInsn w) s = .next t ∧ Trapped s t 0x01#8 (w.zeroExtend 64))
    ∧ (¬ Canonical s.me.pc → ∃ t, exec .pageFaultFetch s = .next t ∧ Trapped s t 0x07#8 s.me.pc)
    ∧ (∀ u lvl r, Canonical s.me.pc → s.cur < 32768 → s.translate (myCoreKey s) s.me.priv s.me.pc .fetch = (u, .fault lvl r) →
        ∃ t, exec .pageFaultFetch s = .next t ∧ (t.ctx s.cur).trapcause = 0x06#8 ∧ (t.ctx s.cur).trapval = s.me.pc ∧ (t.ctx s.cur).trappc = s.me.pc
          ∧ (t.ctx s.cur).xlLevel = BitVec.ofNat 4 lvl ∧ (t.ctx s.cur).xlReason = BitVec.ofNat 4 r ∧ (t.ctx s.cur).pc = s.me.trapvec ∧ (t.ctx s.cur).intrap = true)
    ∧ (∀ u, s.fetch = .poison u → ∃ t, exec .pageFaultFetch s = .next t ∧ Trapped u t 0x10#8 s.me.pc)
    ∧ (∀ u w, s.fetch = .word u w → exec .pageFaultFetch s = .next s)
    ∧ (s.fetch = .halted → exec .pageFaultFetch s = .next s))

/-- R26: TRET above U restores privilege, IE, pc and the pending prefix, and clears INTRAP and PFX; at U it raises PRIV_INSN with the word. -/
def Obligations.TrapReturnRestores : Prop :=
  ∀ s : State,
    (s.me.priv ≠ 0#2 → ∃ t, exec .tret s = .next t ∧ OnlyMe s t ∧ t.cur = s.cur
      ∧ t.me = { s.me with priv := s.me.ppriv, ie := s.me.pie, intrap := false, pc := s.me.trappc, pfxBit := false, ready := t.me.ready,
                           pfx := if s.me.pfxBit then some s.me.pfxsave else none })
    ∧ (s.me.priv = 0#2 → s.me.intrap = false → ∃ t, exec .tret s = .next t ∧ Trapped s t 0x02#8 (BitVec.ofNat 64 s.iw.toNat))

/-- R24, R27, R370: at a boundary with IE = 1, with no SAVE_FULL due and no user completion to deliver, INTERRUPT_ENTRY takes the lowest interrupt that is pending and enabled: the entry is that of a trap with code 0x80 + n and the interrupt's value, and a set-type interrupt is no longer pending. A context in SLEEP resumes after the SLEEP (R105). R27, R330 to R332: with no SAVE_FULL due, USER_COMPLETION delivers the oldest completion: x24 to x31 and their shadows are exchanged, UIPC, UIJOB and the status are recorded, its place is free, and control goes to UIVEC. UIRET exchanges them back and returns to UIPC, and without a delivery in progress it raises ILLEGAL_INSN. R27, R377: SAVE_FULL is taken at a boundary whatever IE holds, with cause 0x15 and the recorded value, and is then no longer due. That TRAPPC of a sleeping context is then the address of its SLEEP is the model's reading (log entry 46, DEDUCED). R29, R105: where the core's clock runs on by itself (R108, R394, R400), after LOCAL_COMPARE the counter has reached CCMP and LOCAL_COMPARE is pending, and elsewhere it does nothing; SLEEP waits at its own address until an interrupt is pending and enabled, completes at once while one is, and SLEEP_WAKE then goes on after it. -/
def Obligations.InterruptsAreTaken : Prop :=
  (∀ (s : State) (n : Nat), AtBoundary s → s.saveFullDue = false → s.deliverable = false → s.me.ie = true → 1 ≤ n → n ≤ 4 →
    (s.enabledPending s.cur).getLsbD n = true → (∀ j, 1 ≤ j → j < n → (s.enabledPending s.cur).getLsbD j = false) →
    ∃ t, exec .interruptEntry s = .next t ∧ OnlyMe s t ∧ t.cur = s.cur
      ∧ t.me.trapcause = BitVec.ofNat 8 (0x80 + n) ∧ t.me.trapval = interruptValue s.me n
      ∧ t.me.trappc = (if s.me.wait = .sleep then s.me.pc + 4#64 else s.me.pc)
      ∧ t.me.pc = s.me.trapvec ∧ t.me.ppriv = s.me.priv ∧ t.me.priv = (if s.cur < 32768 then 1#2 else 3#2)
      ∧ t.me.pie = true ∧ t.me.ie = false ∧ t.me.intrap = true ∧ t.me.pfx = none
      ∧ (s.me.wait ≠ .sleep → t.me.pfxBit = s.me.pfx.isSome ∧ ∀ w, s.me.pfx = some w → t.me.pfxsave = w)
      ∧ (∀ j : Nat, j < 3 → t.me.ipend.getLsbD j = (s.me.ipend.getLsbD j && decide (j + 2 ≠ n)))
      ∧ t.me.x = s.me.x ∧ t.me.p = s.me.p)
  ∧ (∀ s : State,
    (∀ e rest, AtBoundary s → s.saveFullDue = false → s.deliverable = true → s.me.wait ≠ .sleep → s.me.clist = e :: rest →
      ∃ t, exec .userCompletion s = .next t ∧ OnlyMe s t ∧ t.cur = s.cur ∧ Exchanged s.me t.me
        ∧ t.me.uipc = s.me.pc ∧ t.me.uijob = BitVec.ofNat 64 e.id ∧ t.me.uiStatus = BitVec.ofNat 8 e.status ∧ t.me.uiActive = true
        ∧ t.me.clist = rest ∧ t.me.places = s.me.places - 1 ∧ t.me.pc = s.me.uivec ∧ t.me.wait = .no ∧ t.me.p = s.me.p
        ∧ t.me.priv = s.me.priv ∧ t.me.trappc = s.me.trappc)
    ∧ (s.me.uiActive = true → ∃ t, exec .uiret s = .next t ∧ OnlyMe s t ∧ MovedTo s t s.me.uipc ∧ Exchanged s.me t.me
        ∧ t.me = { s.me with x := t.me.x, shadow := t.me.shadow, uiActive := false, pc := t.me.pc, pfx := none, wait := .no, ready := t.me.ready })
    ∧ (s.me.uiActive = false → s.me.intrap = false →
        ∃ t, exec .uiret s = .next t ∧ Trapped s t 0x01#8 (BitVec.ofNat 64 s.iw.toNat)))
  ∧ (∀ (s : State) (v : Word), AtBoundary s → s.me.saveFull = some v → s.me.intrap = false →
    ∃ t, exec .saveFull s = .next t ∧ OnlyMe s t ∧ t.cur = s.cur ∧ t.me.trapcause = 0x15#8 ∧ t.me.trapval = v ∧ t.me.trappc = s.me.pc
      ∧ t.me.pc = s.me.trapvec ∧ t.me.ppriv = s.me.priv ∧ t.me.pie = s.me.ie ∧ t.me.ie = false ∧ t.me.intrap = true
      ∧ t.me.saveFull = none ∧ t.me.ipend = s.me.ipend ∧ t.me.x = s.me.x ∧ t.me.p = s.me.p)
  ∧ (∀ s : State,
    (ClockFree s → s.myCore.cyc < 2 ^ 64 → ∃ t, exec .localCompare s = .next t ∧ s.me.ccmp.toNat ≤ t.myCore.cyc ∧ s.myCore.cyc ≤ t.myCore.cyc
      ∧ (t.ipend s.cur).getLsbD 1 = true ∧ t.ctxs = s.ctxs ∧ MemSame s t)
    ∧ (¬ ClockFree s → exec .localCompare s = .next s)
    ∧ (CanFall s → s.enabledPending s.cur = 0#5 → ∃ t, exec .sleep s = .next t ∧ OnlyMe s t ∧ t.cur = s.cur
      ∧ t.me = { s.me with wait := .sleep, uword := s.iw })
    ∧ (CanFall s → s.enabledPending s.cur ≠ 0#5 → ∃ t, exec .sleep s = .next t ∧ Fell s t ∧ OnlyPc s.me t.me ∧ OnlyMe s t)
    ∧ (s.me.wait = .sleep → s.enabledPending s.cur ≠ 0#5 →
      ∃ t, exec .sleepWake s = .next t ∧ Fell s t ∧ OnlyPc s.me t.me ∧ OnlyMe s t))

/-- R104: CRD of an assigned register that the privilege may read writes its value, clean, to rd, once a register that drains the vector queue has drained it (R129). The values of the trap registers, CTXSTAT's fields and CCLK are those the context and core hold. Which level may read the registers of other units is read by inference where the tables name no level (log entry 45). R18, R239, R411: an access to a register that is not assigned raises ILLEGAL_INSN; otherwise an access that the privilege may not make raises PRIV_INSN; both with the word. -/
def Obligations.ControlRegistersRead : Prop :=
  ((∀ (rd : XReg) (cr : BitVec 11) (s : State), CanFall s →
    (cr.toNat ∈ crReadAny ∨ (cr.toNat ∈ crNotUser ∧ s.me.priv ≠ 0#2)) → (cr.toNat ∈ crDraining → Drained s) →
    ∃ t, exec (.crd rd cr) s = .next t ∧ WroteOnly s t rd (Reg.clean (s.crRead cr.toNat)))
  ∧ (∀ (rd : XReg) (cr : BitVec 11) (s : State), CanFall s → 32768 ≤ s.cur → crMachine cr.toNat → s.me.priv = 3#2 →
    ∃ t, exec (.crd rd cr) s = .next t ∧ WroteOnly s t rd (Reg.clean (s.crRead cr.toNat)))
  ∧ ∀ s : State,
    s.crRead 0x002 = BitVec.ofNat 64 s.me.pfxsave.toNat ∧ s.crRead 0x003 = BitVec.ofNat 64 s.me.trapcause.toNat
    ∧ s.crRead 0x004 = s.me.trappc ∧ s.crRead 0x005 = s.me.trapval ∧ s.crRead 0x006 = s.me.trapvec ∧ s.crRead 0x007 = s.me.trapscr
    ∧ s.crRead 0x008 = BitVec.ofNat 64 s.myCore.cyc ∧ s.crRead 0x009 = s.me.ccmp
    ∧ (s.crRead 0x001).extractLsb' 0 2 = s.me.priv ∧ (s.crRead 0x001).extractLsb' 2 2 = s.me.ppriv
    ∧ (s.crRead 0x001).getLsbD 4 = s.me.ie ∧ (s.crRead 0x001).getLsbD 5 = s.me.pie ∧ (s.crRead 0x001).getLsbD 6 = s.me.intrap
    ∧ (s.crRead 0x001).getLsbD 7 = s.me.pfxBit ∧ (s.crRead 0x001).getLsbD 8 = s.me.dbl
    ∧ (s.crRead 0x001).extractLsb' 16 5 = s.me.ien ∧ (s.crRead 0x001).extractLsb' 24 5 = s.ipend s.cur)
  ∧ (∀ (rd rs1 : XReg) (cr : BitVec 11) (s : State), s.me.intrap = false →
    let any := fun (code : BitVec 8) (is : List Instr) => ∀ i ∈ is, ∃ t, exec i s = .next t ∧ Trapped s t code (BitVec.ofNat 64 s.iw.toNat)
    (cr.toNat ∉ crReadAny → cr.toNat ∉ crNotUser → (32768 ≤ s.cur → ¬ crMachine cr.toNat) →
      any 0x01#8 [.crd rd cr, .cwr rs1 cr, .cset rd rs1 cr, .cclr rd rs1 cr])
    ∧ (cr.toNat ∈ crNotUser → s.me.priv = 0#2 → any 0x02#8 [.crd rd cr, .cwr rs1 cr, .cset rd rs1 cr, .cclr rd rs1 cr])
    ∧ (cr.toNat ∈ crUserReadOnly → s.me.priv = 0#2 → any 0x02#8 [.cwr rs1 cr, .cset rd rs1 cr, .cclr rd rs1 cr])
    ∧ (32768 ≤ s.cur → crMachine cr.toNat → s.me.priv ≠ 3#2 → any 0x02#8 [.crd rd cr, .cwr rs1 cr, .cset rd rs1 cr, .cclr rd rs1 cr]))

/-- R17, R19, R104: above U, CWR of a trap register, PFXSAVE or CCMP from a clean register gives its fields the bits of rs1, CSET sets and CCLR clears the bits of rs1 in the value before and put that value in rd; addresses keep their canonical form and alignment. REGISTER_WRITE of the same registers does the same at any time. R17, R19: a write of CTXSTAT gives IEN, PFX, INTRAP, PIE and IE the bits written; PPRIV takes a level that exists on the core and keeps its value otherwise; PRIV, DBL and IPEND are unchanged, and nothing else changes. R17, R19, R104: CWR, CSET and CCLR of CTXSTAT above U, from a clean register: IEN, PFX, INTRAP, PIE and IE take the bits of the value written, PPRIV takes a level that exists on the core and keeps its value otherwise, PRIV, DBL and IPEND are unchanged; CSET and CCLR put the value before in rd. R104, R363: CWR, CSET or CCLR from a poisoned rs1, of a register that the caller may write, raises POISON with its origin, before the vector queue drains and with nothing written. R104, R114, R137, R138, R203, R251, R320, R329, R367, R391: CWR, CSET and CCLR, from a clean register and with the vector queue drained where the register asks for it (R129), of the registers of a context that U may write, of the caller's partition, of its core and of its tile: each writable field takes its bits, every other field of every register keeps its value, and CSET and CCLR put the value before in rd. Without a partition a partition's register takes no write. R9, R239, R391, R411: at M on a keeper core, CWR, CSET and CCLR of POWER_FLOOR, of a PEAK of THERM_DIE_n, of the counts of LINKSTAT_n and of HBMTEMP.STACK give those fields the bits written; a PEAK below the die's temperature is raised to it. A write of a register with no writable field, on any core above U, changes nothing. -/
def Obligations.ControlRegistersWritten : Prop :=
  (∀ (rd rs1 : XReg) (cr : BitVec 11) (f : Word → Ctx → Ctx), ctxWrite cr.toNat = some f →
    ∀ s : State,
      (CanFall s → s.me.priv ≠ 0#2 → (s.x rs1).psn = none →
        (∃ t, exec (.cwr rs1 cr) s = .next t ∧ Fell s t ∧ OnlyPc (f (s.x rs1).val s.me) t.me ∧ OnlyMe s t)
        ∧ (∃ t, exec (.cset rd rs1 cr) s = .next t ∧ Fell s t ∧ OnlyRegs (f (s.crRead cr.toNat ||| (s.x rs1).val) s.me) t.me
            ∧ WroteX s t rd (Reg.clean (s.crRead cr.toNat)) ∧ OnlyMe s t)
        ∧ ∃ t, exec (.cclr rd rs1 cr) s = .next t ∧ Fell s t ∧ OnlyRegs (f (s.crRead cr.toNat &&& ~~~(s.x rs1).val) s.me) t.me
            ∧ WroteX s t rd (Reg.clean (s.crRead cr.toNat)) ∧ OnlyMe s t)
      ∧ ∀ v : Word, ∃ t, exec (.registerWrite cr v) s = .next t ∧ t.cur = s.cur ∧ t.me = f v s.me ∧ OnlyMe s t)
  ∧ (∀ (rs1 : XReg) (s : State), CanFall s → s.me.priv ≠ 0#2 → (s.x rs1).psn = none →
    let v := (s.x rs1).val
    ∃ t, exec (.cwr rs1 0x001#11) s = .next t ∧ Fell s t ∧ OnlyMe s t
      ∧ OnlyPc { s.me with
          ien := v.extractLsb' 16 5, pfxBit := v.getLsbD 7, intrap := v.getLsbD 6, pie := v.getLsbD 5, ie := v.getLsbD 4
          ppriv := if v.toNat / 4 % 4 = 2 ∨ (v.toNat / 4 % 4 = 3 ∧ s.cur < 32768) then s.me.ppriv else v.extractLsb' 2 2 } t.me)
  ∧ (∀ (i : Instr) (rd : Option XReg) (rs1 : XReg) (v : Word) (s : State), crForm s i = some (rd, rs1, 0x001#11, v) →
    CanFall s → s.me.priv ≠ 0#2 → (s.x rs1).psn = none →
    ∃ t, exec i s = .next t ∧ Fell s t ∧ OnlyMe s t ∧ MaybeWrote s t rd (Reg.clean (s.crRead 0x001))
      ∧ OnlyRegs { s.me with
          ien := v.extractLsb' 16 5, pfxBit := v.getLsbD 7, intrap := v.getLsbD 6, pie := v.getLsbD 5, ie := v.getLsbD 4
          ppriv := if v.toNat / 4 % 4 = 2 ∨ (v.toNat / 4 % 4 = 3 ∧ s.cur < 32768) then s.me.ppriv else v.extractLsb' 2 2 } t.me)
  ∧ (∀ (i : Instr) (rd : Option XReg) (rs1 : XReg) (cr : BitVec 11) (v o : Word) (s : State), crForm s i = some (rd, rs1, cr, v) →
    (s.x rs1).psn = some o → s.me.intrap = false → (cr = 0x010#11 → s.cur % 16 = 0) →
    ((cr.toNat ∈ crReadAny ∨ cr.toNat ∈ crNotUser) ∧ s.me.priv ≠ 0#2) ∨ (cr.toNat ∈ crReadAny ∧ cr.toNat ∉ crUserReadOnly) →
    ∃ t, exec i s = .next t ∧ Trapped s t 0x10#8 o)
  ∧ (∀ (i : Instr) (rd : Option XReg) (rs1 : XReg) (cr : BitVec 11) (v : Word) (s : State), crForm s i = some (rd, rs1, cr, v) →
    CanFall s → (s.x rs1).psn = none → s.cur < 32768 → (cr.toNat ∈ crDraining → Drained s) →
    let Done := fun (t : State) (c : Ctx) => exec i s = .next t ∧ Fell s t ∧ OnlyRegs c t.me ∧ MaybeWrote s t rd (Reg.clean (s.crRead cr.toNat))
    (∀ f, userWrite cr.toNat = some f → ∃ t, Done t (f v s.me) ∧ OnlyMe s t)
    ∧ (∀ f p, partWrite cr.toNat = some f → s.myPart = some p → ∃ t, Done t s.me ∧ OnlyPart s t (f v p))
    ∧ (∀ f, partWrite cr.toNat = some f → s.myPart = none → ∃ t, Done t s.me ∧ OnlyMe s t)
    ∧ (∀ f, coreWrite cr.toNat = some f → (cr = 0x010#11 → s.cur % 16 = 0) → (cr = 0x080#11 → s.me.priv ≠ 0#2) →
      ∃ t, Done t s.me ∧ OnlyMyCore s t (f v (s.core (s.cur / 16))))
    ∧ (cr = 0x040#11 → s.me.priv ≠ 0#2 →
      ∃ t, Done t s.me ∧ OnlyMyTile s t { s.tile (s.cur / 128) with root := BitVec.ofNat 19 (v.toNat / 4096) })
    ∧ (cr = 0x053#11 → s.me.priv ≠ 0#2 →
      ∃ t, Done t s.me ∧ OnlyMyTile s t { s.tile (s.cur / 128) with
        eng := { (s.tile (s.cur / 128)).eng with gov := { (s.tile (s.cur / 128)).eng.gov with stalls := v.toNat / 2 ^ 32 } } })
    ∧ (cr = 0x073#11 → s.me.priv ≠ 0#2 →
      ∃ t, Done t s.me ∧ t = { s with ctxs := t.ctxs, cores := t.cores, tiles := t.tiles } ∧ (∀ d, d ≠ s.cur → t.ctx d = s.ctx d)
        ∧ (∀ j, t.core j = if j = s.cur / 16 then { s.core j with wayue := v.toNat / 2 ^ 16 % 2 ^ 16, wayce := v.toNat % 2 ^ 16 } else s.core j)
        ∧ ∀ j, t.tile j = if j = s.cur / 128 then { s.tile j with hbmue := v.toNat / 2 ^ 48, hbmce := v.toNat / 2 ^ 32 % 2 ^ 16 } else s.tile j))
  ∧ (∀ (i : Instr) (rd : Option XReg) (rs1 : XReg) (cr : BitVec 11) (v : Word) (s : State), crForm s i = some (rd, rs1, cr, v) →
    CanFall s → (s.x rs1).psn = none →
    let Done := fun (t : State) => exec i s = .next t ∧ Fell s t ∧ OnlyRegs s.me t.me ∧ MaybeWrote s t rd (Reg.clean (s.crRead cr.toNat)) ∧ (∀ d, d ≠ s.cur → t.ctx d = s.ctx d)
    (32768 ≤ s.cur → s.me.priv = 3#2 →
      (cr = 0x421#11 → ∃ t, Done t ∧ t = { s with ctxs := t.ctxs, floor := BitVec.ofNat 16 v.toNat })
      ∧ (∀ n, n < 9 → cr.toNat = 0x410 + n → ∃ t, Done t ∧ t = { s with ctxs := t.ctxs, dies := t.dies }
          ∧ ∀ j, t.die j = if j = n then { s.die j with peak := if v.toNat / 2 ^ 32 % 1024 < (s.die j).temp.toNat then (s.die j).temp else BitVec.ofNat 10 (v.toNat / 2 ^ 32) } else s.die j)
      ∧ (∀ n, n < 16 → cr.toNat = 0x430 + n → ∃ t, Done t ∧ t = { s with ctxs := t.ctxs, links := t.links }
          ∧ ∀ j, t.link j = if j = n then { s.link j with retrains := v.toNat / 2 ^ 32, replays := v.toNat / 2 ^ 16 % 2 ^ 16 } else s.link j)
      ∧ (cr = 0x081#11 → ∃ t, Done t ∧ OnlyMyCore s t { s.core (s.cur / 16) with hbmSel := BitVec.ofNat 3 (v.toNat / 2 ^ 48) })
      ∧ (cr.toNat ∈ [0x400, 0x420, 0x440] → ∃ t, Done t ∧ OnlyMe s t))
    ∧ (cr.toNat ∈ crReadOnly → s.me.priv ≠ 0#2 → (cr = 0x081#11 → s.cur < 32768) → ∃ t, Done t ∧ OnlyMe s t))

/-- R58: an assembled NOP, MOV, RET or LI is exactly the words of its expansion, and an LI's words, taken as the operations of R71 to R73 from x0 on, leave the value in its register, modulo 2^64. -/
def Obligations.PseudoInstructions : Prop :=
  encode nopInsn = some 0x08000000#32
  ∧ (∀ (st : ZStmt) (l : List Instr),
      (st = .nop ∧ l = [.addi 0#5 0#5 0#16]) ∨ (∃ d a, st = .mov d a ∧ l = [.addi d a 0#16]) ∨ (st = .ret ∧ l = [.jalr 0#5 31#5 0#16])
        ∨ (∃ d v, st = .li d (.num v) ∧ (-32768 ≤ v ∧ v ≤ 32767) ∧ l = [.addi d 0#5 (BitVec.ofInt 16 v)])
        ∨ (∃ d v, st = .li d (.num v) ∧ ¬ (-32768 ≤ v ∧ v ≤ 32767)
            ∧ l = .ori d 0#5 (BitVec.ofInt 16 v) :: ([1, 2, 3].filter fun h => (BitVec.ofInt 64 v).extractLsb' (16 * h) 16 ≠ 0#16).map
                fun h => .lih d (BitVec.ofNat 2 h) ((BitVec.ofInt 64 v).extractLsb' (16 * h) 16)) →
      (zelas [[{ stmt := some st }]]).map (fun z => z.text) = some ((l.filterMap encode).flatMap fun w => leBytes 4 w.toNat))
  ∧ ∀ (d : XReg) (v : Int),
      (∀ i ∈ liInsns d v, ∃ a f, intOne i = some (d, a, f) ∧ ((liInsns d v).head? = some i ∧ a = 0#5 ∨ a = d))
      ∧ (liInsns d v).foldl (fun x i => match intOne i with
          | some (_, _, f) => f x
          | none => x) 0#64 = BitVec.ofInt 64 v

/-- R49, R51: PFX leaves its word pending and moves past itself. A successor that the pending prefix suppresses has no effect but to move past itself; one that it does not suppress runs as it would alone. -/
def Obligations.PrefixPendingAndSuppression : Prop :=
  (∀ (q : PReg) (sense ce : BitVec 1) (copy : XReg) (s : State), CanFall s →
    ∃ t w, exec (.pfx q sense ce copy) s = .next t ∧ encode (.pfx q sense ce copy) = some w
      ∧ t.cur = s.cur ∧ t.me.pc = s.me.pc + 4#64 ∧ t.me.pfx = some w ∧ t.me.wait = .no ∧ OnlyPc s.me t.me ∧ OnlyMe s t)
  ∧ ∀ (s : State) (w p : Insn) (i : Instr), s.iw = w → decode w = some i → (s.cur < 32768 ∨ keeperLacks w = false) →
    s.me.pfx = some p → pfxIllegal p w = false →
    (s.p (p.extractLsb' 23 3) = p.getLsbD 22 → CanFall s →
      ∃ t, s.issueWord execWord legalWord w = .next t ∧ Fell s t ∧ OnlyPc s.me t.me ∧ OnlyMe s t)
    ∧ (s.p (p.extractLsb' 23 3) ≠ p.getLsbD 22 → s.issueWord execWord legalWord w = exec i s)

/-- R84, R85, R87: a load of a tile context that passes its checks writes the little-endian bytes, as its core sees them, widened as its mnemonic says, to rd; every byte of memory reads as before, and without acquire no write that a core holds moves. Where no undiscovered error stands, the result is poisoned, with the word's address, exactly when a byte read lies in a poisoned word (R82, R361). R84, R85, R87, R360: a store of a tile context that passes its checks replaces exactly n bytes by the low bytes of its source, lowest first; every other byte its core sees, every other tile's memory and keeper memory read as before, and no register changes. Poisoned data marks the word, eight clean bytes clear it, fewer leave it. -/
def Obligations.LoadsAndStores : Prop :=
  (∀ (i : Instr) (n : Nat) (signed : Bool) (rd base : XReg) (aq : BitVec 1) (off : BitVec 12),
    loadForm i = some (n, signed, rd, base, aq, off) →
    ∀ (s s1 : State) (pa : Nat), MemOk s → CanFall s → (s.x base).psn = none →
      Translates s (addressOf (s.x base).val off) n .load s1 pa → s.vectorConflict pa n = false →
      ∃ t v, exec i s = .next t ∧ WroteX s t rd v
        ∧ v.val = widened (8 * n) (numberAt (s.coreMem (myCoreKey s)) pa n) signed
        ∧ ((s.tile (myTileKey s)).latent = [] →
            v.psn = if (List.range n).any (fun i => (s.coreMem (myCoreKey s)).marked (pa + i)) then some (addressOf (s.x base).val off &&& ~~~7#64) else none)
        ∧ Sent s t ∧ OnlyRegs s.me t.me ∧ OnlyAccess s t ∧ OtherTilesSame s t
        ∧ (∀ a, seen t (myCoreKey s) a = seen s (myCoreKey s) a) ∧ (aq = 0#1 → MemSame s t))
  ∧ (∀ (i : Instr) (n : Nat) (rs base : XReg) (rl : BitVec 1) (off : BitVec 12), storeForm i = some (n, rs, base, rl, off) →
    ∀ (s s1 : State) (pa : Nat), MemOk s → CanFall s → (s.x base).psn = none →
      Translates s (addressOf (s.x base).val off) n .store s1 pa → s.vectorConflict pa n = false →
      (rl = 1#1 → s.vectorAccessesDone s.cur = true) →
      ∃ t, exec i s = .next t
        ∧ (∀ a, seen t (myCoreKey s) a =
            if pa ≤ a ∧ a < pa + n then BitVec.ofNat 8 ((s.x rs).val.toNat / 256 ^ (a - pa)) else seen s (myCoreKey s) a)
        ∧ OtherTilesSame s t ∧ t.kmem = s.kmem
        ∧ ((s.tile (myTileKey s)).latent = [] → pa % n = 0 → (t.coreMem (myCoreKey s)).marked pa =
            if (s.x rs).psn.isSome then true else if n = 8 then false else (s.coreMem (myCoreKey s)).marked pa)
        ∧ Sent s t ∧ OnlyPc s.me t.me ∧ OnlyAccess s t)

/-- R88, R89, R264: an atomic of a tile context that passes its checks performs at the tile, where first every write to its bytes that a core of the tile holds performs: rd takes the old value, exactly its bytes take the new value computed from the old value and the operand, and no core holds a write to those bytes any more. When held writes perform otherwise is the schedule's (log entry 56). R89: ACAS with clean registers on a clean word returns the old value, sign-extended, and stores the operand's bytes exactly when the old value equals the low bits of rd; otherwise every byte keeps what it held once the writes to its bytes that the tile's cores hold have performed. -/
def Obligations.AtomicResults : Prop :=
  (∀ (i : Instr) (rd rs1 rs2 : XReg) (rl : BitVec 1) (z : BitVec 2) (sg : Bool) (f : Nat → Nat → Nat → Nat),
    atomicForm i = some (rd, rs1, rs2, rl, z, sg, f) →
    ∀ (s s1 : State) (pa : Nat), MemOk s → CanFall s → (s.x rs1).psn = none →
      Translates s (s.x rs1).val (2 ^ z.toNat) .store s1 pa → s.vectorConflict pa (2 ^ z.toNat) = false →
      (rl = 1#1 → s.vectorAccessesDone s.cur = true) →
      let n := 2 ^ z.toNat
      let m := (((if rl = 1#1 then s.drainCore (myCoreKey s) else s).drainBytes (myTileKey s) (bytesAt pa n)).tile (myTileKey s)).mem
      let new := f (8 * n) (numberAt m pa n) ((s.x rs2).val.toNat % 2 ^ (8 * n))
      ∃ t v, exec i s = .next t ∧ WroteX s t rd v ∧ v.val = widened (8 * n) (numberAt m pa n) sg
        ∧ (∀ a, (t.tile (myTileKey s)).mem.byte a = if pa ≤ a ∧ a < pa + n then BitVec.ofNat 8 (new / 256 ^ (a - pa)) else m.byte a)
        ∧ HeldClear s t (myTileKey s) (fun a => pa ≤ a ∧ a < pa + n)
        ∧ OtherTilesSame s t ∧ t.kmem = s.kmem ∧ Sent s t ∧ OnlyRegs s.me t.me ∧ OnlyAccess s t)
  ∧ (∀ (rd rs1 rs2 : XReg) (aq rl : BitVec 1) (z : BitVec 2) (s s1 : State) (pa : Nat), MemOk s → CanFall s →
    (s.x rs1).psn = none → (s.x rd).psn = none → (s.x rs2).psn = none →
    Translates s (s.x rs1).val (2 ^ z.toNat) .store s1 pa → s.vectorConflict pa (2 ^ z.toNat) = false →
    (rl = 1#1 → s.vectorAccessesDone s.cur = true) → (s.tile (myTileKey s)).latent = [] →
    let n := 2 ^ z.toNat
    let m := (((if rl = 1#1 then s.drainCore (myCoreKey s) else s).drainBytes (myTileKey s) (bytesAt pa n)).tile (myTileKey s)).mem
    let old := numberAt m pa n
    (∀ i, i < n → m.marked (pa + i) = false) →
    ∃ t, exec (.acas rd rs1 rs2 aq rl z) s = .next t ∧ WroteX s t rd (Reg.clean (widened (8 * n) old true))
      ∧ (∀ a, (t.tile (myTileKey s)).mem.byte a =
          if old = (s.x rd).val.toNat % 2 ^ (8 * n) ∧ pa ≤ a ∧ a < pa + n then BitVec.ofNat 8 ((s.x rs2).val.toNat / 256 ^ (a - pa)) else m.byte a)
      ∧ HeldClear s t (myTileKey s) (fun a => pa ≤ a ∧ a < pa + n)
      ∧ OtherTilesSame s t ∧ t.kmem = s.kmem ∧ Sent s t ∧ OnlyRegs s.me t.me ∧ OnlyAccess s t)

/-- R22, R81, R254, R363: the checks of a scalar memory access come in order: a poisoned base raises POISON with its origin, an address that is not canonical raises ACCESS_FAULT, one that is not aligned raises MISALIGNED, a failed translation raises the page fault of its kind with level and reason in XLSTAT, a poisoned page-table entry raises POISON with the address, and an entry where nothing lies (R258) ACCESS_FAULT; no register and, but for what the walk itself finds (R254, R365), no memory changes. R254, R258: a keeper context at M reaches keeper memory untranslated: a load reads its bytes, a store replaces exactly its bytes, and a store to the boot flash or an access where nothing is mapped raises ACCESS_FAULT. R258, R399, R401, R412: the rest of the keeper-physical map at M. Loads: staging memory and boot flash give their bytes; LD of a routing entry its ten bits, of a listed register of a power block its fields; the window of a tile that is ON the bytes that HBM4 holds. Every other size or offset, every address where nothing lies, and the window of a tile that is not ON raise ACCESS_FAULT; while the tile's stack is in HALT the window waits (R394). No memory changes. R258, R259, R399, R401, R412: stores and atomics of a keeper context at M beyond keeper memory. A store to staging memory replaces exactly its bytes; SD to a routing entry its ten bits; SD to a listed register of a power block does what R400 says of it; a store through the window of a tile that is ON replaces exactly its bytes in HBM4, with no copy of the line left in the tile's caches. Atomics act on keeper memory and staging memory, returning the old value. Every other access outside the window faults. -/
def Obligations.MemoryAccessTraps : Prop :=
  ((∀ (s : State) (i : Instr) (b : XReg) (va : Word) (n : Nat) (kind : AccKind), memForm s i = some (b, va, n, kind) → s.me.intrap = false →
    (∀ o, (s.x b).psn = some o → ∃ t, exec i s = .next t ∧ Trapped s t 0x10#8 o)
    ∧ ((s.x b).psn = none →
      (¬ Canonical va → ∃ t, exec i s = .next t ∧ Trapped s t 0x07#8 va)
      ∧ (Canonical va → va.toNat % n ≠ 0 → ∃ t, exec i s = .next t ∧ Trapped s t 0x03#8 va)
      ∧ (Canonical va → va.toNat % n = 0 → (s.cur < 32768 ∨ s.me.priv ≠ 3#2) →
          (∀ s1 lvl r, s.translate (s.cur / 16) s.me.priv va kind = (s1, .fault lvl r) →
            ∃ t, exec i s = .next t
              ∧ Trapped (s1.updMe fun c => { c with xlLevel := BitVec.ofNat 4 lvl, xlReason := BitVec.ofNat 4 r }) t
                  (match kind with | .store => 0x05#8 | _ => 0x04#8) va)
          ∧ (∀ s1, s.translate (s.cur / 16) s.me.priv va kind = (s1, .poison) → ∃ t, exec i s = .next t ∧ Trapped s1 t 0x10#8 va)
          ∧ ∀ s1, s.translate (s.cur / 16) s.me.priv va kind = (s1, .absent) → ∃ t, exec i s = .next t ∧ Trapped s1 t 0x07#8 va)))
  ∧ ∀ (s : State) (rd a b : XReg) (aq rl : BitVec 1) (z : BitVec 2), s.me.intrap = false →
    (∀ o, firstOrigin s [a, rd, b] = some o → ∃ t, exec (.acas rd a b aq rl z) s = .next t ∧ Trapped s t 0x10#8 o)
    ∧ (firstOrigin s [a, rd, b] = none →
      let va := (s.x a).val
      (¬ Canonical va → ∃ t, exec (.acas rd a b aq rl z) s = .next t ∧ Trapped s t 0x07#8 va)
      ∧ (Canonical va → va.toNat % 2 ^ z.toNat ≠ 0 → ∃ t, exec (.acas rd a b aq rl z) s = .next t ∧ Trapped s t 0x03#8 va)
      ∧ (Canonical va → va.toNat % 2 ^ z.toNat = 0 → (s.cur < 32768 ∨ s.me.priv ≠ 3#2) →
          ∀ s1 lvl r, s.translate (s.cur / 16) s.me.priv va .store = (s1, .fault lvl r) →
          ∃ t, exec (.acas rd a b aq rl z) s = .next t
            ∧ Trapped (s1.updMe fun c => { c with xlLevel := BitVec.ofNat 4 lvl, xlReason := BitVec.ofNat 4 r }) t 0x05#8 va)))
  ∧ (∀ s : State, 32768 ≤ s.cur → s.me.priv = 3#2 → CanFall s → MemOk s →
    (∀ (i : Instr) (n : Nat) (signed : Bool) (rd base : XReg) (aq : BitVec 1) (off : BitVec 12),
      loadForm i = some (n, signed, rd, base, aq, off) → (s.x base).psn = none →
      (addressOf (s.x base).val off).toNat < 0x10000000 → (addressOf (s.x base).val off).toNat % n = 0 →
      ∃ t v, exec i s = .next t ∧ WroteX s t rd v ∧ v.val = widened (8 * n) (numberAt s.kmem (addressOf (s.x base).val off).toNat n) signed
        ∧ Sent s t ∧ OnlyRegs s.me t.me ∧ OnlyMe s t)
    ∧ (∀ (i : Instr) (n : Nat) (rs base : XReg) (rl : BitVec 1) (off : BitVec 12),
      storeForm i = some (n, rs, base, rl, off) → (s.x base).psn = none → (addressOf (s.x base).val off).toNat % n = 0 →
      ((addressOf (s.x base).val off).toNat < 0x10000000 →
        ∃ t, exec i s = .next t ∧ Sent s t ∧ OnlyPc s.me t.me ∧ t = { s with ctxs := t.ctxs, kmem := t.kmem }
          ∧ ∀ a, t.kmem.byte a =
              if (addressOf (s.x base).val off).toNat ≤ a ∧ a < (addressOf (s.x base).val off).toNat + n
              then BitVec.ofNat 8 ((s.x rs).val.toNat / 256 ^ (a - (addressOf (s.x base).val off).toNat)) else s.kmem.byte a)
      ∧ (0x2000000000 ≤ (addressOf (s.x base).val off).toNat → (addressOf (s.x base).val off).toNat < 0x2004000000 → s.me.intrap = false →
        ∃ t, exec i s = .next t ∧ Trapped s t 0x07#8 (addressOf (s.x base).val off))
      ∧ (0x10000000 ≤ (addressOf (s.x base).val off).toNat → (addressOf (s.x base).val off).toNat < 0x1000000000 → s.me.intrap = false →
        ∃ t, exec i s = .next t ∧ Trapped s t 0x07#8 (addressOf (s.x base).val off))))
  ∧ (∀ (s : State) (i : Instr) (n : Nat) (signed : Bool) (rd base : XReg) (aq : BitVec 1) (off : BitVec 12),
    32768 ≤ s.cur → s.me.priv = 3#2 → CanFall s → MemInv s → s.me.intrap = false →
    loadForm i = some (n, signed, rd, base, aq, off) → (s.x base).psn = none →
    let va := addressOf (s.x base).val off
    let a := va.toNat
    Canonical va → a % n = 0 →
    let Gives := fun (w : Word) => ∃ t, exec i s = .next t ∧ WroteX s t rd (Reg.clean w) ∧ Sent s t ∧ OnlyRegs s.me t.me ∧ OnlyMe s t
    let Faults := ∃ t, exec i s = .next t ∧ Trapped s t 0x07#8 va
    ((0x1000000000 ≤ a ∧ a < 0x1040000000) ∨ (0x2000000000 ≤ a ∧ a < 0x2004000000) →
      ∃ t v, exec i s = .next t ∧ WroteX s t rd v ∧ v.val = widened (8 * n) (numberAt s.kmem a n) signed ∧ Sent s t ∧ OnlyRegs s.me t.me ∧ OnlyMe s t)
    ∧ (∀ m, m < 512 → a = 0x3000000000 + 8 * m → n = 8 → Gives (BitVec.ofNat 64 (s.routes.get m 0#10).toNat))
    ∧ (0x3000000000 ≤ a → a < 0x4000010000 → a < 0x3000001000 ∨ 0x4000000000 ≤ a → n ≠ 8 → Faults)
    ∧ (∀ k o, k < 256 → o < 256 → a = 0x4000000000 + 256 * k + o → n = 8 →
        (∀ w, powerWord (s.pwr k) o = some w → Gives w) ∧ (powerWord (s.pwr k) o = none → Faults))
    ∧ (∀ k pa, k < 256 → pa < 2 ^ 31 → a = 2 ^ 39 + 2 ^ 31 * k + pa →
        (WindowOpen s k → ∃ t v, exec i s = .next t ∧ WroteX s t rd v ∧ v.val = widened (8 * n) (numberAt (s.tile k).hbm pa n) signed
          ∧ Sent s t ∧ OnlyRegs s.me t.me ∧ OnlyAccess s t ∧ MemSame s t)
        ∧ ((s.pwr k).st ≠ .on → Faults)
        ∧ ((s.pwr k).st = .on → s.stackState (stackOf k) = 3 → ∃ t, exec i s = .next t ∧ HaltWait s t))
    ∧ (¬ KeeperMapped a → Faults))
  ∧ (∀ s : State, 32768 ≤ s.cur → s.me.priv = 3#2 → CanFall s → MemOk s → s.me.intrap = false →
    (∀ (i : Instr) (n : Nat) (rs base : XReg) (rl : BitVec 1) (off : BitVec 12),
      storeForm i = some (n, rs, base, rl, off) → (s.x base).psn = none →
      let va := addressOf (s.x base).val off
      let a := va.toNat
      let d := (s.x rs).val
      let Done := fun (t : State) => exec i s = .next t ∧ Sent s t ∧ OnlyPc s.me t.me ∧ ∀ c, c ≠ s.cur → t.ctx c = s.ctx c
      let Faults := ∃ t, exec i s = .next t ∧ Trapped s t 0x07#8 va
      Canonical va → a % n = 0 →
      (0x1000000000 ≤ a → a < 0x1040000000 → ∃ t, Done t ∧ t = { s with ctxs := t.ctxs, kmem := t.kmem }
          ∧ ∀ b, t.kmem.byte b = if a ≤ b ∧ b < a + n then BitVec.ofNat 8 (d.toNat / 256 ^ (b - a)) else s.kmem.byte b)
      ∧ (∀ m, m < 512 → a = 0x3000000000 + 8 * m → n = 8 → ∃ t, Done t ∧ (∀ j, t.routes.get j 0#10 = if j = m then BitVec.ofNat 10 d.toNat else s.routes.get j 0#10)
          ∧ t.cores = s.cores ∧ t.tiles = s.tiles ∧ t.kmem = s.kmem ∧ t.power = s.power)
      ∧ (0x3000000000 ≤ a → a < 0x4000010000 → a < 0x3000001000 ∨ 0x4000000000 ≤ a → n ≠ 8 → Faults)
      ∧ (∀ k o, k < 256 → o < 256 → a = 0x4000000000 + 256 * k + o → n = 8 →
          (∀ p, powerStored s k d o = some p → ∃ t, Done t ∧ t = { s with ctxs := t.ctxs, power := t.power } ∧ ∀ j, t.pwr j = if j = k then p else s.pwr j)
          ∧ (powerStored s k d o = none → Faults))
      ∧ (∀ k pa, k < 256 → pa < 2 ^ 31 → a = 2 ^ 39 + 2 ^ 31 * k + pa →
          (WindowOpen s k → ∃ t, Done t ∧ OnlyAccess s t
            ∧ (∀ b, (t.tile k).mem.byte b = if pa ≤ b ∧ b < pa + n then BitVec.ofNat 8 (d.toNat / 256 ^ (b - pa)) else (s.tile k).mem.byte b)
            ∧ (t.tile k).old.find (pa / 64) = none ∧ (t.tile k).dir.find (pa / 64) = none ∧ (∀ j, j ≠ k → t.tile j = s.tile j))
          ∧ ((s.pwr k).st ≠ .on → Faults)
          ∧ ((s.pwr k).st = .on → s.stackState (stackOf k) = 3 → ∃ t, exec i s = .next t ∧ HaltWait s t))
      ∧ (¬ KeeperMapped a → Faults))
    ∧ ∀ (i : Instr) (rd rs1 rs2 : XReg) (rl : BitVec 1) (z : BitVec 2) (sg : Bool) (f : Nat → Nat → Nat → Nat),
      atomicForm i = some (rd, rs1, rs2, rl, z, sg, f) → (s.x rs1).psn = none →
      let n := 2 ^ z.toNat
      let a := (s.x rs1).val.toNat
      let new := f (8 * n) (numberAt s.kmem a n) ((s.x rs2).val.toNat % 2 ^ (8 * n))
      Canonical (s.x rs1).val → a % n = 0 →
      (KeeperPlain a → ∃ t v, exec i s = .next t ∧ WroteX s t rd v ∧ v.val = widened (8 * n) (numberAt s.kmem a n) sg
          ∧ (∀ b, t.kmem.byte b = if a ≤ b ∧ b < a + n then BitVec.ofNat 8 (new / 256 ^ (b - a)) else s.kmem.byte b)
          ∧ Sent s t ∧ OnlyRegs s.me t.me ∧ t = { s with ctxs := t.ctxs, kmem := t.kmem } ∧ ∀ c, c ≠ s.cur → t.ctx c = s.ctx c)
      ∧ (¬ KeeperPlain a → a < 2 ^ 39 ∨ 2 ^ 40 ≤ a → ∃ t, exec i s = .next t ∧ Trapped s t 0x07#8 (s.x rs1).val))

/-- R255, R360, R365: a translation changes nothing but the core's TLB, the tile's walker cache, and what reading the page tables finds: an undiscovered error becomes poison and is counted; no byte of any memory changes. A failed translation fills no cache, and where no tile has an undiscovered error it changes nothing else either. R252 to R255: an address translates by a leaf that the core's TLB holds for it, or, where it holds none, by the leaf that the walk from the root of its tables ends at, whose entry was read clean, is valid and a leaf, at level 3 or 4. That leaf permits the access: a User access needs the U bit, a store R and W, a load R, a fetch X, an ICINV R or X; and the physical address is its frame plus the offset in its page. R256, R251: TLBINV drops exactly the translations it names, in the caller's core or in every core of its tile, empties the walker's cache of a tile, and waits while a dropped translation is still held. It changes no byte of memory, no other context and no register. R256: TLBINV of which no dropped translation is held completes: the translations that it names are gone, and the context that issues is as it was. -/
def Obligations.Translation : Prop :=
  (∀ (s s1 : State) (k : Nat) (priv : BitVec 2) (va : Word) (kind : AccKind) (r : TransRes), MemInv s → s.translate k priv va kind = (s1, r) →
    s1 = { s with cores := s1.cores, tiles := s1.tiles }
    ∧ (∀ j, s1.core j = { s.core j with tlb := (s1.core j).tlb } ∧ (j ≠ k → s1.core j = s.core j))
    ∧ (∀ j, s1.tile j = { s.tile j with walker := (s1.tile j).walker, mem := (s1.tile j).mem, old := (s1.tile j).old, latent := (s1.tile j).latent, hbmue := (s1.tile j).hbmue })
    ∧ (∀ j a, (s1.tile j).mem.byte a = (s.tile j).mem.byte a) ∧ (k < 2048 → ∀ j, j ≠ k / 8 → s1.tile j = s.tile j)
    ∧ ((∀ pa, r ≠ .ok pa) → (s1.core k).tlb = (s.core k).tlb ∧ ∀ j, (s1.tile j).walker = (s.tile j).walker)
    ∧ ((∀ j, (s.tile j).latent = []) → ∀ j, s1.tile j = { s.tile j with walker := (s1.tile j).walker }))
  ∧ ((∀ (s s1 : State) (k : Nat) (priv : BitVec 2) (va : Word) (kind : AccKind) (pa : Nat), s.translate k priv va kind = (s1, .ok pa) →
    ∃ (e : Word) (big : Bool),
      ((∃ x, tlbFind (s.core k).tlb va = some x ∧ x.entry = e ∧ x.big = big ∧ s1 = s)
        ∨ (tlbFind (s.core k).tlb va = none ∧ ∃ s2 ptrs,
            walkLevels (State.readPte k) va kind priv [1, 2, 3, 4] (s.rootOf k) [] s = (s2, .leaf (if big then 3 else 4) e ptrs)))
      ∧ leafFault e kind priv = none
      ∧ (priv = 0#2 → e.getLsbD 5 = true)
      ∧ (kind = .load → e.getLsbD 2 = true) ∧ (kind = .store → e.getLsbD 2 = true ∧ e.getLsbD 3 = true) ∧ (kind = .fetch → e.getLsbD 4 = true)
      ∧ (kind = .icinv → e.getLsbD 2 = true ∨ e.getLsbD 4 = true)
      ∧ pa = bitsNat e 8 23 * 256 + va.toNat % (if big then 2 ^ 21 else 2 ^ 16))
  ∧ ∀ (s s2 : State) (k : Nat) (priv : BitVec 2) (va : Word) (kind : AccKind) (lvl : Nat) (e : Word) (ptrs : List (Nat × Word)),
    walkLevels (State.readPte k) va kind priv [1, 2, 3, 4] (s.rootOf k) [] s = (s2, .leaf lvl e ptrs) →
    (lvl = 3 ∨ lvl = 4) ∧ e.getLsbD 0 = true ∧ e.getLsbD 1 = true ∧ pteMalformed e lvl = false
      ∧ ∃ (s3 : State) (table : Nat), State.readPte k s3 (table + 8 * walkIndex va lvl) = (s2, .entry e false))
  ∧ (∀ (v : Word) (s : State),
    ∃ t, exec (.tlbinv v) s = .next t ∧ t.cur = s.cur ∧ MemSame s t ∧ (∀ c, c ≠ s.cur → t.ctx c = s.ctx c)
      ∧ (∀ k e, e ∈ (t.core k).tlb ↔ e ∈ (s.core k).tlb ∧
          ¬ ((k = myCoreKey s ∨ (v.toNat / 4 % 2 = 1 ∧ s.cur < 32768 ∧ k / 8 = myTileKey s)) ∧ Dropped v e))
      ∧ (s.cur < 32768 → (t.tile (myTileKey s)).walker = []) ∧ (∀ k, k ≠ myTileKey s → t.tile k = s.tile k)
      ∧ (s.heldTranslation v = false → t.me = s.me)
      ∧ (s.heldTranslation v = true → t.me = { s.me with wait := .tlbinv v, uword := s.iw }))
  ∧ (∀ (v : Word) (s : State), s.heldTranslation v = false →
    ∃ t, exec (.tlbinv v) s = .next t ∧ t.cur = s.cur ∧ t.ctxs = s.ctxs ∧ MemSame s t ∧ (∀ e ∈ (t.core (myCoreKey s)).tlb, ¬ Dropped v e))

/-- R93, R94: FENCE waits while queued vector accesses of the context have not performed, unless its scope is CTX; it then completes with the writes its core holds performed at TILE for TILE and SYSTEM, and, for SYSTEM, each line that the context's stores left newer than HBM4 written back, and no other (R246); what its core reads is unchanged. R94: FENCE.Q without OWN completes at once and leaves, in each queue that it names, a marker with the scope of the join (at least TILE for the engines' queues) after everything that the context has placed in the named queues, and, under VEC, after its vector stores that are not at TILE yet; a SYSTEM join under VEC leaves one marker more, for those that are; earlier markers stay while they matter. With OWN it waits while something that it names has not performed, and then completes with the writes its core holds performed, and what its core reads is unchanged. That an earlier marker goes once its entry has performed is the model's bookkeeping (log entry 56). R106: the cache operations of a tile context on a translated line: DCCLEAN and DCFLUSH leave it clean, with no byte changed beyond the writes to it that cores hold performed, and after DCFLUSH no cache of the tile holds it; DCINV, above U, leaves it as HBM4 held it, with every copy and every held write to it dropped; ICINV drops it from the instruction lines of its core and touches no memory. DCINV at U raises PRIV_INSN. -/
def Obligations.FencesAndCacheOperations : Prop :=
  (∀ (scope : BitVec 2) (s : State),
    (CanFall s → (scope = 0#2 ∨ s.vectorAccessesDone s.cur = true) →
      ∃ t, exec (.fence scope) s = .next t ∧ Fell s t ∧ OnlyPc s.me t.me ∧ OnlyAccess s t
        ∧ (MemOk s → ∀ a, seen t (myCoreKey s) a = seen s (myCoreKey s) a)
        ∧ (s.cur < 32768 → 2 ≤ scope.toNat → (t.core (myCoreKey s)).buf = [])
        ∧ (s.cur < 32768 → scope = 3#2 → ∀ l,
            let before := ((s.drainCore (myCoreKey s)).tile (myTileKey s)).old.find l
            (∀ d, (t.tile (myTileKey s)).old.find l = some d → s.cur ∉ d.by_)
              ∧ ((∀ d, before = some d → s.cur ∉ d.by_) → (t.tile (myTileKey s)).old.find l = before)))
    ∧ (scope ≠ 0#2 → s.vectorAccessesDone s.cur = false →
      ∃ t, exec (.fence scope) s = .next t ∧ t.cur = s.cur ∧ t.me = { s.me with wait := .fence, uword := s.iw } ∧ OnlyMe s t))
  ∧ (∀ (m : BitVec 5) (scope : BitVec 2) (s : State), CanFall s →
    (m.getLsbD 0 = false →
      ∃ t, exec (.fenceQ m scope) s = .next t ∧ Fell s t ∧ t = { s with ctxs := t.ctxs, fresh := s.fresh + 1 } ∧ (∀ d, d ≠ s.cur → t.ctx d = s.ctx d)
        ∧ OnlyPc { s.me with
            depVec := markedDeps s m 1 scope.toNat s.me.depVec, depMat := markedDeps s m 2 (max 2 scope.toNat) s.me.depMat
            depPort := markedDeps s m 3 (max 2 scope.toNat) s.me.depPort, depCell := markedDeps s m 4 (max 2 scope.toNat) s.me.depCell
              } t.me)
    ∧ (m.getLsbD 0 = true → s.fenceQDone m scope = true →
      ∃ t, exec (.fenceQ m scope) s = .next t ∧ Fell s t ∧ OnlyPc s.me t.me ∧ OnlyAccess s t
        ∧ (MemOk s → ∀ a, seen t (myCoreKey s) a = seen s (myCoreKey s) a) ∧ OtherTilesSame s t ∧ t.kmem = s.kmem
        ∧ (s.cur < 32768 → (2 ≤ scope.toNat ∨ namesEngine m = true) → (t.core (myCoreKey s)).buf = []))
    ∧ (m.getLsbD 0 = true → s.fenceQDone m scope = false →
      ∃ t, exec (.fenceQ m scope) s = .next t ∧ t.cur = s.cur ∧ t.me = { s.me with wait := .fence, uword := s.iw } ∧ OnlyMe s t))
  ∧ (∀ (b : XReg) (s s1 : State) (pa : Nat), CanFall s → (s.x b).psn = none → s.vectorConflict pa 1 = false →
    (Translates s (s.x b).val 1 .load s1 pa → MemOk s → ∀ i, i = .dcclean b ∨ i = .dcflush b →
      ∃ t, exec i s = .next t ∧ Sent s t ∧ OnlyPc s.me t.me ∧ OnlyAccess s t ∧ OtherTilesSame s t
        ∧ (t.tile (myTileKey s)).old.find (pa / 64) = none
        ∧ (i = .dcflush b → (t.tile (myTileKey s)).dir.find (pa / 64) = none)
        ∧ HeldClear s t (myTileKey s) (fun a => a / 64 = pa / 64)
        ∧ (∀ a, (t.tile (myTileKey s)).mem.byte a = ((s.drainBytes (myTileKey s) (bytesAt (64 * (pa / 64)) 64)).tile (myTileKey s)).mem.byte a))
    ∧ (Translates s (s.x b).val 1 .store s1 pa → s.me.priv ≠ 0#2 → MemOk s → LinesOk s →
      ∃ t, exec (.dcinv b) s = .next t ∧ Sent s t ∧ OnlyPc s.me t.me ∧ OnlyAccess s t ∧ OtherTilesSame s t
        ∧ (t.tile (myTileKey s)).old.find (pa / 64) = none ∧ (t.tile (myTileKey s)).dir.find (pa / 64) = none
        ∧ (∀ j, j < 8 → (t.core (8 * myTileKey s + j)).buf =
            (s.core (8 * myTileKey s + j)).buf.map fun w => { w with bytes := w.bytes.filter fun x => x.1 / 64 ≠ pa / 64 })
        ∧ (∀ a, a / 64 ≠ pa / 64 → (t.tile (myTileKey s)).mem.byte a = (s.tile (myTileKey s)).mem.byte a)
        ∧ ((s.tile (myTileKey s)).old.find (pa / 64) = none → ∀ a, (t.tile (myTileKey s)).mem.byte a = (s.tile (myTileKey s)).mem.byte a)
        ∧ (∀ x, (s.tile (myTileKey s)).old.find (pa / 64) = some x →
            ∀ j, j < 64 → (t.tile (myTileKey s)).mem.byte (64 * (pa / 64) + j) = x.hbm.bytes.getD j 0#8))
    ∧ (Translates s (s.x b).val 1 .icinv s1 pa → MemOk s →
      ∃ t, exec (.icinv b) s = .next t ∧ Sent s t ∧ OnlyPc s.me t.me ∧ MemSame s t
        ∧ (t.core (myCoreKey s)).l1i.find (pa / 64) = none
        ∧ (∀ l, l ≠ pa / 64 → (t.core (myCoreKey s)).l1i.find l = (s.core (myCoreKey s)).l1i.find l)
        ∧ ∀ k, k ≠ myCoreKey s → t.core k = s.core k)
    ∧ (s.me.priv = 0#2 → s.me.intrap = false → ∃ t, exec (.dcinv b) s = .next t ∧ Trapped s t 0x02#8 (BitVec.ofNat 64 s.iw.toNat)))

/-- R97, R99: a scalar floating instruction reads the codes in the low bits of its sources, rounds the exact result once under its own rm, and writes the code to rd with zeros above, poisoned by the first poisoned source; FDIV and FSQRT wait out their cost; nothing else changes, and no flag register exists. R97: a floating compare of clean registers writes its condition on the order of the two values, which is false when either is a NaN, to the predicate; a poisoned source raises POISON with the first origin. R97: special operands. A NaN operand of a rounded operation gives the canonical NaN; FMIN and FMAX return the operand that is not a NaN; FTOI and FTOU of a NaN give 0. -/
def Obligations.ScalarFloat : Prop :=
  (∀ (s : State) (i : Instr) (rd : XReg) (srcs : List XReg) (v : Word) (slow : Bool), fpForm s i = some (rd, srcs, v, slow) → CanFall s →
    ∃ t, exec i s = .next t ∧ WroteX s t rd { val := v, psn := firstOrigin s srcs }
      ∧ t.cur = s.cur ∧ t.me.pc = s.me.pc + 4#64 ∧ t.me.pfx = none ∧ t.me.wait = (if slow then .divide else .no)
      ∧ OnlyRegs s.me t.me ∧ OnlyMe s t)
  ∧ (∀ (i : Instr) (pd : PReg) (a b : XReg) (fmt : BitVec 1) (f : Ordering → Bool), fpCompareForm i = some (pd, a, b, fmt, f) →
    ∀ s : State,
      (CanFall s → (s.x a).psn = none → (s.x b).psn = none →
        ∃ t, exec i s = .next t ∧ WrotePredOnly s t pd
          (!(fpVal s fmt a).isNan && !(fpVal s fmt b).isNan && f ((fpVal s fmt a).cmp (fpVal s fmt b))))
      ∧ ∀ o, s.me.intrap = false → origin2 (s.x a) (s.x b) = some o → ∃ t, exec i s = .next t ∧ Trapped s t 0x10#8 o)
  ∧ (∀ (s : State) (rd a b : XReg) (rm : BitVec 2) (fmt : BitVec 1), CanFall s → rd ≠ 0#5 →
    (fpIsNan fmt (fpCode s fmt a) ∨ fpIsNan fmt (fpCode s fmt b) →
      ∀ i ∈ [Instr.fadd rd a b rm fmt, .fsub rd a b rm fmt, .fmul rd a b rm fmt, .fdiv rd a b rm fmt, .fmac rd a b rm fmt],
        ∃ t, exec i s = .next t ∧ (t.x rd).val = fpNan fmt)
    ∧ (fpIsNan fmt (fpCode s fmt a) →
      (∃ t, exec (.fsqrt rd a rm fmt) s = .next t ∧ (t.x rd).val = fpNan fmt)
      ∧ (∃ t, exec (.ftoi rd a rm fmt) s = .next t ∧ (t.x rd).val = 0#64)
      ∧ (∃ t, exec (.ftou rd a rm fmt) s = .next t ∧ (t.x rd).val = 0#64)
      ∧ (¬ fpIsNan fmt (fpCode s fmt b) →
        ∀ i ∈ [Instr.fmin rd a b fmt, .fmax rd a b fmt, .fmin rd b a fmt, .fmax rd b a fmt],
          ∃ t, exec i s = .next t ∧ (t.x rd).val = BitVec.ofNat 64 (fpCode s fmt b))))

/-- R28, R119: CSTART in slot 0 with clean operands starts a FREE slot at a good entry and a level that exists and is not above the caller's: x0 to x31 zero, p1 to p7 false, every register of the context at its start value, first issue 16 i-cycles later; rd takes 0. Otherwise nothing starts and rd takes the status, the first that applies. Outside slot 0 it raises PRIV_INSN. R125: FORKL with a partition of at least two way pairs, drained, a good entry and a slot that FORKMASK allows splits the partition: the caller keeps the lower half, the new context owns the upper half and starts at the entry with the caller's privilege, and rd takes its slot. Otherwise rd takes minus the first status that applies, and nothing starts. -/
def Obligations.ContextsStart : Prop :=
  (∀ (rd rs1 rs2 : XReg) (s : State), CanFall s →
    let v := (s.x rs1).val
    let pc := (s.x rs2).val
    let n := v.toNat % 16
    let level := v.toNat / 256 % 4
    (s.cur % 16 = 0 → (s.x rs1).psn = none → (s.x rs2).psn = none →
      (n ≠ 0 → (s.ctx (slotAt s n)).slot = .free → (level = 0 ∨ (level = 1 ∧ s.me.priv ≠ 0#2)) → GoodTarget pc →
        ∃ t, exec (.cstart rd rs1 rs2) s = .next t
          ∧ t.ctx (slotAt s n) = { slot := .running, pc := pc, priv := BitVec.ofNat 2 level, ready := s.now + 16 }
          ∧ WroteX s t rd (Reg.clean 0#64) ∧ Fell s t ∧ OnlyRegs s.me t.me ∧ OnlyCoreOf s t ∧ OthersKept s t [slotAt s n] ∧ t.cores = s.cores)
      ∧ ∀ e, (e = 1 ∧ n = 0)
          ∨ (e = 2 ∧ n ≠ 0 ∧ (s.ctx (slotAt s n)).slot ≠ .free)
          ∨ (e = 3 ∧ n ≠ 0 ∧ (s.ctx (slotAt s n)).slot = .free ∧ (2 ≤ level ∨ (level = 1 ∧ s.me.priv = 0#2)))
          ∨ (e = 4 ∧ n ≠ 0 ∧ (s.ctx (slotAt s n)).slot = .free ∧ (level = 0 ∨ (level = 1 ∧ s.me.priv ≠ 0#2)) ∧ ¬ GoodTarget pc) →
        ∃ t, exec (.cstart rd rs1 rs2) s = .next t ∧ WroteOnly s t rd (Reg.clean (BitVec.ofNat 64 e)))
    ∧ (s.cur % 16 ≠ 0 → s.me.intrap = false → ∃ t, exec (.cstart rd rs1 rs2) s = .next t ∧ Trapped s t 0x02#8 (BitVec.ofNat 64 s.iw.toNat)))
  ∧ (∀ (rd rs1 : XReg) (s : State), CanFall s → s.me.slot = .running → (s.x rs1).psn = none → Drained s →
    let pc := (s.x rs1).val
    let allowed := fun i => 1 ≤ i ∧ i < 16 ∧ s.myCore.forkmask.getLsbD i = true ∧ (s.ctx (slotAt s i)).slot = .free
    (∀ p i, s.myPart = some p → p.pairs ≠ 1 → GoodTarget pc → allowed i → (∀ j, j < i → ¬ allowed j) →
      ∃ t, exec (.forkl rd rs1) s = .next t
        ∧ t.ctx (slotAt s i) = { slot := .running, pc := pc, priv := s.me.priv, ready := s.now + 16 }
        ∧ (∃ lo ∈ t.myCore.parts, lo.base = p.base ∧ lo.pairs = p.pairs / 2 ∧ lo.owner = p.owner ∧ lo.vtype = p.vtype ∧ lo.vl = 0)
        ∧ (∃ hi ∈ t.myCore.parts, hi.base = p.base + p.pairs / 2 ∧ hi.pairs = p.pairs / 2 ∧ hi.owner = some i ∧ hi.vtype = p.vtype
            ∧ hi.vl = 0 ∧ hi.vporig = 0#64)
        ∧ (∀ q ∈ s.myCore.parts, q.base ≠ p.base → q ∈ t.myCore.parts)
        ∧ WroteX s t rd (Reg.clean (BitVec.ofNat 64 i)) ∧ Fell s t ∧ OnlyRegs s.me t.me ∧ OnlyCoreOf s t ∧ OthersKept s t [slotAt s i])
    ∧ ∀ e, (e = 3 ∧ s.myPart = none)
        ∨ (e = 2 ∧ ∃ p, s.myPart = some p ∧ p.pairs = 1)
        ∨ (e = 4 ∧ ∃ p, s.myPart = some p ∧ p.pairs ≠ 1 ∧ ¬ GoodTarget pc)
        ∨ (e = 1 ∧ (∃ p, s.myPart = some p ∧ p.pairs ≠ 1) ∧ GoodTarget pc ∧ ∀ i, ¬ allowed i) →
      ∃ t, exec (.forkl rd rs1) s = .next t ∧ WroteOnly s t rd (statusReg e))

/-- R120: CSTOP in slot 0 of another slot at a boundary stops it with reason HALTED and writes 0; of slot 0 it writes 1, of a STOPPED slot 2 and of a FREE one 255, with no effect; of a slot that is not at a boundary it waits, with the stop asked for, and CSTOP_WAIT_END stops it there. R122, R123: CREAP in slot 0 of a STOPPED slot that holds no endpoint returns its stop record, with the exit value's poison after CSELF, and frees the slot; of a FREE slot it writes 255, of slot 0 254, of a RUNNING slot 0, or, with bit 8 set, it waits, and CREAP_WAIT_END completes it once the slot has stopped. R121: CSELF with its vector queue drained stops the context with reason EXITED and the value and poison of rs1 as its exit value; until then it waits. Stated for a slot other than 0, whose stop ends no process. R126: JOINL without a partition, or with all of the core's way pairs, writes minus 1. Drained, it takes over a buddy region that is one unowned partition of the same size, or one whose owner is STOPPED: the caller owns the merged partition, that owner's stream endpoints are given up (R208), and rd takes 32, or 16 plus that owner's slot. A JOINL that waits does the same at JOINL_TAKEOVER; it meets a JOINL that waits in the upper half, whose context then stops with reason JOINED; while a running owner has not joined, JOINL waits. -/
def Obligations.ContextsEnd : Prop :=
  ((∀ (rd rs1 : XReg) (s : State), CanFall s → s.cur % 16 = 0 → (s.x rs1).psn = none →
    let n := (s.x rs1).val.toNat % 16
    (n ≠ 0 → StopsAtOnce s (slotAt s n) → GoesOn s (slotAt s n) →
      ∃ t, exec (.cstop rd rs1) s = .next t ∧ (t.ctx (slotAt s n)).slot = .stopped .halted
        ∧ (t.ctx (slotAt s n)).x = (s.ctx (slotAt s n)).x ∧ (t.ctx (slotAt s n)).pc = (s.ctx (slotAt s n)).pc
        ∧ WroteX s t rd (Reg.clean 0#64) ∧ Fell s t ∧ OnlyRegs s.me t.me ∧ OthersKept s t [slotAt s n] ∧ MemSame s t)
    ∧ (∀ e, (e = 1 ∧ n = 0) ∨ (e = 2 ∧ n ≠ 0 ∧ ∃ why, (s.ctx (slotAt s n)).slot = .stopped why) ∨ (e = 255 ∧ n ≠ 0 ∧ (s.ctx (slotAt s n)).slot = .free) →
      ∃ t, exec (.cstop rd rs1) s = .next t ∧ WroteOnly s t rd (Reg.clean (BitVec.ofNat 64 e)))
    ∧ (n ≠ 0 → (s.ctx (slotAt s n)).slot = .running → (s.ctx (slotAt s n)).atBoundary = false → (s.ctx (slotAt s n)).chan = none →
      ∃ t, exec (.cstop rd rs1) s = .next t ∧ t.me = { s.me with wait := .cstop n, uword := s.iw }
        ∧ t.ctx (slotAt s n) = { s.ctx (slotAt s n) with stopReq := true } ∧ OthersKept s t [slotAt s n] ∧ MemSame s t))
  ∧ ∀ (n : Nat) (s : State), CanFall s → s.me.wait = .cstop n → 0 < n → n < 16 → s.cur % 16 = 0 →
      StopsAtOnce s (slotAt s n) → GoesOn s (slotAt s n) →
      ∃ t, exec .cstopWaitEnd s = .next t ∧ (t.ctx (slotAt s n)).slot = .stopped .halted
        ∧ WroteX s t (s.me.uword.extractLsb' 21 5) (Reg.clean 0#64) ∧ Fell s t ∧ OthersKept s t [slotAt s n] ∧ MemSame s t)
  ∧ (∀ (rd rs1 : XReg) (s : State), CanFall s → s.cur % 16 = 0 → (s.x rs1).psn = none →
    let n := (s.x rs1).val.toNat % 16
    let target := s.ctx (slotAt s n)
    let record := fun (why : StopReason) => stopRecord target why
    (∀ why, n ≠ 0 → target.slot = .stopped why → s.heldBy (slotAt s n) = [] →
      ∃ t, exec (.creap rd rs1) s = .next t ∧ t.ctx (slotAt s n) = Ctx.free ∧ WroteX s t rd (record why)
        ∧ Fell s t ∧ OnlyRegs s.me t.me ∧ OthersKept s t [slotAt s n] ∧ MemSame s t)
    ∧ (∀ e, (e = 254 ∧ n = 0) ∨ (e = 255 ∧ n ≠ 0 ∧ target.slot = .free)
          ∨ (e = 0 ∧ n ≠ 0 ∧ target.slot = .running ∧ (s.x rs1).val.getLsbD 8 = false) →
      ∃ t, exec (.creap rd rs1) s = .next t ∧ WroteOnly s t rd (Reg.clean (BitVec.ofNat 64 e)))
    ∧ (n ≠ 0 → target.slot = .running → (s.x rs1).val.getLsbD 8 = true →
      ∃ t, exec (.creap rd rs1) s = .next t ∧ t.cur = s.cur ∧ t.me = { s.me with wait := .creap n, uword := s.iw } ∧ OnlyMe s t)
    ∧ (∀ why, n ≠ 0 → s.me.wait = .creap n → target.slot = .stopped why → s.heldBy (slotAt s n) = [] →
      ∃ t, exec .creapWaitEnd s = .next t ∧ t.ctx (slotAt s n) = Ctx.free ∧ WroteX s t (s.me.uword.extractLsb' 21 5) (record why)
        ∧ Fell s t ∧ OthersKept s t [slotAt s n]))
  ∧ (∀ (rs1 : XReg) (s : State), s.me.chan = none →
    (s.cur % 16 ≠ 0 → Drained s → GoesOn s s.cur →
      ∃ t, exec (.cself rs1) s = .next t ∧ t.cur = s.cur ∧ t.me.slot = .stopped .exited ∧ t.me.exitv = s.x rs1 ∧ t.me.x = s.me.x
        ∧ t.me.pc = s.me.pc ∧ OthersKept s t [] ∧ MemSame s t)
    ∧ (∀ p, s.myPart = some p → p.pending ≠ [] →
      ∃ t, exec (.cself rs1) s = .next t ∧ t.cur = s.cur ∧ t.me = { s.me with wait := .drain, uword := s.iw } ∧ OnlyMe s t))
  ∧ (∀ (rd : XReg) (s : State), CanFall s →
    (s.myPart = none ∨ (∃ p, s.myPart = some p ∧ p.pairs = modePairs s.myCore.vmode) →
      ∃ t, exec (.joinl rd) s = .next t ∧ WroteOnly s t rd (statusReg 1))
    ∧ ∀ p q, s.myPart = some p → p.pairs ≠ modePairs s.myCore.vmode → s.myCore.buddy p = some q → p.pending = [] →
      (∀ n, (q.owner = none ∧ n = 32) ∨ (∃ o why, q.owner = some o ∧ (s.ctx (slotAt s o)).slot = .stopped why ∧ n = 16 + o) →
        (∃ t, exec (.joinl rd) s = .next t ∧ WroteX s t rd (Reg.clean (BitVec.ofNat 64 n)) ∧ Fell s t ∧ OnlyRegs s.me t.me ∧ TookOver s t q
          ∧ ∃ m ∈ t.myCore.parts, m.base = min p.base q.base ∧ m.pairs = 2 * p.pairs ∧ m.owner = some (s.cur % 16) ∧ m.vtype = p.vtype)
        ∧ (s.me.wait = .joinl →
          ∃ t, exec .joinlTakeover s = .next t ∧ WroteX s t (s.me.uword.extractLsb' 21 5) (Reg.clean (BitVec.ofNat 64 n)) ∧ Fell s t
            ∧ TookOver s t q ∧ ∃ m ∈ t.myCore.parts, m.base = min p.base q.base ∧ m.pairs = 2 * p.pairs ∧ m.owner = some (s.cur % 16)))
      ∧ (∀ o, q.owner = some o → 0 < o → o < 16 → o ≠ s.cur % 16 → (s.ctx (slotAt s o)).slot = .running → (s.ctx (slotAt s o)).wait = .joinl →
          (s.ctx (slotAt s o)).chan = none → GoesOn s (slotAt s o) → p.base < q.base →
        ∃ t, exec (.joinl rd) s = .next t ∧ WroteX s t rd (Reg.clean (BitVec.ofNat 64 o)) ∧ Fell s t
          ∧ (t.ctx (slotAt s o)).slot = .stopped .joined ∧ OthersKept s t [slotAt s o]
          ∧ ∃ m ∈ t.myCore.parts, m.base = p.base ∧ m.pairs = 2 * p.pairs ∧ m.owner = some (s.cur % 16) ∧ m.vtype = p.vtype)
      ∧ ∀ o, q.owner = some o → (s.ctx (slotAt s o)).slot = .running → (s.ctx (slotAt s o)).wait ≠ .joinl →
        ∃ t, exec (.joinl rd) s = .next t ∧ t.cur = s.cur ∧ t.me = { s.me with wait := .joinl, uword := s.iw } ∧ OnlyMe s t)

/-- R116, R117: MOVH writes a shared register of its core with the value and poison of rs1, to be seen by issues at least six i-cycles later, while earlier ones see what they saw; MOVFH reads what its own i-cycle sees; nothing else changes. -/
def Obligations.SharedRegisters : Prop :=
  ∀ s : State, CanFall s →
    (∀ (rd : XReg) (hs : Sys2Proof.HReg), ∃ t, exec (.movfh rd hs) s = .next t ∧ WroteOnly s t rd ((s.myCore.hreg hs).seen s.now))
    ∧ ∀ (hd : Sys2Proof.HReg) (rs1 : XReg), ((s.myCore.hreg hd).recent.map Prod.fst).Pairwise (· ≥ ·) →
      ∃ t, exec (.movh hd rs1) s = .next t ∧ Fell s t ∧ OnlyPc s.me t.me ∧ OthersKept s t [] ∧ OnlyCoreOf s t
        ∧ (∀ u, s.now + 6 ≤ u → (t.myCore.hreg hd).seen u = s.x rs1)
        ∧ (∀ u, s.now ≤ u → u < s.now + 6 → (t.myCore.hreg hd).seen u = (s.myCore.hreg hd).seen u)
        ∧ (∀ h, h ≠ hd → t.myCore.hreg h = s.myCore.hreg h) ∧ t.myCore.parts = s.myCore.parts

/-- R285, R286: BINIT of an own barrier with a legal scope and a target from 1 to 2^40 - 1, nothing pending and no waiter, initialises it and writes 0; otherwise it writes the status, OPERAND before REMOTE before BUSY, and changes no barrier. R285, R287: BEXP adds its operand to the bytes that an open barrier expects, and writes the phase; a sum of 2^40 or more is refused with OPERAND. R283, R286, R289: BARR with a count below 2^40, once the context's vector accesses have performed, and PHASEND once its queue has drained and no scatter element of its partition is unacknowledged, arrive at an open barrier whose phase is not the last: rd takes the phase, the count rises, saturating, and a phase that has all its arrivals and bytes completes. Another barrier status is written where a check fails. What the core reads of memory is unchanged. R285, R288: BTEST of an open barrier writes 1 when the awaited phase is complete and 0 otherwise; BWAIT then completes with 0, or waits, and BARRIER_WAIT_END completes it with 0 once the phase is complete, or with FAULTED when the barrier is faulted. -/
def Obligations.Barriers : Prop :=
  (∀ (rd rs1 rs2 : XReg) (s : State), CanFall s → (s.x rs1).psn = none → (s.x rs2).psn = none →
    let v := (s.x rs1).val
    let target := (s.x rs2).val.toNat
    let scope := v.toNat / 4096 % 4
    let legal := (scope = 1 ∨ scope = 2) ∧ 0 < target ∧ target < 2 ^ 40
    let busy := (barrierOf s v).pending ≠ 0 ∨ s.barrierWaiters (s.cur / 16) (v.toNat % 128) = true
    (legal → v.getLsbD 7 = false → ¬ busy →
      ∃ t, exec (.binit rd rs1 rs2) s = .next t ∧ OneBarrier s t v { init := true, scope := BitVec.ofNat 2 scope, target := target }
        ∧ WroteX s t rd (Reg.clean 0#64) ∧ Fell s t ∧ OnlyRegs s.me t.me ∧ OnlyBarriers s t)
    ∧ ∀ e, (e = 5 ∧ ¬ legal) ∨ (e = 2 ∧ legal ∧ v.getLsbD 7 = true) ∨ (e = 6 ∧ legal ∧ v.getLsbD 7 = false ∧ busy) →
      ∃ t, exec (.binit rd rs1 rs2) s = .next t ∧ WroteOnly s t rd (statusReg e))
  ∧ (∀ (rd rs1 rs2 : XReg) (s : State), CanFall s → (s.x rs1).psn = none → (s.x rs2).psn = none →
    let v := (s.x rs1).val
    let n := (s.x rs2).val.toNat
    let b := barrierOf s v
    (b.pending + n < 2 ^ 40 → BarrierOpen s v → b.phase ≠ 2 ^ 32 - 1 →
      ∃ t, exec (.bexp rd rs1 rs2) s = .next t ∧ OneBarrier s t v (afterEvent { b with pending := b.pending + n })
        ∧ WroteX s t rd (Reg.clean (BitVec.ofNat 64 b.phase)) ∧ Fell s t ∧ OnlyRegs s.me t.me ∧ OnlyBarriers s t)
    ∧ (∀ e, (e = 5 ∧ 2 ^ 40 ≤ b.pending + n) ∨ (b.pending + n < 2 ^ 40 ∧ (BarrierFails s v e ∨ (e = 3 ∧ BarrierOpen s v ∧ b.phase = 2 ^ 32 - 1))) →
      ∃ t, exec (.bexp rd rs1 rs2) s = .next t ∧ WroteOnly s t rd (statusReg e)))
  ∧ (∀ (rd rs1 rs2 : XReg) (s : State) (i : Instr), CanFall s → (s.x rs1).psn = none → (s.x rs2).psn = none →
    (i = .barr rd rs1 rs2 ∨ (i = .phasend rd rs1 rs2 ∧ Drained s ∧ s.scatters = 0)) →
    (s.x rs2).val.toNat < 2 ^ 40 → s.vectorAccessesDone s.cur = true →
    let v := (s.x rs1).val
    let n := (s.x rs2).val.toNat
    let b := barrierOf s v
    (BarrierOpen s v → b.phase ≠ 2 ^ 32 - 1 →
      ∃ t, exec i s = .next t ∧ OneBarrier s t v (afterEvent { b with count := min (b.count + n) (2 ^ 40 - 1) })
        ∧ WroteX s t rd (Reg.clean (BitVec.ofNat 64 b.phase)) ∧ Fell s t ∧ OnlyRegs s.me t.me
        ∧ (∀ d, d ≠ s.cur → t.ctx d = s.ctx d) ∧ OtherTilesSame s t ∧ t.kmem = s.kmem
        ∧ (MemOk s → ∀ a, seen t (s.cur / 16) a = seen s (s.cur / 16) a))
    ∧ (∀ e, BarrierFails s v e ∨ (e = 3 ∧ BarrierOpen s v ∧ b.phase = 2 ^ 32 - 1) →
      ∃ t, exec i s = .next t ∧ WroteOnly s t rd (statusReg e)))
  ∧ ((∀ (rd rs1 rs2 : XReg) (s : State), CanFall s → (s.x rs1).psn = none → (s.x rs2).psn = none → (s.x rs2).val.toNat < 2 ^ 32 - 1 →
    let v := (s.x rs1).val
    let w := (s.x rs2).val.toNat
    (BarrierOpen s v →
      (∃ t, exec (.btest rd rs1 rs2) s = .next t ∧ WroteOnly s t rd (Reg.clean (if w < (barrierOf s v).phase then 1#64 else 0#64)))
      ∧ (w < (barrierOf s v).phase → ∃ t, exec (.bwait rd rs1 rs2) s = .next t ∧ WroteOnly s t rd (Reg.clean 0#64))
      ∧ ((barrierOf s v).phase ≤ w →
        ∃ t, exec (.bwait rd rs1 rs2) s = .next t ∧ t.cur = s.cur ∧ t.me = { s.me with wait := .barrier, uword := s.iw } ∧ OnlyMe s t))
    ∧ ∀ e, BarrierFails s v e →
      (∃ t, exec (.btest rd rs1 rs2) s = .next t ∧ WroteOnly s t rd (statusReg e))
      ∧ ∃ t, exec (.bwait rd rs1 rs2) s = .next t ∧ WroteOnly s t rd (statusReg e))
  ∧ ∀ s : State, CanFall s → s.me.wait = .barrier →
    let v := (s.x (s.me.uword.extractLsb' 16 5)).val
    let w := (s.x (s.me.uword.extractLsb' 11 5)).val.toNat
    (w < (barrierOf s v).phase → ∃ t, exec .barrierWaitEnd s = .next t ∧ WroteOnly s t (s.me.uword.extractLsb' 21 5) (Reg.clean 0#64))
    ∧ ((barrierOf s v).phase ≤ w → (barrierOf s v).err = true →
      ∃ t, exec .barrierWaitEnd s = .next t ∧ WroteOnly s t (s.me.uword.extractLsb' 21 5) (statusReg 4)))

/-- R127, R141, R168: a vector instruction whose VTYPE, format class and fields are legal, whose stream sources are ready and whose queue has room places its entry, with what the scalar phase reads, and moves past itself; a conversion needs what R183 and R184 ask as well. R141, R170, R213: with no partition, or with reasons that hold, a vector instruction raises VCONFIG with its word and the lowest reason; a legal one whose stream source can get no vector raises STREAM; neither has another effect. An instruction that has waited since its stream check is not checked again (R213). -/
def Obligations.VectorEnqueue : Prop :=
  ((∀ (s : State) (i : Instr) (cls : Nat) (data srcs : List VReg) (op : VOp) (p : Part),
    vecForm s i = some (cls, data, srcs, op) → s.myPart = some p → VLegal p.vtype cls data → StreamsReady p srcs →
    p.pending.length < 32 → CanFall s → ∃ t, exec i s = .next t ∧ Queued s t p op srcs)
  ∧ ∀ (s : State) (k : Cvt) (d a : VReg) (tag : BitVec 5) (mk : VMask) (p : Part),
    s.myPart = some p → VLegal p.vtype 0 [d, a] → (∀ r ∈ cvtReasons s.myCore k d a tag p, r.2 = false) → StreamsReady p [a] →
    p.pending.length < 32 → (cvtReads k p.vtype tag = true → s.ctwrWaits p.bank = false) → CanFall s →
    ∃ t, exec (match k with
      | .fcvt => .vfcvt d a tag mk
      | .quant => .vquant d a tag mk
      | .dequant => .vdequant d a tag mk) s = .next t ∧ Queued s t p (.cvt k d a tag mk) [a])
  ∧ (∀ (s : State) (i : Instr) (cls : Nat) (data srcs : List VReg) (op : VOp), s.me.intrap = false → s.me.wait ≠ .resume →
    vecForm s i = some (cls, data, srcs, op) →
    (s.myPart = none → ∃ t, exec i s = .next t ∧ Trapped s t 0x0B#8 (reasonVal s 1))
    ∧ ∀ p, s.myPart = some p →
      (∀ r, VReason p.vtype cls data r → (∀ q, q < r → ¬ VReason p.vtype cls data q) →
        ∃ t, exec i s = .next t ∧ Trapped s t 0x0B#8 (reasonVal s r))
      ∧ (VLegal p.vtype cls data → 28#5 ∈ srcs → ¬ StreamReady p false →
        ∃ t, exec i s = .next t ∧ Trapped s t 0x14#8 (reasonVal s (if p.str0.bound then 3 else 1)))
      ∧ (VLegal p.vtype cls data → (28#5 ∈ srcs → StreamReady p false) → 29#5 ∈ srcs → ¬ StreamReady p true →
        ∃ t, exec i s = .next t ∧ Trapped s t 0x14#8 (reasonVal s (if p.str1.bound then 4 else 2))))

/-- R129, R186, R187, R190: MPOPC, MFIRST, VMVXS and VRED with X = 1 read the drained array into rd: a count, the first selected element or all ones, element 0 extended from SEW, and the value of the reduction; poison of what they read poisons rd. Which bits count as examined is read by inference (log entry 13). R158: over elements that no mask leaves out, the tree of VRED.SUM gives the sum of the strip modulo 2^SEW. -/
def Obligations.VectorToScalar : Prop :=
  (∀ (s : State) (p : Part), s.myPart = some p → ArrayStill s p → CanFall s →
    (∀ (rd : XReg) (m : MReg) (mk : VMask), VLegal p.vtype 0 [] →
      (∃ t, exec (.mpopc rd m mk) s = .next t ∧ Fell s t ∧ OnlyRegs s.me t.me ∧ OnlyPart s t p
        ∧ WroteX s t rd { val := BitVec.ofNat 64 (countBelow p.vl fun e => (maskAt s p m e).1 && onAt s p mk e)
                          psn := if bitsPoisoned s p m mk then some p.origin else none })
      ∧ ∃ t, exec (.mfirst rd m mk) s = .next t ∧ Fell s t ∧ OnlyRegs s.me t.me ∧ OnlyPart s t p
        ∧ WroteX s t rd { val := match (List.range p.vl).find? (fun e => (maskAt s p m e).1 && onAt s p mk e) with
                            | some e => BitVec.ofNat 64 e
                            | none => 0xFFFFFFFFFFFFFFFF#64
                          psn := if bitsPoisoned s p m mk then some p.origin else none })
    ∧ (∀ (rd : XReg) (a : VReg), VLegal p.vtype 0 [a] → StreamsFull p [a] → StreamsReady p [a] →
      ∃ t, exec (.vmvxs rd a) s = .next t ∧ Fell s t ∧ OnlyRegs s.me t.me ∧ OnlyPart s t (consumed [a] p)
        ∧ WroteX s t rd { val := widened (sewBits (vtSew p.vtype)) (s.myCore.elem p a.toNat (sewBits (vtSew p.vtype)) 0).1 (vtFmt p.vtype == 1)
                          psn := if (s.myCore.elem p a.toNat (sewBits (vtSew p.vtype)) 0).2 then some p.origin else none })
    ∧ ∀ (i : Instr) (cls : Nat) (rd : XReg) (a : VReg) (mk : VMask) (op : RedOp) (signed : Bool),
      redForm i = some (cls, rd, a, mk, op, signed) → VLegal p.vtype cls [a] → StreamsFull p [a] → StreamsReady p [a] →
      ∃ t, exec i s = .next t ∧ Fell s t ∧ OnlyRegs s.me t.me
        ∧ OnlyPart s t (consumed [a] { p with vflags := p.vflags ||| ((s.venv p).reduce op a mk).f })
        ∧ WroteX s t rd { val := BitVec.ofNat 64 (extend64 signed (sewBits (vtSew p.vtype)) ((s.venv p).reduce op a mk).v)
                          psn := if ((s.venv p).reduce op a mk).o.isSome then some p.origin else none })
  ∧ (∀ (v : VEnv) (a : VReg),
    (v.reduce .sum a none).v = ((List.range v.ent.vl).map fun e => (v.src a v.sew e).1).sum % 2 ^ v.sew)

/-- R193 to R196, R257, R273 to R280: a vector memory instruction whose active elements from VFIDX up all pass their checks places its entries with their addresses, sets VFIDX to 0 and moves past itself; VLDL from element 0 also empties the link set (R275). The entries hold its elements in order, each those of at most 64 distinct pages, and each as many as fit. Where element f fails, the elements before it are placed and the instruction waits for them to trap; with none before it, it traps at once with VFIDX at f. No byte of memory changes yet. -/
def Obligations.VectorMemoryEnqueue : Prop :=
  ∀ (s : State) (i : Instr) (v : VMem) (p : Part), vmemForm s i = some v → s.myPart = some p → VMemClear s v p →
    (∀ s1 els ops, VTranslates s v p s1 els → ops = v.entries true (piecesAt s1 v els) → p.pending.length + ops.length ≤ 32 → CanFall s →
      ∃ t, exec i s = .next t ∧ Fell s t ∧ OnlyPc s.me t.me
        ∧ t.myPart = some { p with
            vfidx := 0
            links := (if (∃ d b j w mk, i = .vldl d b j w mk) ∧ p.vfidx = 0 then [] else p.links)
            queue := p.queue ++ piecesOf s p (([false, true] : List Bool).filter fun w => v.srcs.contains (streamReg w)) ops false }
        ∧ (∀ y, y ≠ s.cur → t.ctx y = s.ctx y) ∧ (∀ j, j ≠ myCoreKey s → t.core j = s.core j)
        ∧ t.myCore = { s.myCore with tlb := t.myCore.tlb, parts := t.myCore.parts } ∧ MemSame s t)
    ∧ (∀ s1 els fault, VChecks s v p = (s1, els, fault) → (piecesAt s1 v els).flatten = els
        ∧ (∀ q ∈ piecesAt s1 v els, pageCount q ≤ 64)
        ∧ (v.isUnit = false → ∀ n a b q, (piecesAt s1 v els)[n]? = some a → (piecesAt s1 v els)[n + 1]? = some (b :: q) → 64 < pageCount (a ++ [b])))
    ∧ (∀ s1 f x, VChecks s v p = (s1, [], some (f, x)) → s.me.intrap = false →
        ∃ t, exec i s = .next t ∧ t.me.trapcause = x.cause.code ∧ t.me.trapval = x.va ∧ t.me.trappc = s.me.pc ∧ t.me.pc = s.me.trapvec
          ∧ t.me.intrap = true ∧ t.me.x = s.me.x ∧ t.myPart = some { p with vfidx := f } ∧ MemSame s t)
    ∧ (∀ s1 els ops f x, VChecks s v p = (s1, els, some (f, x)) → els ≠ [] → ops = v.entries false (piecesAt s1 v els) → p.pending.length + ops.length ≤ 32 →
        ∃ t uses, exec i s = .next t ∧ t.me.wait = .vfault x.cause.code x.va f ∧ t.me.pc = s.me.pc ∧ t.me.x = s.me.x
          ∧ t.myPart = some { p with
              links := (if (∃ d b j w mk, i = .vldl d b j w mk) ∧ p.vfidx = 0 then [] else p.links)
              queue := p.queue ++ piecesOf s p uses ops true } ∧ MemSame s t)

/-- R127, R128, R197: the entry at the head of a partition's queue, when what it waits for has happened, performs and leaves the queue; where elements of an entry are in flight, a data phase finishes the first such entry. The queues of other partitions and cores stay, and so do the registers and the pc of every context. R134, R168, R169, R179: a queued integer operation gives each active element below VL the value of its table, poisoned when a source, its mask bit or an accumulated destination is, and leaves every other element and register as it was; sources are read before any write. R192: VDENSE on a drained queue places min(list, VLMAX) offsets: it sets VL to that number, moves VSBASE on by what it consumed, holds the rest when the call is final or the strip sparse, and changes no array register but vd and the pair of held offsets. The list is what is held, then the offsets of the active elements. The order of its checks before POISON is the model's choice (log entry 77). -/
def Obligations.VectorQueueRuns : Prop :=
  (∀ (s : State) (k base : Nat) (p : Part), s.partAt k base = some p → s.clocked k = true →
    let Others := fun t : State => (∀ r ∈ (s.core k).parts, r.base ≠ base → ∃ r' ∈ (t.core k).parts, r'.base = r.base ∧ r'.queue = r.queue)
      ∧ (∀ j, j ≠ k → (t.core j).parts.map (fun r => (r.base, r.queue)) = (s.core j).parts.map (fun r => (r.base, r.queue)))
      ∧ (∀ c, (t.ctx c).x = (s.ctx c).x ∧ (t.ctx c).p = (s.ctx c).p ∧ (t.ctx c).pc = (s.ctx c).pc)
    (∀ e r, p.queue = e :: r → s.entryReady k p e = true → e.op.isMem = false →
      ∃ t q, exec (.vectorQueueEntry k base) s = .next t ∧ t.partAt k base = some q ∧ q.queue = r ∧ q.fly = p.fly ∧ Others t)
    ∧ (∀ e r, p.queue = e :: r → s.entryReady k p e = true → e.op.isMem = true → p.fly = [] →
      ∃ t q, exec (.vectorDataPhase k base) s = .next t ∧ t.partAt k base = some q ∧ q.queue = r ∧ q.fly = [] ∧ Others t)
    ∧ (∀ f r, p.fly = f :: r → f.op.accesses ≠ [] → (∀ g ∈ r, g.stamp ≠ f.stamp) →
      ∃ t q, exec (.vectorDataPhase k base) s = .next t ∧ t.partAt k base = some q ∧ q.queue = p.queue ∧ (∀ g ∈ q.fly, g.stamp ≠ f.stamp) ∧ Others t
        ∧ ((f.op.accesses.map fun a => a.e).Nodup → (∀ d m els z, f.op ≠ .storeCond d m els z) → q.fly = r)))
  ∧ (∀ (s : State) (k base : Nat) (p : Part) (e : VEntry) (op : VInt) (d a : VReg) (b : VSrc) (mk : VMask), StillHead s k base p e →
    e.op = .int op d a b mk → (vtSew e.vtype = 5 → d.toNat % 2 = 0) → e.vl ≤ roomAt p (sewBits (vtSew e.vtype)) →
    ∃ t, exec (.vectorQueueEntry k base) s = .next t ∧ HeadDone s t k base p
      ∧ (let w := sewBits (vtSew e.vtype)
         let c := s.core k
         ElementsAre s t k p d.toNat w (fun j => entryActive c p e mk j) fun j =>
           (elementOp op w (c.elem p a.toNat w j).1 (secondAt c p w b j).1 (c.elem p d.toNat w j).1,
            (c.elem p a.toNat w j).2 || (!oneSource op && (secondAt c p w b j).2)
             || (decide (op = .macc) && (c.elem p d.toNat w j).2) || maskPoison c p e mk j)))
  ∧ (∀ (s : State) (p : Part) (d a : VReg) (c : XReg) (x : BitVec 1) (mk : VMask), s.myPart = some p → ArrayStill s p → VLegal p.vtype 0 [d, a] →
    d.toNat % 2 = 0 → a.toNat % 2 = 0 → a ≠ 28#5 → d ≠ a → (vtSew p.vtype = 4 ∨ vtSew p.vtype = 5) → p.held ≤ p.vlmax →
    (x = 1#1 → (s.x c).psn = none) → CanFall s →
    let final := x = 1#1 ∧ (s.x c).val.getLsbD 0 = true
    let new := countBelow p.vl fun e => onAt s p mk e
    let sparse := p.densEn = true ∧ new * 65536 < p.thresh.toNat * p.vl
    let total := if final ∨ sparse then p.held + new else new
    let k := if final ∨ ¬ sparse then min total p.vlmax else if p.vlmax ≤ total then p.vlmax else 0
    let offs := (if final ∨ sparse then (List.range p.held).map fun e => (s.myCore.elem p a.toNat 32 e).1 else [])
      ++ ((List.range p.vl).filter fun e => onAt s p mk e).map fun e => (p.vsbase.toNat + e) % 2 ^ 64 * (sewBits (vtSew p.vtype) / 8) % 2 ^ 32
    ∃ t q, exec (.vdense d a c x mk) s = .next t ∧ Fell s t ∧ OnlyPc s.me t.me
      ∧ t.myPart = some q
      ∧ q = { p with held := (if final ∨ sparse then total - k else p.held)
                     vsbase := p.vsbase + BitVec.ofNat 64 p.vl - BitVec.ofNat 64 k, vl := k, vporig := q.vporig, iv := p.iv + 1 }
      ∧ (p.svc.Nodup → p.vlmax ≤ roomAt p 32 → p.vl ≤ roomAt p 32 →
          (∀ j, j < k → (t.myCore.elem p d.toNat 32 j).1 = offs.getD j 0)
          ∧ (final ∨ sparse → ∀ j, k + j < total → (t.myCore.elem p a.toNat 32 j).1 = offs.getD (k + j) 0))
      ∧ (∀ r l, r ∉ [d.toNat, d.toNat + 1, a.toNat, a.toNat + 1] → t.myCore.rows r l = s.myCore.rows r l)
      ∧ (∀ y, y ≠ s.cur → t.ctx y = s.ctx y) ∧ (∀ j, j ≠ myCoreKey s → t.core j = s.core j) ∧ MemSame s t)

/-- R180 to R182, R185, R187 to R191: the other queued operations on arrays without poisoned masks left out: each active element, or mask bit, below VL takes the value of its operation, poisoned when what it reads is, and every other element and register stays. VMERGE reads the mask as a choice; VSLIDEUP leaves the elements below its distance, and marks them when the distance is poisoned (log entry 83); VMVSX and VRED with X = 0 write element 0; VCOMPRESS and VEXPAND pack by rank. The flags of a floating operation join VFLAGS. R145, R149, R157, R183, R184: a queued conversion gives each active element its source's value under the target format and the rounding mode, each under the block scale code of its block where VTYPE names one: DEQUANT multiplies by it, QUANT chooses it for each block with an active element, writes it, and divides by it. -/
def Obligations.VectorOperations : Prop :=
  (∀ (s : State) (k base : Nat) (p : Part) (e : VEntry) (c : Core) (w : Nat), StillHead s k base p e → c = s.core k → w = sewBits (vtSew e.vtype) →
    e.vl ≤ roomAt p w →
    let Does := fun (d : VReg) (on : Nat → Prop) (f : Nat → Nat × Bool) => (w = 32 → d.toNat % 2 = 0) →
      ∃ t, exec (.vectorQueueEntry k base) s = .next t ∧ HeadDone s t k base p ∧ ElementsAre s t k p d.toNat w on fun j => ((f j).1 % 2 ^ w, (f j).2)
    let el := fun (r : VReg) (j : Nat) => c.elem p r.toNat w j
    (∀ d mk f, elementForm c p e = some (d, mk, f) → ((∃ op d' a b mk', e.op = .fp op d' a b mk') → VLegal e.vtype 2 []) →
      Does d (fun j => entryActive c p e mk j) f)
    ∧ (∀ m mk f, bitForm c p e = some (m, mk, f) → ((∃ op m' a b mk', e.op = .fcmp op m' a b mk') → VLegal e.vtype 2 []) →
      ∃ t, exec (.vectorQueueEntry k base) s = .next t ∧ HeadDone s t k base p ∧ BitsAre s t k p m.toNat w (fun j => entryActive c p e mk j) f)
    ∧ (∀ op d a b mk, e.op = .fp op d a b mk → VLegal e.vtype 2 [] →
      ∃ t q, exec (.vectorQueueEntry k base) s = .next t ∧ t.partAt k base = some q
        ∧ ∀ n, n < 6 → (q.vflags.getLsbD n = true ↔ p.vflags.getLsbD n = true ∨ ∃ j, entryActive c p e mk j ∧
            (VFp.apply op (entryFmt e) (rmodeOf (vtRm e.vtype)) (entryRnd e j) (el a j).1 (if oneSourceFp op then 0 else (secondAt c p w b j).1) (el d j).1).2.getLsbD n = true))
    ∧ (∀ d a b m, e.op = .merge d a b m → Does d (fun j => j < e.vl) fun j =>
        let bit := c.maskBit p m.toNat w j
        let x := if bit.1 = true ∨ bit.2 = true then secondAt c p w b j else el a j
        (x.1, x.2 || bit.2))
    ∧ (∀ d a n mk, e.op = .slideup d a n mk →
        (n.psn = none → Does d (fun j => entryActive c p e mk j ∧ n.val.toNat ≤ j) fun j =>
          ((el a (j - n.val.toNat)).1, (el a (j - n.val.toNat)).2 || maskPoison c p e mk j))
        ∧ (n.psn ≠ none → Does d (fun j => entryActive c p e mk j) fun j => (if n.val.toNat ≤ j then (el a (j - n.val.toNat)).1 else (el d j).1, true)))
    ∧ (∀ d v, e.op = .mvsx d v → Does d (fun j => j = 0 ∧ 0 < e.vl) fun _ => (v.val.toNat, v.psn.isSome))
    ∧ (∀ op d a mk, e.op = .red op d a mk → Does d (fun j => j = 0 ∧ 0 < e.vl) fun _ =>
        ((({ core := c, part := p, ent := e } : VEnv).reduce op a mk).v, (({ core := c, part := p, ent := e } : VEnv).reduce op a mk).o.isSome))
    ∧ (∀ d a m, e.op = .compress d a m → Does d (fun j => j < (packed c p e m).length) fun j =>
        match (packed c p e m)[j]? with
        | some i => ((el a i).1, (el a i).2 || poisonUpTo c p e m i)
        | none => (0, false))
    ∧ (∀ d a m, e.op = .expand d a m → Does d (fun j => j ∈ packed c p e m) fun j =>
        let i := ((packed c p e m).filter fun x => decide (x < j)).length
        ((el a i).1, (el a i).2 || poisonUpTo c p e m j)))
  ∧ (∀ (s : State) (k base : Nat) (p : Part) (e : VEntry) (c : Core) (kind : Cvt) (d a : VReg) (tag : BitVec 5) (mk : VMask) (fs ft : EltFmt) (w wd n : Nat),
    StillHead s k base p e → c = s.core k → e.op = .cvt kind d a tag mk → (fs, ft) = cvtPair kind e tag → w = fs.width (sewBits (vtSew e.vtype)) →
    wd = ft.width (sewBits (vtSew e.vtype)) → e.vl ≤ roomAt p wd → e.vl ≤ roomAt p (sewBits (vtSew e.vtype)) → wd ≤ 32 → (wd = 32 → d.toNat % 2 = 0) →
    n = blkSize e.vtype →
    let bank := c.bank e.bank
    let value := fun j => fs.value w bank (c.elem p a.toNat w j).1
    let code := fun j => c.elem p (vtSreg e.vtype) 8 (j / n)
    let result := fun j x => (ft.convert wd bank (rmodeOf (vtRm e.vtype)) x (entryRnd e j)).1 % 2 ^ wd
    let own := fun j => (c.elem p a.toNat w j).2 || maskPoison c p e mk j
    let members := fun b => (List.range e.vl).filter fun j => decide (j / n = b) && (match mk with
      | none => true
      | some m => (c.maskBit p m.toNat (sewBits (vtSew e.vtype)) j).1 || (c.maskBit p m.toNat (sewBits (vtSew e.vtype)) j).2)
    let chosen := fun b => chooseScale ft wd ((members b).map value)
    let Done := fun t : State => exec (.vectorQueueEntry k base) s = .next t ∧ HeadDone s t k base p
    ((vtBlk e.vtype = 0 ∨ kind = .fcvt) → ∃ t, Done t ∧ ElementsAre s t k p d.toNat wd (fun j => entryActive c p e mk j) fun j => (result j (value j), own j))
    ∧ (vtBlk e.vtype ≠ 0 → kind = .dequant → ∃ t, Done t ∧ ElementsAre s t k p d.toNat wd (fun j => entryActive c p e mk j) fun j =>
        (result j (underScale (value j) (code j).1 false), own j || (code j).2))
    ∧ (vtBlk e.vtype ≠ 0 → kind = .quant → vtSreg e.vtype ∉ [d.toNat, d.toNat + 1] → (e.vl + n - 1) / n ≤ roomAt p 8 → ∃ t, Done t
        ∧ (∀ j, entryActive c p e mk j → (t.core k).elem p d.toNat wd j =
            (result j (underScale (value j) (chosen (j / n)) true), own j || (members (j / n)).any own))
        ∧ (∀ j, j < roomAt p wd → ¬ entryActive c p e mk j → (t.core k).elem p d.toNat wd j = c.elem p d.toNat wd j)
        ∧ (∀ b, members b ≠ [] → (t.core k).elem p (vtSreg e.vtype) 8 b = (chosen b % 2 ^ 8, (members b).any own))
        ∧ (∀ b, b < roomAt p 8 → members b = [] → (t.core k).elem p (vtSreg e.vtype) 8 b = c.elem p (vtSreg e.vtype) 8 b)
        ∧ ∀ r l, r ≠ d.toNat → r ≠ vtSreg e.vtype → (wd = 32 → r ≠ d.toNat + 1) → (t.core k).rows r l = c.rows r l))

/-- R194, R197, R249, R264, R275 to R277, R280: the data phase of a vector memory entry, with no undiscovered error in its tile's HBM4. A load gives each element its bytes as the core reads memory, poisoned when one of them is, and VLDL links their lines; a store leaves its elements' values at their addresses, and their bits alone below 8 bits; VSTC stores, and clears the mask bits of, the elements whose line is still linked, and empties the link set; VAMO updates memory with what the register holds and changes no register. No other byte changes. -/
def Obligations.VectorMemoryPerforms : Prop :=
  ∀ (s : State) (k base : Nat) (p : Part) (e : VEntry) (w : Nat) (els : List EAddr), StillHead s k base p e → w = sewBits (vtSew e.vtype) → MemOk s →
    (s.tile (k / 8)).latent = [] → InOrder p w els →
    let Done := fun t : State => exec (.vectorDataPhase k base) s = .next t ∧ MemoryDone s t k base p
    let bytesAt := fun a : EAddr => (List.range (w / 8)).map fun i => seen s k (a.pa + i)
    let marked := fun a : EAddr => (List.range (w / 8)).any fun i => (s.coreMem k).marked (a.pa + i)
    let datum := fun (d : VReg) (a : EAddr) => ((s.core k).elem p d.toNat w a.e).1
    (∀ d, (e.op = .load d els ∨ e.op = .loadLinked d els) → (w = 32 → d.toNat % 2 = 0) → ∃ t, Done t ∧ MemSame s t
        ∧ ElementsAre s t k p d.toNat w (fun j => ∃ a ∈ els, a.e = j) (fun j => match els.find? (fun a => a.e == j) with
            | some a => if 8 ≤ w then (leNat (bytesAt a), marked a)
                else ((seen s k a.pa).toNat / 2 ^ (a.e * w % 8) % 2 ^ w, (s.coreMem k).marked a.pa)
            | none => (0, false))
        ∧ (e.op = .loadLinked d els → p.links = [] → els.length ≤ 2048 →
            ∀ q, t.partAt k base = some q → ∀ l b, (l, b) ∈ q.links ↔ b = true ∧ ∃ a ∈ els, a.pa / 64 = l))
    ∧ (∀ d, e.op = .store d els → 8 ≤ w → Apart w els → ∃ t, Done t ∧ (∀ r l, (t.core k).rows r l = (s.core k).rows r l)
        ∧ (∀ a ∈ els, ∀ i, i < w / 8 → seen t k (a.pa + i) = BitVec.ofNat 8 (datum d a / 2 ^ (8 * i)))
        ∧ ∀ x, (∀ a ∈ els, ¬ spanAt w a x) → seen t k x = seen s k x)
    ∧ (∀ d, e.op = .store d els → w < 8 → (els.Pairwise fun a b => a.pa ≠ b.pa ∨ a.e * w % 8 ≠ b.e * w % 8) → OthersHoldNothing s k →
        ∃ t, Done t ∧ (∀ r l, (t.core k).rows r l = (s.core k).rows r l)
        ∧ (∀ a ∈ els, ∀ i, i < w → (seen t k a.pa).getLsbD (a.e * w % 8 + i) = (datum d a).testBit i)
        ∧ ∀ x i, i < 8 → (∀ a ∈ els, a.pa = x → ¬ (a.e * w % 8 ≤ i ∧ i < a.e * w % 8 + w)) → (seen t k x).getLsbD i = (seen s k x).getLsbD i)
    ∧ (∀ d m, e.op = .storeCond d m els true → 8 ≤ w → Apart w els → ∃ t q, Done t ∧ t.partAt k base = some q ∧ q.links = []
        ∧ (∀ a ∈ els, (a.pa / 64, true) ∈ p.links → (∀ i, i < w / 8 → seen t k (a.pa + i) = BitVec.ofNat 8 (datum d a / 2 ^ (8 * i)))
            ∧ (t.core k).maskBit p m.toNat w a.e = (false, false))
        ∧ (∀ x, (∀ a ∈ els, (a.pa / 64, true) ∈ p.links → ¬ spanAt w a x) → seen t k x = seen s k x)
        ∧ (∀ j, j < roomAt p w → (∀ a ∈ els, a.e = j → (a.pa / 64, true) ∉ p.links) → (t.core k).maskBit p m.toNat w j = (s.core k).maskBit p m.toNat w j)
        ∧ ∀ r l, r ≠ 24 + m.toNat → (t.core k).rows r l = (s.core k).rows r l)
    ∧ (∀ op d, e.op = .amo op d els → 8 ≤ w → Apart w els → OthersHoldNothing s k → VLegal e.vtype (if op = .fadd then 2 else 1) [] →
        ∃ t, Done t ∧ (∀ r l, (t.core k).rows r l = (s.core k).rows r l)
        ∧ (∀ a ∈ els, ∀ i, i < w / 8 → (t.tile (k / 8)).mem.byte (a.pa + i) = BitVec.ofNat 8 (amoOp op e a.e (leNat (bytesAt a)) (datum d a) / 2 ^ (8 * i)))
        ∧ ∀ x, (∀ a ∈ els, ¬ spanAt w a x) → seen t k x = seen s k x)

/-- R163, R173, R174, R138: VSETVL closes the strip, moves VSBASE on by the old VL, and grants VL = min(count, lanes * slots) within VGRANT, limited by the high-water register where HWM is on, or waits for it; VSETT and a write of VTYPE close the strip and set VTYPE. That a wait begun in a slot ends in a later one is the model's timing (log entry 5). R175: VMODE by the owner of the whole array, drained, gives 2 for a mode above 3, 1 for the mode in force, and otherwise changes mode and gives 0 after 64 i-cycles and one more for each dirty line of the ways that enter array mode (R248): one partition over the way pairs of the mode, owned by the caller, with VL 0 and VTYPE 0, VSEED kept, and code tables, shared registers and segment errors kept. Memory and general registers but rd are unchanged. Costs are the earliest next issue (log entry 5). R155, R176, R177: CTWR writes one entry of one bank once no queued conversion reads the bank, waits until then, and changes no other entry; CTSEL sets the bank that the next VSETVL latches. -/
def Obligations.VectorConfiguration : Prop :=
  ((∀ (s : State) (r1 rd : XReg), s.me.intrap = false →
    (∀ o, (s.x r1).psn = some o → ∃ t, exec (.vsett rd r1) s = .next t ∧ Trapped s t 0x10#8 o)
    ∧ ((s.x r1).psn = none → s.myPart = none → ∃ t, exec (.vsett rd r1) s = .next t ∧ Trapped s t 0x0B#8 (BitVec.ofNat 64 (s.iw.toNat * 2 ^ 32 + 1))))
  ∧ ∀ (s : State) (p : Part), s.myPart = some p →
    (∀ (rd r1 : XReg), CanFall s → (s.x r1).psn = none → vtSew p.vtype ≤ 5 →
      let L := 128 * (s.myCore.service p.base p.pairs).length
      let S := slotsOf (sewBits (vtSew p.vtype))
      let lanes := max 128 (min L (128 * ((s.pwr (myTileKey s)).lanecap.toNat / 128)))
      let base := p.vsbase + BitVec.ofNat 64 p.vl
      let vl := min (s.x r1).val.toNat (min (L * S) (lanes * S))
      let h := (s.myCore.hreg p.hwmH).seen s.now
      let lim := h.val.toNat % 2 ^ 48 - base.toNat
      let Done := fun n => ∃ t q, exec (.vsetvl rd r1) s = .next t ∧ Fell s t ∧ OnlyRegs { s.me with depVec := t.me.depVec } t.me
        ∧ WroteX s t rd (Reg.clean (BitVec.ofNat 64 n))
        ∧ OnlyPart s t { p with vsbase := base, vlmax := L * S, vgrant := lanes, lanes := L, vl := n, vfidx := 0, bank := s.myCore.ctsel, queue := q, iv := p.iv + 1 }
        ∧ (L = p.lanes → q = p.queue)
      (p.hwmEn = false → Done vl)
      ∧ (p.hwmEn = true → h.psn = none → (0 < lim ∨ h.val.getLsbD 63 = true) → Done (min vl lim))
      ∧ (p.hwmEn = true → h.psn = none → ¬ (0 < lim ∨ h.val.getLsbD 63 = true) →
          ∃ t, exec (.vsetvl rd r1) s = .next t ∧ t = s.updMe fun c => { c with wait := .hwm, uword := s.iw }))
    ∧ (∀ (rd r1 : XReg), CanFall s → (s.x r1).psn = none →
      ∃ t, exec (.vsett rd r1) s = .next t ∧ WroteX s t rd (Reg.clean (BitVec.ofNat 64 p.vtype.toNat)) ∧ Fell s t ∧ OnlyRegs s.me t.me
        ∧ t.me.ready = s.now + 16
        ∧ OnlyPart s t { p with vsbase := p.vsbase + BitVec.ofNat 64 p.vl, vl := 0, vtype := BitVec.ofNat 18 (s.x r1).val.toNat, iv := p.iv + 1 })
    ∧ ∀ v : Word, ∃ t, exec (.vtypeWrite v) s = .next t ∧ t.me = s.me
        ∧ OnlyPart s t { p with vsbase := p.vsbase + BitVec.ofNat 64 p.vl, vl := 0, vtype := BitVec.ofNat 18 v.toNat, iv := p.iv + 1 })
  ∧ (∀ (s : State) (rd r1 : XReg), CanFall s → (s.x r1).psn = none → Drained s →
    (s.myCore.vmode = 0#2 → s.cur % 16 = 0) →
    (s.myCore.vmode ≠ 0#2 → ∃ p, s.myPart = some p ∧ p.pairs = 2 ^ s.myCore.vmode.toNat) →
    let m := (s.x r1).val
    (3 < m.toNat → ∃ t, exec (.vmode rd r1) s = .next t ∧ WroteOnly s t rd (Reg.clean 2#64))
    ∧ (m.toNat = s.myCore.vmode.toNat → (m ≠ 0#64 → s.myTile.top = false) → ∃ t, exec (.vmode rd r1) s = .next t ∧ WroteOnly s t rd (Reg.clean 1#64))
    ∧ (m.toNat ≤ 3 → m.toNat ≠ s.myCore.vmode.toNat → (m ≠ 0#64 → s.myTile.top = false) →
      ∃ t, exec (.vmode rd r1) s = .next t ∧ WroteX s t rd (Reg.clean 0#64) ∧ t.me.pc = s.me.pc + 4#64 ∧ t.me.ready = s.now + 64 + s.myTile.dirtyWays (myCoreKey s) (cacheWays (BitVec.ofNat 2 m.toNat))
        ∧ t.myCore.vmode.toNat = m.toNat ∧ t.myCore.ctA = s.myCore.ctA ∧ t.myCore.ctB = s.myCore.ctB ∧ t.myCore.h = s.myCore.h
        ∧ t.myCore.segErr = s.myCore.segErr ∧ t.myCore.retired = s.myCore.retired
        ∧ (m = 0#64 → t.myCore.parts = [])
        ∧ (m ≠ 0#64 → ∃ q, t.myCore.parts = [q] ∧ t.myPart = some q ∧ q.base = 0 ∧ q.pairs = 2 ^ m.toNat ∧ q.vl = 0 ∧ q.vtype = 0#18
            ∧ q.queue = [] ∧ q.fly = [] ∧ q.vseed = (match s.myPart with | some p => p.vseed | none => s.myCore.vseed))
        ∧ MemSame s t))
  ∧ (∀ (s : State), CanFall s →
    (∀ (a b : XReg), (s.x a).psn = none → (s.x b).psn = none →
      (s.myCore.bankBusy (BitVec.ofNat 1 ((s.x a).val.toNat / 256)) = false →
        ∃ t, exec (.ctwr a b) s = .next t ∧ Fell s t ∧ OnlyPc s.me t.me
          ∧ t.myCore = { s.myCore with ctA := t.myCore.ctA, ctB := t.myCore.ctB }
          ∧ (∀ n c, (t.myCore.bank n).get c 0#19 =
              if n.toNat = (s.x a).val.toNat / 256 % 2 ∧ c = (s.x a).val.toNat % 256 then BitVec.ofNat 19 (s.x b).val.toNat else (s.myCore.bank n).get c 0#19)
          ∧ (∀ y, y ≠ s.cur → t.ctx y = s.ctx y) ∧ (∀ j, j ≠ myCoreKey s → t.core j = s.core j) ∧ MemSame s t)
      ∧ (s.myCore.bankBusy (BitVec.ofNat 1 ((s.x a).val.toNat / 256)) = true →
        ∃ t, exec (.ctwr a b) s = .next t ∧ t = s.updMe fun c => { c with wait := .ctwr (BitVec.ofNat 1 ((s.x a).val.toNat / 256)), uword := s.iw }))
    ∧ ∀ a : XReg, (s.x a).psn = none →
      ∃ t, exec (.ctsel a) s = .next t ∧ Fell s t ∧ OnlyPc s.me t.me
        ∧ t.myCore = { s.myCore with ctsel := BitVec.ofNat 1 (s.x a).val.toNat }
        ∧ (∀ y, y ≠ s.cur → t.ctx y = s.ctx y) ∧ (∀ j, j ≠ myCoreKey s → t.core j = s.core j) ∧ MemSame s t)

/-- R205 to R208, R218, R241: CHBIND gives 1 for an endpoint that is not connected, 2 for a sink and for one that another context holds, 3 for a CLOSED one, 4 for a stream that the partition cannot take, 5 for one already held, and otherwise 0 and binds it, but in a launch on several modules it may give 2 for an UNBOUND one, since no message tells whether another module's context holds it (log entry 33, the model's choice); CHUNBIND and CHCLOSE give 1 unless the caller holds the endpoint, and else 0 and release or close it, closing its far end; a transfer on an endpoint that the caller may not name raises CHANNEL with the reason. A stream bound anew has its fields cleared (log entry 17). -/
def Obligations.ChannelHolding : Prop :=
  ∀ (s : State) (rd r1 : XReg) (l : Word), s.procOf s.cur = some l → CanFall s → (s.x r1).psn = none →
    let v := (s.x r1).val
    let e := epNum v
    (s.ep l e = none →
      (∃ t, exec (.chbind rd r1) s = .next t ∧ WroteOnly { s with fresh := t.fresh } t rd (Reg.clean 1#64))
      ∧ (∃ t, exec (.chunbind rd r1) s = .next t ∧ WroteOnly s t rd (Reg.clean 1#64))
      ∧ ∃ t, exec (.chclose rd r1) s = .next t ∧ WroteOnly s t rd (Reg.clean 1#64))
    ∧ (∀ p, s.ep l e = some p →
      (p.sink.isSome = true ∨ (∃ c, p.st.holder = some c ∧ c ≠ s.cur) →
          ∃ t, exec (.chbind rd r1) s = .next t ∧ WroteOnly { s with fresh := t.fresh } t rd (Reg.clean 2#64))
      ∧ (p.sink = none → p.st = .closed none ∨ p.st = .closed (some s.cur) →
          ∃ t, exec (.chbind rd r1) s = .next t ∧ WroteOnly { s with fresh := t.fresh } t rd (Reg.clean 3#64))
      ∧ (p.sink = none → p.st = .unbound ∨ p.st = .bound s.cur ∨ (∃ w, p.st = .stream s.cur w) → v.getLsbD 16 = true →
          (∀ q, s.myPart = some q → (q.stream (v.getLsbD 17)).bound = true) →
          ∃ t n, exec (.chbind rd r1) s = .next t ∧ WroteOnly { s with fresh := t.fresh } t rd (Reg.clean n)
            ∧ (n = 4#64 ∨ (n = 2#64 ∧ p.st = .unbound ∧ s.spread = true)))
      ∧ (p.sink = none → p.st = .bound s.cur ∨ (∃ w, p.st = .stream s.cur w) →
          (v.getLsbD 16 = true → ∃ q, s.myPart = some q ∧ (q.stream (v.getLsbD 17)).bound = false) →
          ∃ t, exec (.chbind rd r1) s = .next t ∧ WroteOnly { s with fresh := t.fresh } t rd (Reg.clean 5#64))
      ∧ (p.sink = none → p.st = .unbound → v.getLsbD 16 = false →
          ∃ t, exec (.chbind rd r1) s = .next t ∧ (
            (WroteX s t rd (Reg.clean 0#64) ∧ Fell s t ∧ OnlyRegs s.me t.me
              ∧ t.ep l e = some { p with st := .bound s.cur } ∧ OtherEndpoints s t l e ∧ (∀ y, y ≠ s.cur → t.ctx y = s.ctx y) ∧ MemSame s t)
            ∨ (s.spread = true ∧ WroteOnly { s with fresh := t.fresh } t rd (Reg.clean 2#64))))
      ∧ (∀ q, p.sink = none → p.st = .unbound → v.getLsbD 16 = true → s.myPart = some q → (q.stream (v.getLsbD 17)).bound = false →
          ∃ t, exec (.chbind rd r1) s = .next t ∧ (
            (WroteX s t rd (Reg.clean 0#64) ∧ Fell s t ∧ OnlyRegs s.me t.me
              ∧ t.ep l e = some { p with st := .stream s.cur (v.getLsbD 17) } ∧ OtherEndpoints s t l e
              ∧ t.myPart = some (q.updStream (v.getLsbD 17) fun x => { x with bound := true, closed := false, ep := BitVec.ofNat 10 e })
              ∧ (∀ y, y ≠ s.cur → t.ctx y = s.ctx y) ∧ MemSame s t)
            ∨ (s.spread = true ∧ WroteOnly { s with fresh := t.fresh } t rd (Reg.clean 2#64))))
      ∧ (p.st.holder ≠ some s.cur →
          (∃ t, exec (.chunbind rd r1) s = .next t ∧ WroteOnly s t rd (Reg.clean 1#64))
          ∧ ∃ t, exec (.chclose rd r1) s = .next t ∧ WroteOnly s t rd (Reg.clean 1#64))
      ∧ (p.st.holder = some s.cur → (∀ x, (s.cur, x) ∈ s.ctxs → x.chan = none) →
          (∃ t, exec (.chunbind rd r1) s = .next t ∧ WroteX s t rd (Reg.clean 0#64) ∧ Fell s t ∧ OnlyRegs s.me t.me
            ∧ t.ep l e = some (givenUp p) ∧ OtherEndpoints s t l e ∧ (∀ y, y ≠ s.cur → t.ctx y = s.ctx y) ∧ MemSame s t)
          ∧ ∃ t, exec (.chclose rd r1) s = .next t ∧ WroteX s t rd (Reg.clean 0#64) ∧ Fell s t ∧ t.ep l e = some { p with st := .closed none }
            ∧ (∀ f, (p.ptag, p.pep) ≠ (l, e) → s.remote p.ptag = false → (∀ h, p.st ≠ .closed h) → s.ep p.ptag p.pep = some f →
                t.ep p.ptag p.pep = some (farClosed f))
            ∧ MemSame s t))
    ∧ (s.me.intrap = false → ∀ n, EpReason s e n → ∀ (rt : XReg) (w : VReg) (r2 : XReg) (i : Instr),
        (i = .chsend rd r1 r2 ∨ i = .chrecv rd rt r1 ∨ i = .chsendv rd r1 w ∨ i = .chrecvv w rt r1) →
        ∃ t, exec i s = .next t ∧ Trapped s t 0x11#8 (BitVec.ofNat 64 (s.iw.toNat * 2 ^ 32 + n * 2 ^ 24 + 255 * 65536 + e)))

/-- R209, R211, R212: a send and a receive of the same kind that meet on connected endpoints complete in both contexts in one event, with status 0 and the word in the receiver's register, or with the sender's register lane by lane in the receiver's and SHORT in both when their lane counts differ. R214, R215: SELECT over one guard: with its predicate false it completes with minus 1 and status 0; a true guard that receives a word, and whose far end waits in CHSEND, completes with its index, the word in its register, status 0 and SELPOS at the index. R333, R334: a block send and a block receive that meet within the module with the same TOTAL and START complete with status 0 in both contexts, and each becomes a job of its own core that carries the number of their rendezvous; with different ones both complete with status 3 and no job. When the identifiers of the other core have run out since it offered, both complete with status 5 and no job (log entry 75, the model's choice). -/
def Obligations.Rendezvous : Prop :=
  (∀ (s : State) (r1 : XReg) (p : Endpoint) (b : Nat), MemOk s → CanFall s → (s.x r1).psn = none → Connected s (epNum (s.x r1).val) p b →
    (∀ (rd r2 bd bt : XReg), WaitsIn s b (.recv bd bt) { ep := p.pep, send := false, kind := .word, reg := bd } → (s.x r2).psn = none →
      s.vectorAccessesDone s.cur = true →
      ∃ t, exec (.chsend rd r1 r2) s = .next t
        ∧ ChanDone s t s.cur (fun r => if r = rd then Reg.clean 0#64 else s.x r)
        ∧ ChanDone s t b (fun r => if r = bd then Reg.clean (s.x r2).val else if r = bt then Reg.clean 0#64 else (s.ctx b).getX r)
        ∧ (∀ y, y ≠ s.cur → y ≠ b → t.ctx y = s.ctx y) ∧ (∀ a, seen t (myCoreKey s) a = seen s (myCoreKey s) a))
    ∧ (∀ (rd rt bd : XReg) (o : Offer), WaitsIn s b (.send bd) o → o.ep = p.pep → o.send = true → o.kind = .word →
      ∃ t, exec (.chrecv rd rt r1) s = .next t
        ∧ ChanDone s t s.cur (fun r => if r = rd then Reg.clean o.data else if r = rt then Reg.clean 0#64 else s.x r)
        ∧ ChanDone s t b (fun r => if r = bd then Reg.clean 0#64 else (s.ctx b).getX r)
        ∧ (∀ y, y ≠ s.cur → y ≠ b → t.ctx y = s.ctx y) ∧ MemSame s t)
    ∧ ∀ (q qb : Part), s.myPart = some q → ArrayStill s q → (s.core (b / 16)).partOf (b % 16) = some qb →
      (∀ (rd : XReg) (w : VReg) (bt : XReg) (o : Offer), WaitsIn s b (.recvv bt) o → o.ep = p.pep → o.send = false → o.kind = .vector → qb.svc.Nodup →
        (∀ x, x < 128 * q.svc.length → (s.myCore.rows w.toNat (q.phys x)).psn = 0#16) →
        ∃ t, exec (.chsendv rd r1 w) s = .next t
          ∧ ChanDone s t s.cur (fun r => if r = rd then shortReg q.svc.length qb.svc.length else s.x r)
          ∧ ChanDone s t b (fun r => if r = bt then shortReg q.svc.length qb.svc.length else (s.ctx b).getX r)
          ∧ RowsMoved s t s.cur b q qb w o.reg
          ∧ (∀ y, y ≠ s.cur → y ≠ b → t.ctx y = s.ctx y) ∧ (∀ a, seen t (myCoreKey s) a = seen s (myCoreKey s) a))
      ∧ ∀ (v : VReg) (rt bd : XReg) (o : Offer), WaitsIn s b (.sendv bd) o → o.ep = p.pep → o.send = true → o.kind = .vector → q.svc.Nodup →
        ∃ t, exec (.chrecvv v rt r1) s = .next t
          ∧ ChanDone s t s.cur (fun r => if r = rt then shortReg q.svc.length qb.svc.length else s.x r)
          ∧ ChanDone s t b (fun r => if r = bd then shortReg q.svc.length qb.svc.length else (s.ctx b).getX r)
          ∧ RowsMoved s t b s.cur qb q o.reg v
          ∧ (∀ y, y ≠ s.cur → y ≠ b → t.ctx y = s.ctx y) ∧ MemSame s t)
  ∧ (∀ (s s1 s2 : State) (rd rt r1 : XReg) (w : Nat), CanFall s → (s.x r1).psn = none → ReadsWord s (s.x r1).val 1 s1 →
    ReadsWord s1 ((s.x r1).val + 4#64) w s2 → w / 2 ^ 26 = 0 → w / 2 ^ 10 % 32 = 0 →
    (s.p (BitVec.ofNat 3 (w / 2 ^ 20)) = decide (w / 2 ^ 23 % 2 = 1) →
      ∃ t, exec (.select rd rt r1) s = .next t ∧ Fell s t ∧ OnlyRegs s.me t.me
        ∧ (∀ r, t.x r = if r = 0#5 then Reg.zero else if r = rd then Reg.clean (-1#64) else if r = rt then Reg.clean 0#64 else s.x r)
        ∧ (∀ y, y ≠ s.cur → t.ctx y = s.ctx y) ∧ MemSame s t)
    ∧ (s.p (BitVec.ofNat 3 (w / 2 ^ 20)) ≠ decide (w / 2 ^ 23 % 2 = 1) → w / 2 ^ 24 % 4 = 0 →
      ∀ (p : Endpoint) (b : Nat) (bd : XReg) (o : Offer), Connected s (w % 1024) p b → WaitsIn s b (.send bd) o → o.ep = p.pep → o.send = true →
        o.kind = .word →
        ∃ t, exec (.select rd rt r1) s = .next t
          ∧ ChanDone s t s.cur (fun r => if r = rd then Reg.clean 0#64 else if r = BitVec.ofNat 5 (w / 2 ^ 15) then Reg.clean o.data
              else if r = rt then Reg.clean 0#64 else s.x r)
          ∧ t.me.selpos = 0#4 ∧ ChanDone s t b (fun r => if r = bd then Reg.clean 0#64 else (s.ctx b).getX r) ∧ MemSame s t))
  ∧ (∀ (s s1 : State) (rd r1 r2 : XReg) (p : Endpoint) (b : Nat) (bs : List Byte) (send : Bool) (bd : XReg) (d : Desc) (priv : BitVec 2) (o : Offer),
    CanFall s → MemOk s → (s.x r1).psn = none → (s.x r2).psn = none → ReadsDesc s (s.x r2).val bs s1 → Connected s (epNum (s.x r1).val) p b →
    s1.descStatus { src := send, dst := !send, fill := false, bar := !send } bs = none → PorterRoom s (descOf (myCoreKey s) bs) →
    s.vectorAccessesDone s.cur = true → s.myCore.pjob + 2 < 2 ^ 64 →
    WaitsIn s b (.block bd (!send) d priv) o → o.ep = p.pep → o.send = (!send) → o.kind = .block →
    let mine := descOf (myCoreKey s) bs
    let i : Instr := if send then .chsendb rd r1 r2 else .chrecvb rd r1 r2
    ((s.core (coreOf b)).pjob + 2 < 2 ^ 64 → mine.total = d.total → mine.start = d.start →
      ∃ t n ja jb, exec i s = .next t
        ∧ ChanDone s t s.cur (fun r => if r = rd then Reg.clean 0#64 else s.x r) ∧ ChanDone s t b (fun r => if r = bd then Reg.clean 0#64 else (s.ctx b).getX r)
        ∧ ja ∈ (t.tile (tileOf s.cur)).eng.pq ∧ ja.core = myCoreKey s ∧ ja.ctx = s.cur ∧ ja.desc = mine ∧ ja.pos = mine.start ∧ ja.priv = s.me.priv
        ∧ jb ∈ (t.tile (tileOf b)).eng.pq ∧ jb.core = coreOf b ∧ jb.ctx = b ∧ jb.desc = d ∧ jb.pos = d.start ∧ jb.priv = priv
        ∧ (coreOf b ≠ myCoreKey s → ja.id = s.myCore.pjob + 1 ∧ jb.id = (s.core (coreOf b)).pjob + 1)
        ∧ t.me.pjoblast = BitVec.ofNat 64 ja.id ∧ (t.ctx b).pjoblast = BitVec.ofNat 64 jb.id
        ∧ ja.kind = (if send then .send (.here n) else .recv (.here n)) ∧ jb.kind = (if send then .recv (.here n) else .send (.here n))
        ∧ (∀ k a, (t.tile k).mem.byte a = ((if send then s.drainCore (myCoreKey s) else s).tile k).mem.byte a))
    ∧ ((s.core (coreOf b)).pjob + 2 < 2 ^ 64 → ¬ (mine.total = d.total ∧ mine.start = d.start) →
      ∃ t, exec i s = .next t
        ∧ ChanDone s t s.cur (fun r => if r = rd then Reg.clean 3#64 else s.x r) ∧ ChanDone s t b (fun r => if r = bd then Reg.clean 3#64 else (s.ctx b).getX r)
        ∧ ∀ k, (t.tile k).eng.pq = (s.tile k).eng.pq)
    ∧ (2 ^ 64 ≤ (s.core (coreOf b)).pjob + 1 →
      ∃ t, exec i s = .next t
        ∧ ChanDone s t s.cur (fun r => if r = rd then Reg.clean 5#64 else s.x r) ∧ ChanDone s t b (fun r => if r = bd then Reg.clean 5#64 else (s.ctx b).getX r)
        ∧ ∀ k, (t.tile k).eng.pq = (s.tile k).eng.pq))

/-- R298 to R311, R318: on an attached core whose queue has room, MDETACH, MRELEASE, MLDA, MLDB, MZERO, MTLD, MTST, MOP and MPRUNE whose checks pass each enqueue their job with the core's next identifier, give the slot its new claim or contents at once, and change no register and no byte of memory. R302, R303, R306, R310, R317: MATTACH of 16 to 128 rows in sixteens enqueues its job and waits; JOB_WAIT_END then gives its identifier, and lets MWAIT, PWAIT and CLWAIT perform in this i-cycle; MCLAIM claims a free slot or gives minus 1, minus 2 or minus 5; MHDR reads a slot's header or latency; MWAIT gives 0 once its job has performed; MTMV and MVTM enter the vector queue. -/
def Obligations.MatrixInstructions : Prop :=
  (∀ (s : State), MatrixReady s → CanFall s →
    (∃ t, exec .mdetach s = .next t ∧ MatrixQueued s t .detach 0 ∧ t.myCore.mstate = .detaching ∧ SlotsSame s t)
    ∧ (∀ os : Slot, Mine s os.toNat → ∃ t, exec (.mrelease os) s = .next t ∧ MatrixQueued s t (.release os.toNat) 0
        ∧ (myEngines t).slot os.toNat = { (myEngines s).slot os.toNat with claim := .releasing (myCoreKey s) } ∧ OtherSlots s t os.toNat)
    ∧ (∀ n : BitVec 2, ∃ t, exec (.mzero n) s = .next t ∧ MatrixQueued s t (.zero n.toNat s.myCore.mrows) 0 ∧ SlotsSame s t)
    ∧ (∀ (os : Slot) (b r : XReg) (fmt : BitVec 2) (s1 : State) (w : Walked), Mine s os.toNat → (s.x b).psn = none → (s.x r).psn = none →
        (s.x b).val.toNat % 64 = 0 → (s.x r).val.toNat % 64 = 0 →
        (s.walkParts .load (denseParts true fmt (s.x b).val (s.x r).val) {} = (s1, w) → w.fail = none →
          ∃ t, exec (.mlda os b r 0#1 fmt) s = .next t ∧ MatrixQueued s t (.load os.toNat true fmt none (s.x b).val (s.x r).val w.fr) 0
            ∧ (myEngines t).slot os.toNat = { (myEngines s).slot os.toNat with contents := .denseA fmt } ∧ OtherSlots s t os.toNat)
        ∧ (s.walkParts .load (denseParts false fmt (s.x b).val (s.x r).val) {} = (s1, w) → w.fail = none →
          ∃ t, exec (.mldb os b r fmt) s = .next t ∧ MatrixQueued s t (.load os.toNat false fmt none (s.x b).val (s.x r).val w.fr) 0
            ∧ (myEngines t).slot os.toNat = { (myEngines s).slot os.toNat with contents := .denseB fmt } ∧ OtherSlots s t os.toNat))
    ∧ (∀ (os : Slot) (b r : XReg) (fmt : BitVec 2) (h : Word) (idx : List (List Nat)) (fr : Frames), Mine s os.toNat →
        (s.x b).psn = none → (s.x r).psn = none → (s.x b).val.toNat % 64 = 0 → (s.x r).val.toNat % 64 = 0 →
        SparseAccepted s fmt (s.x b).val (s.x r).val h idx fr →
        ∃ t, exec (.mlda os b r 1#1 fmt) s = .next t ∧ MatrixQueued s t (.load os.toNat true fmt (some (h, idx)) (s.x b).val (s.x r).val fr) 0
          ∧ (myEngines t).slot os.toNat = { (myEngines s).slot os.toNat with contents := .sparseA h } ∧ OtherSlots s t os.toNat)
    ∧ (∀ (n : BitVec 2) (b r : XReg) (s1 : State) (w : Walked) (half : BitVec 1), (s.x b).psn = none → (s.x r).psn = none →
        (s.x b).val.toNat % 64 = 0 → (s.x r).val.toNat % 64 = 0 →
        (s.walkPart .load (rowPieces (s.x b).val (s.x r).val s.myCore.mrows 512) {} = (s1, w) → w.fail = none →
          ∃ t, exec (.mtld n b r) s = .next t ∧ MatrixQueued s t (.tld n.toNat s.myCore.mrows (s.x b).val (s.x r).val w.fr) 0 ∧ SlotsSame s t)
        ∧ (s.walkPart .store (rowPieces (s.x b).val (s.x r).val s.myCore.mrows (if half = 1#1 then 256 else 512)) {} = (s1, w) → w.fail = none →
          ∃ t, exec (.mtst n b r half) s = .next t
            ∧ MatrixQueued s t (.tst n.toNat s.myCore.mrows (s.x b).val (s.x r).val (decide (half = 1#1)) w.fr) 0 ∧ SlotsSame s t))
    ∧ (∀ (n : BitVec 2) (a b : Slot) (r : XReg) (z : BitVec 1), (s.x r).psn = none → Mine s a.toNat →
        let rows := (s.x r).val.toNat % 256
        let cols := (s.x r).val.toNat / 256 % 256
        let kl := (s.x r).val.toNat / 65536 % 4096
        rows ≤ s.myCore.mrows → cols ≤ 128 →
        (∀ fmt, ((myEngines s).slot a.toNat).contents = .denseA fmt → RightHand s b.toNat 1 fmt → kl ≤ slotSteps fmt →
          let k := if kl = 0 then slotSteps fmt else kl
          ∃ t, exec (.mop n a b r z) s = .next t
            ∧ MatrixQueued s t (.mop n.toNat a.toNat b.toNat rows cols k (decide (z = 1#1)) 0) (mopLatency rows cols k fmt) ∧ SlotsSame s t)
        ∧ ∀ h, ((myEngines s).slot a.toNat).contents = .sparseA h → kl = 0 →
          RightHand s b.toNat ((hdrKlen h + slotSteps (hdrFmt h) - 1) / slotSteps (hdrFmt h)) (hdrFmt h) →
          ∃ t, exec (.mop n a b r z) s = .next t
            ∧ MatrixQueued s t (.mop n.toNat a.toNat b.toNat rows cols (hdrKlen h) (decide (z = 1#1)) 0) (mopLatency rows cols (hdrCount h) (hdrFmt h)) ∧ SlotsSame s t)
    ∧ ∀ (d a : Slot) (r : XReg) (fmt : BitVec 2), (s.x r).psn = none → Mine s d.toNat → Mine s a.toNat → d ≠ a →
        ((myEngines s).slot d.toNat).contents ≠ .empty → ((myEngines s).slot a.toNat).contents = .denseA fmt →
        let h := pruneHeader (s.x r).val fmt
        hdrMsel h ≠ 3 → 1 ≤ hdrN h → hdrN h ≤ hdrM h → (hdrCol h = true → hdrTrans h = true ∧ fmt = 0#2) →
        ∃ t, exec (.mprune d a r) s = .next t ∧ MatrixQueued s t (.prune d.toNat a.toNat h) 0
          ∧ (myEngines t).slot d.toNat = { (myEngines s).slot d.toNat with contents := .sparseA h } ∧ OtherSlots s t d.toNat)
  ∧ (∀ (s : State), s.myTile.mat = false → CanFall s →
    (∀ (rd r : XReg), (s.x r).psn = none →
      let n := (s.x r).val.toNat
      (n % 16 ≠ 0 ∨ n < 16 ∨ 128 < n → ∃ t, exec (.mattach rd r) s = .next t ∧ WroteOnly s t rd (Reg.clean (-5#64)))
      ∧ (n % 16 = 0 → 16 ≤ n → n ≤ 128 → s.myCore.mstate = .attached →
          ∃ t, exec (.mattach rd r) s = .next t ∧ WroteOnly s t rd (Reg.clean (-1#64)))
      ∧ (n % 16 = 0 → 16 ≤ n → n ≤ 128 → s.myCore.mstate ≠ .attached → s.myCore.mjob < 2 ^ 64 - 1 → (myEngines s).mq.length < 64 →
          ((myEngines s).mq.filter fun j => j.core == myCoreKey s).length < 16 →
          ∃ t, exec (.mattach rd r) s = .next t ∧ MatrixJob s t (.attach n) 0 ∧ SlotsSame s t
            ∧ t.me = { s.me with mjoblast := BitVec.ofNat 64 (s.myCore.mjob + 1), wait := .job, uword := s.iw }))
    ∧ (s.me.wait = .job → s.jobPending s.cur = false →
        (∀ rd : XReg, s.me.uword.toNat / 2 ^ 26 = 0x30 → s.me.uword.toNat / 16 % 32 = 0 → s.me.uword.toNat / 2 ^ 21 % 32 = rd.toNat →
          ∃ t, exec .jobWaitEnd s = .next t ∧ WroteOnly s t rd (Reg.clean s.me.mjoblast))
        ∧ (¬ (s.me.uword.toNat / 2 ^ 26 = 0x30 ∧ s.me.uword.toNat / 16 % 32 = 0) →
          ∃ t, exec .jobWaitEnd s = .next t ∧ Resumed s t .resume))
    ∧ (s.myCore.mstate = .attached →
      (∀ (rd r : XReg), (s.x r).psn = none →
        let n := (s.x r).val.toNat % 32
        (∀ m, m < 16 → (n = m ∨ (n = 16 ∧ ∀ i, i < m → ((myEngines s).slot i).claim ≠ .free)) → ((myEngines s).slot m).claim = .free →
          ∃ t, exec (.mclaim rd r) s = .next t ∧ WroteX s t rd (Reg.clean (BitVec.ofNat 64 m)) ∧ Fell s t ∧ OnlyRegs s.me t.me
            ∧ (myEngines t).slot m = { claim := .claimed (myCoreKey s) } ∧ OtherSlots s t m ∧ OnlyEngine s t)
        ∧ (n < 16 → Mine s n → ∃ t, exec (.mclaim rd r) s = .next t ∧ WroteOnly s t rd (Reg.clean (-2#64)))
        ∧ ((n < 16 ∧ ¬ Mine s n ∧ ((myEngines s).slot n).claim ≠ .free) ∨ (n = 16 ∧ ∀ i, i < 16 → ((myEngines s).slot i).claim ≠ .free) →
          ∃ t, exec (.mclaim rd r) s = .next t ∧ WroteOnly s t rd (Reg.clean (-1#64)))
        ∧ (16 < n → ∃ t, exec (.mclaim rd r) s = .next t ∧ WroteOnly s t rd (Reg.clean (-5#64))))
      ∧ (∀ (rd : XReg) (os : Slot), Mine s os.toNat →
        (∀ h, ((myEngines s).slot os.toNat).contents = .sparseA h →
          (∃ t, exec (.mhdr rd os 0#1) s = .next t ∧ WroteOnly s t rd (Reg.clean h))
          ∧ ∃ t, exec (.mhdr rd os 1#1) s = .next t
              ∧ WroteOnly s t rd (Reg.clean (BitVec.ofNat 64 ((hdrCount h + rateOf (hdrFmt h) - 1) / rateOf (hdrFmt h)))))
        ∧ ∀ fmt, (((myEngines s).slot os.toNat).contents = .denseA fmt ∨ ((myEngines s).slot os.toNat).contents = .denseB fmt) →
          (∃ t, exec (.mhdr rd os 0#1) s = .next t
              ∧ WroteOnly s t rd (Reg.clean (BitVec.ofNat 64 (2 ^ 32 * slotSteps fmt + 2 ^ 16 * slotSteps fmt + 2 ^ 13 + fmt.toNat))))
          ∧ ∃ t, exec (.mhdr rd os 1#1) s = .next t
              ∧ WroteOnly s t rd (Reg.clean (BitVec.ofNat 64 ((slotSteps fmt + rateOf fmt - 1) / rateOf fmt))))
      ∧ ∀ (n : BitVec 2) (v : VReg) (r : XReg) (mk : VMask) (p : Part), (s.x r).psn = none → s.myPart = some p → VLegal p.vtype 0 [] →
        ((vtSew p.vtype = 5 ∧ vtFmt p.vtype = 4 ∧ v.toNat % 2 = 0) ∨ (vtSew p.vtype = 4 ∧ (vtFmt p.vtype = 2 ∨ vtFmt p.vtype = 3))) →
        let w := (s.x r).val.toNat / 65536 % 256
        w ≠ 0 → (s.x r).val.toNat / 256 % 256 + w ≤ 128 → (p.vl ≠ 0 → (s.x r).val.toNat % 256 + (p.vl + w - 1) / w ≤ s.myCore.mrows) → p.pending.length < 32 →
        (∃ t, exec (.mtmv v n r mk) s = .next t ∧ Queued s t p (.mtmv v n ((s.x r).val.toNat % 2 ^ 24) mk) [])
        ∧ ∃ t, exec (.mvtm n v r mk) s = .next t ∧ Queued s t p (.mvtm n v ((s.x r).val.toNat % 2 ^ 24) mk) [])
    ∧ ∀ (rd r : XReg), (s.x r).psn = none →
        (s.myCore.mjob < (s.x r).val.toNat → ∃ t, exec (.mwait rd r) s = .next t ∧ WroteOnly s t rd (Reg.clean (-1#64)))
        ∧ ((s.x r).val.toNat ≤ s.myCore.mjob → (∀ j ∈ (myEngines s).mq, j.core = myCoreKey s → j.id ≠ (s.x r).val.toNat) →
            ∃ t, exec (.mwait rd r) s = .next t ∧ WroteOnly s t rd (Reg.clean 0#64))
        ∧ ((s.x r).val.toNat ≤ s.myCore.mjob → (∃ j ∈ (myEngines s).mq, j.core = myCoreKey s ∧ j.id = (s.x r).val.toNat) →
            ∃ t, exec (.mwait rd r) s = .next t ∧ t.me = { s.me with wait := .job, uword := s.iw } ∧ OnlyMe s t))

/-- R303 to R309, R312, R319, R320: the job at the head of a tile's matrix queue performs when it may: an attach grants the rows that are left in sixteens, or none below 16; a detach and a release free slots; MZERO, MTLD and MTST zero, load and store accumulator rows, and a load and a prune set what their slot holds, where a line that the job read ahead counts as it was then and one that it stored ahead stays as it is (R260); a MOP runs as many issues as the governor leaves room for. Each then leaves the queue, but a MOP that is not finished. R320, R398: at the end of a window the governor keeps its issues as those of the last, counts none in the new one, takes the limits of the tile's power block, and counts the cycles in which a limit kept a MOP that could perform from issuing, no more than the window has left beside its issues; none when the limits leave room, when a move that the MOP waits for is queued, or when no MOP heads the queue. -/
def Obligations.MatrixJobsPerform : Prop :=
  (∀ (s : State) (k : Nat) (j : MJob), MemOk s → MatrixHead s k j →
    (∀ q, j.op = .attach q → tileOfCore j.core = k →
      let g := min q (16 * ((256 - s.rowsElsewhere j.core) / 16))
      ∃ t, exec (.attachJob k) s = .next t ∧ MatrixPerformed s t k j.core ∧ MemSame s t
        ∧ (16 ≤ g → (t.core j.core).mstate = .attached ∧ (t.core j.core).mrows = g)
        ∧ (g < 16 → (t.core j.core).mstate = .detached ∧ (t.core j.core).mrows = 0))
    ∧ (j.op = .detach → tileOfCore j.core = k →
      ∃ t, exec (.detachJob k) s = .next t ∧ MatrixPerformed s t k j.core ∧ MemSame s t
        ∧ (t.core j.core).mstate = .detached ∧ (t.core j.core).mrows = 0)
    ∧ (∀ n, j.op = .release n →
      ∃ t, exec (.slotReleaseJob k) s = .next t ∧ MatrixPerformed s t k j.core ∧ MemSame s t ∧ (t.tile k).eng.acc = (s.tile k).eng.acc
        ∧ (t.tile k).eng.slot n = {} ∧ ∀ m, m ≠ n → (t.tile k).eng.slot m = (s.tile k).eng.slot m)
    ∧ (∀ n g, j.op = .zero n g →
      ∃ t, exec (.accumulatorJob k) s = .next t ∧ MatrixPerformed s t k j.core ∧ MemSame s t ∧ (t.tile k).eng.slots = (s.tile k).eng.slots
        ∧ ∀ i c, i < g → accRow (t.tile k).eng j.core n i c = (0#32, false))
    ∧ (∀ n g base stride fr, j.op = .tld n g base stride fr → g ≤ 128 → n < 4 → (s.tile k).latent = [] →
      ∃ t, exec (.accumulatorJob k) s = .next t ∧ MatrixPerformed s t k j.core ∧ MemSame s t ∧ (t.tile k).eng.slots = (s.tile k).eng.slots
        ∧ ∀ i c, i < g → c < 128 → accRow (t.tile k).eng j.core n i c = rowWordAt ((s.tile k).mem.withLines j.got) fr (base + BitVec.ofNat 64 i * stride) c)
    ∧ (∀ n g base stride half fr, j.op = .tst n g base stride half fr →
      ∃ t, exec (.accumulatorJob k) s = .next t ∧ MatrixPerformed s t k j.core ∧ (t.tile k).eng.slots = (s.tile k).eng.slots
        ∧ (t.tile k).eng.acc = (s.tile k).eng.acc
        ∧ (∀ a, (∀ i c b, i < g → c < 128 → b < (if half then 2 else 4) → a ≠ rowAddr fr base stride half i c + b ∨ a / 64 ∈ j.put) → (t.tile k).mem.byte a = (s.tile k).mem.byte a)
        ∧ (RowsApart fr base stride half g → ∀ i c b, i < g → c < 128 → b < (if half then 2 else 4) → (rowAddr fr base stride half i c + b) / 64 ∉ j.put →
            (t.tile k).mem.byte (rowAddr fr base stride half i c + b) = BitVec.ofNat 8 (storedRow (s.tile k).eng j.core n i c half / 256 ^ b)))
    ∧ (∀ n isA fmt sp base stride fr, j.op = .load n isA fmt sp base stride fr → (s.tile k).latent = [] →
      ∃ t, exec (.operandLoadJob k) s = .next t ∧ MatrixPerformed s t k j.core ∧ MemSame s t ∧ (t.tile k).eng.acc = (s.tile k).eng.acc
        ∧ (t.tile k).eng.slot n = loadedSlot ((s.tile k).mem.withLines j.got) ((s.tile k).eng.slot n) isA fmt sp base stride fr
        ∧ ∀ m, m ≠ n → (t.tile k).eng.slot m = (s.tile k).eng.slot m)
    ∧ (∀ d a h, j.op = .prune d a h →
      ∃ t, exec (.pruneJob k) s = .next t ∧ MatrixPerformed s t k j.core ∧ MemSame s t ∧ (t.tile k).eng.acc = (s.tile k).eng.acc
        ∧ (t.tile k).eng.slot d = ((s.tile k).eng.slot d).pruned ((s.tile k).eng.slot a) h
        ∧ ∀ m, m ≠ d → (t.tile k).eng.slot m = (s.tile k).eng.slot m)
    ∧ (∀ n a b rows cols klen z step, j.op = .mop n a b rows cols klen z step → rows = 0 ∨ cols = 0 →
      ∃ t, exec (.mopJob k) s = .next t ∧ MatrixPerformed s t k j.core ∧ MemSame s t ∧ (t.tile k).eng.acc = (s.tile k).eng.acc
        ∧ (t.tile k).eng.slots = (s.tile k).eng.slots)
    ∧ ∀ n a b rows cols klen z step, j.op = .mop n a b rows cols klen z step → rows ≠ 0 → cols ≠ 0 →
      let v := (s.tile k).eng.gov
      let issues := min (j.lat - step) (min 256 (min (v.budget.toNat + 1) (v.last + v.ramp.toNat + 1)) - v.this)
      ∃ t, exec (.mopJob k) s = .next t ∧ MemSame s t ∧ (t.tile k).eng.gov = { v with this := v.this + issues }
        ∧ (t.tile k).eng.slots = (s.tile k).eng.slots
        ∧ t = { s with tiles := t.tiles } ∧ (∀ m, m ≠ k → t.tile m = s.tile m)
        ∧ (rows ≤ 128 → n < 4 → ∀ i c, c < 128 → accRow (t.tile k).eng j.core n i c =
            if i < rows ∧ c < cols then
              mopElement (s.tile k).eng b c (((((s.tile k).eng.slot a).keptRow i klen).drop (step * rateOf ((s.tile k).eng.slot a).held.fmt)).take
                  (issues * rateOf ((s.tile k).eng.slot a).held.fmt))
                (if z = true ∧ step = 0 then (0#32, false) else accRow (s.tile k).eng j.core n i c)
            else accRow (s.tile k).eng j.core n i c)
        ∧ (j.lat ≤ step + issues → (t.tile k).eng.mq = (s.tile k).eng.mq.tail)
        ∧ (step + issues < j.lat → (t.tile k).eng.mq = { j with op := .mop n a b rows cols klen z (step + issues) } :: (s.tile k).eng.mq.tail))
  ∧ (∀ (s : State) (k held : Nat), s.clocked (8 * k) = true →
    let g := (s.tile k).eng
    let room := min 256 (min (g.gov.budget.toNat + 1) (g.gov.last + g.gov.ramp.toNat + 1)) - g.gov.this
    ∃ t, exec (.governorWindow k held) s = .next t
      ∧ (t.tile k).eng = { g with gov := { this := 0, last := g.gov.this, ramp := (s.pwr k).ramp, budget := (s.pwr k).budget, stalls := (t.tile k).eng.gov.stalls } }
      ∧ (∀ j n a b rows cols klen z step, MatrixHead s k j → j.op = .mop n a b rows cols klen z step → room = 0 →
          (t.tile k).eng.gov.stalls = min (g.gov.stalls + min held (256 - g.gov.this)) (2 ^ 32 - 1))
      ∧ (room ≠ 0 ∨ (∃ j, g.mq.head? = some j ∧ s.movesBefore j.core j.stamp = true)
            ∨ (∀ j, g.mq.head? = some j → ∀ n a b rows cols klen z step, j.op ≠ .mop n a b rows cols klen z step) →
          (t.tile k).eng.gov.stalls = g.gov.stalls)
      ∧ t = { s with tiles := t.tiles } ∧ (∀ m, m ≠ k → t.tile m = s.tile m) ∧ MemSame s t)

/-- R322, R326, R328, R331: PCOPY and PFILL whose descriptor reads clean and is good enqueue their job when the queue and the completion places have room, and give 2^64 - k for the first check that fails; PWAIT, PPOLL and PCANCEL give 0, minus 1, 4 or the status of a job that ended, a job under way makes PWAIT wait and PPOLL give 1, and PCANCEL ends it as CANCELLED at its position. -/
def Obligations.PorterInstructions : Prop :=
  ∀ (s : State) (rd r : XReg), CanFall s → (s.x r).psn = none →
    (∀ (bs : List Byte) (s1 : State), ReadsDesc s (s.x r).val bs s1 →
      (s1.descStatus { src := true, dst := true, fill := false, bar := true } bs = none → PorterRoom s (descOf (myCoreKey s) bs) →
        ∃ t, exec (.pcopy rd r) s = .next t ∧ PorterQueued s t rd .copy (descOf (myCoreKey s) bs))
      ∧ (s1.descStatus { src := false, dst := true, fill := true, bar := true } bs = none → PorterRoom s (descOf (myCoreKey s) bs) →
        ∃ t, exec (.pfill rd r) s = .next t ∧ PorterQueued s t rd .fill (descOf (myCoreKey s) bs))
      ∧ (∀ e, s1.descStatus { src := true, dst := true, fill := false, bar := true } bs = some e →
        ∃ t, exec (.pcopy rd r) s = .next t ∧ WroteX s t rd (statusReg e) ∧ Fell s t ∧ OnlyRegs s.me t.me ∧ OnlyEngine s t)
      ∧ ∀ e, s1.descStatus { src := false, dst := true, fill := true, bar := true } bs = some e →
        ∃ t, exec (.pfill rd r) s = .next t ∧ WroteX s t rd (statusReg e) ∧ Fell s t ∧ OnlyRegs s.me t.me ∧ OnlyEngine s t)
    ∧ (let j := (s.x r).val.toNat
      (j = 0 → (∃ t, exec (.pwait rd r) s = .next t ∧ WroteOnly s t rd (Reg.clean 0#64))
        ∧ (∃ t, exec (.ppoll rd r) s = .next t ∧ WroteOnly s t rd (Reg.clean 0#64))
        ∧ ∃ t, exec (.pcancel rd r) s = .next t ∧ WroteOnly s t rd (Reg.clean (-1#64)))
      ∧ (JobUnknown s j → ∀ i, (i = .pwait rd r ∨ i = .ppoll rd r ∨ i = .pcancel rd r) → ∃ t, exec i s = .next t ∧ WroteOnly s t rd (Reg.clean (-1#64)))
      ∧ (JobExpired s j → ∀ i, (i = .pwait rd r ∨ i = .ppoll rd r ∨ i = .pcancel rd r) → ∃ t, exec i s = .next t ∧ WroteOnly s t rd (Reg.clean 4#64))
      ∧ (∀ e, JobKept s j e → ∀ i, (i = .pwait rd r ∨ i = .ppoll rd r ∨ i = .pcancel rd r) → ∃ t, exec i s = .next t ∧ JobStatus s t rd e)
      ∧ (JobLive s j → (∃ t, exec (.pwait rd r) s = .next t ∧ WaitsForJob s t)
        ∧ (∃ t, exec (.ppoll rd r) s = .next t ∧ WroteOnly s t rd (Reg.clean 1#64))
        ∧ ∀ q, s.pjob (myCoreKey s) j = some q → s.partnerOf q = none → q.desc.irq = false →
          ∃ t, exec (.pcancel rd r) s = .next t ∧ WroteX s t rd (Reg.clean 2#64) ∧ Fell s t
            ∧ t.me.pfstat = BitVec.ofNat 64 (2 + 2 ^ 24 * q.pos) ∧ t.me.pfaddr = 0#64
            ∧ (∀ y ∈ (myEngines t).pq, ¬ (y.core = myCoreKey s ∧ y.id = j))
            ∧ (myEngines t).pq = (myEngines s).pq.filter (fun y => !(y.core == myCoreKey s && y.id == j)) ∧ MemSame s t))

/-- R324, R327, R334: the Porter job at the head of a tile's queue moves positions: a copy lands each source byte, and a fill the byte of its pattern, at the destination of its position; both halves of a block transfer within a tile move together. The job stands at its new position, or ends as DONE at TOTAL. How many positions one event moves is the schedule's (log entry 62). -/
def Obligations.PorterJobsPerform : Prop :=
  ∀ (s : State) (k n : Nat) (j : PJob), MemOk s → PorterHead s k j → (s.tile k).latent = [] →
    let c := if n = 0 then j.desc.total - j.pos else min n (j.desc.total - j.pos)
    let from_ := fun (q : PJob) (u : State) (p : Nat) => u.porterWalk k q.priv .load (q.desc.srcAddr p)
    let to_ := fun (q : PJob) (u : State) (p : Nat) => u.porterWalk k q.priv .store (q.desc.dstAddr p)
    (∀ s1 ps, j.kind = .copy → walkPositions (from_ j) (to_ j) c j.pos [] s = (s1, ps, none) → (ps.map fun p => p.2).Nodup →
      ∃ t, exec (.porterJob k n) s = .next t ∧ Landed s t k ps (fun i => (s.tile k).mem.byte ((ps.map fun p => p.1).getD i 0)) ∧ JobMoved t k j c)
    ∧ (∀ s1 ps, j.kind = .fill → walkPositions (fun u _ => (u, .inl 0)) (to_ j) c j.pos [] s = (s1, ps, none) → (ps.map fun p => p.2).Nodup →
      ∃ t, exec (.porterJob k n) s = .next t
        ∧ Landed s t k ps (fun i => BitVec.ofNat 8 (j.desc.pattern.toNat / 256 ^ ((j.pos + i) % j.desc.patlen))) ∧ JobMoved t k j c)
    ∧ ∀ s1 ps m b, j.kind = .send (.here m) → b.kind = .recv (.here m) → s.partnerOf j = some b → s.partnerOf b = some j → tileOfCore b.core = k → b.after = [] →
      b.desc.bar = none → (b.core, b.id) ≠ (j.core, j.id) → (s.tile k).eng.pq = [j, b] → b.pos = j.pos → b.desc.total = j.desc.total →
      walkPositions (from_ j) (to_ b) c j.pos [] s = (s1, ps, none) → (ps.map fun p => p.2).Nodup →
      ∃ t, exec (.blockTransfer k n) s = .next t ∧ Landed s t k ps (fun i => (s.tile k).mem.byte ((ps.map fun p => p.1).getD i 0)) ∧ JobMoved t k j c ∧ JobMoved t k b c

/-- R335 to R343, R348: CLLOAD, CLRUN and CLQUERY whose checks pass enqueue their job or query; CLRUN of no such kernel gives minus 1, and of one under way takes the new page list and ends its stall; CLWAIT gives 0, minus 1, 6, the status of a job that ended, 3 for a stalled kernel, and waits for one under way. What the CLRUN that ends a stall checks again is as log entry 47 reads it. -/
def Obligations.CellarInstructions : Prop :=
  ∀ (s : State), s.myTile.cell = false → CanFall s →
    (∀ (rd r1 r2 : XReg) (s1 : State) (w : Walked), CellarReady s → (s.x r1).psn = none → (s.x r2).psn = none →
      let table := (s.x r1).val.toNat % 64
      let ew := (s.x r1).val.toNat / 256 % 4
      let len := (s.x r1).val.toNat / 65536 % 4096
      ew ≠ 3 → 1 ≤ len → len ≤ 2048 → len % 2 ^ ew = 0 → (s.x r2).val.toNat % 64 = 0 →
      s.walkPart .load (pieces (s.x r2).val len) {} = (s1, w) → w.fail = none →
      ∃ t, exec (.clload rd r1 r2) s = .next t ∧ CellarQueued s t rd (.load table ew len (s.x r2).val w.fr)
        ∧ (myEngines t).tabs.find table = some { ew := ew, len := len } ∧ ∀ m, m ≠ table → (myEngines t).tabs.find m = (myEngines s).tabs.find m)
    ∧ (∀ (rd r1 r2 : XReg) (bs : List Byte) (s1 s2 : State) (ps : List KPage), CellarReady s → (s.x r1).psn = none → s.x r2 = Reg.clean 0#64 →
      (s.x r1).val.toNat % 64 = 0 → ReadsBlock s (s.x r1).val bs s1 → BlockAccepted s bs → PagesWalked (blockList bs) s1 ps s2 →
      ∃ t, exec (.clrun rd r1 r2) s = .next t ∧ CellarQueued s t rd (.kernel (startKernel s.fresh (s.x r1).val s.me.priv bs ps))
        ∧ ∀ m, (myEngines t).tabs.find m = (myEngines s).tabs.find m)
    ∧ (∀ (rd r1 r2 : XReg), (s.x r1).psn = none → (s.x r2).psn = none → (s.x r2).val ≠ 0#64 →
      (s.kernelOf (s.x r2).val.toNat = none → ∃ t, exec (.clrun rd r1 r2) s = .next t ∧ WroteOnly s t rd (Reg.clean (-1#64)))
      ∧ ∀ (x : Kernel) (bs : List Byte) (s1 s2 : State) (ps : List KPage), s.kernelOf (s.x r2).val.toNat = some x →
        ReadsBlock s x.block bs s1 → BlockAccepted s bs → blockPages bs = x.pages.length → PagesWalked (blockList bs) s1 ps s2 →
        ∃ t, exec (.clrun rd r1 r2) s = .next t ∧ WroteX s t rd (Reg.clean 0#64) ∧ Fell s t ∧ OnlyRegs s.me t.me
          ∧ t.kernelOf (s.x r2).val.toNat = some { x with pages := ps, stalled := false } ∧ OnlyEngine s t)
    ∧ (∀ (v i : VReg) (r : XReg) (p : Part) (x : CTable), (s.x r).psn = none → s.myPart = some p → VLegal p.vtype 0 [] → p.pending.length < 32 →
      (vtSew p.vtype = 3 ∨ vtSew p.vtype = 4 ∨ vtSew p.vtype = 5) →
      let c := (s.x r).val.toNat
      let interp := decide (c / 256 % 2 = 1)
      let iw := if c / 512 % 2 = 1 then 16 else 8
      let w := sewBits (vtSew p.vtype)
      (myEngines s).tabs.find (c % 64) = some x → queryFits p.vtype interp x.ew = true → c / 4096 % 16 < iw → (c / 4096 % 16 ≠ 0 → interp = true) →
      (w = 32 → badPair v = false) →
      overlap (regsAt v w) (regsAt i iw ++ (if c / 65536 % 2 = 1 then [24 + c / 131072 % 4] else [])) = false →
      p.vl ≤ p.lanes * slotsOf (max iw w) →
      ∃ t, exec (.clquery v i r) s = .next t ∧ Queued s t p (.clquery v i (c % 2 ^ 19) x.ew x.len) [])
    ∧ ∀ (rd r : XReg), (s.x r).psn = none →
      let j := (s.x r).val.toNat
      let live := (myEngines s).cq.any fun q => q.core == myCoreKey s && q.id == j
      (j = 0 → ∃ t, exec (.clwait rd r) s = .next t ∧ WroteOnly s t rd (Reg.clean 0#64))
      ∧ (s.myCore.cjob < j → ∃ t, exec (.clwait rd r) s = .next t ∧ WroteOnly s t rd (Reg.clean (-1#64)))
      ∧ (j ≠ 0 → j + 256 ≤ s.myCore.cjob ∨ (j ≤ s.myCore.cjob ∧ live = false ∧ s.myCore.cended.find? (fun e => e.id == j) = none) →
          ∃ t, exec (.clwait rd r) s = .next t ∧ WroteOnly s t rd (Reg.clean 6#64))
      ∧ (∀ e, j ≠ 0 → j ≤ s.myCore.cjob → live = false → s.myCore.cjob < j + 256 → s.myCore.cended.find? (fun e => e.id == j) = some e →
          ∃ t, exec (.clwait rd r) s = .next t ∧ WroteX s t rd (Reg.clean (BitVec.ofNat 64 e.status)) ∧ Fell s t ∧ OnlyMe s t
            ∧ OnlyRegs (if e.kernel = true then { s.me with clfstat := e.detail } else s.me) t.me)
      ∧ (∀ x, j ≠ 0 → j ≤ s.myCore.cjob → s.myCore.cjob < j + 256 → live = true → s.kernelOf j = some x → x.stalled = true →
          ∃ t, exec (.clwait rd r) s = .next t ∧ WroteX s t rd (Reg.clean 3#64) ∧ Fell s t ∧ OnlyMe s t
            ∧ OnlyRegs { s.me with clfstat := BitVec.ofNat 64 (3 + 65536 * (x.mi % 65536)) } t.me)
      ∧ (j ≠ 0 → j ≤ s.myCore.cjob → s.myCore.cjob < j + 256 → live = true → (∀ x, s.kernelOf j = some x → x.stalled = false) →
          ∃ t, exec (.clwait rd r) s = .next t ∧ WaitsForJob s t)

/-- R338, R344 to R346: a table load at the head of the Cellar queue writes its row, with zeros past LEN and the lines that it read ahead as they were then (R260), and ends as DONE; a kernel's move reads its word: a move to a register writes it and mi goes on, an ALU port computes, PC.H ends the kernel as DONE with its value, a guard that fails skips the move, and the budget ends it with status 5. Poison in a kernel is as log entry 64 reads it. -/
def Obligations.CellarJobsPerform : Prop :=
  ∀ (s : State) (k : Nat) (j : CJob), MemOk s → CellarHead s k j → (s.tile k).latent = [] →
    (∀ table ew len src fr, j.kind = .load table ew len src fr → len ≤ 2048 →
      ∃ t, exec (.cellarLoadJob k) s = .next t ∧ CellarEnded t k j 0 0#64
        ∧ (∀ i, i < 2048 → (t.tile k).mem.byte (0x7FF00000 + 2048 * table + i) =
            if i < len then ((s.tile k).mem.withLines j.got).byte (frameAddr fr (src + BitVec.ofNat 64 i)) else 0#8)
        ∧ (∀ a, ¬ (0x7FF00000 + 2048 * table ≤ a ∧ a < 0x7FF00000 + 2048 * table + 2048) → (t.tile k).mem.byte a = (s.tile k).mem.byte a)
        ∧ (∀ m, m ≠ k → t.tile m = s.tile m) ∧ t.ctxs = s.ctxs)
    ∧ ∀ (x : Kernel) (w : BitVec 32), j.kind = .kernel x → KernelWord s k x w →
      let src := w.toNat / 2 ^ 24
      let dst := w.toNat / 2 ^ 16 % 256
      let val := fun (v : KVal) =>
        (src = 0 ∧ v = { v := 0#32 }) ∨ (src = 1 ∧ v = { v := BitVec.ofNat 32 (w.toNat % 2 ^ 16) }) ∨ (src = 2 ∧ v = { v := BitVec.signExtend 32 (BitVec.ofNat 16 w.toNat) })
          ∨ ∃ i : Fin 16, src = 16 + i.val ∧ v = x.k[i]
      let runs := (src = 1 ∨ src = 2) ∨ (w.toNat % 2 ^ 11 = 0 ∧ (w.getLsbD 15 = true → x.g.getLsbD (w.toNat / 2 ^ 11 % 8) ≠ w.getLsbD 14))
      let go := { x with mi := x.mi + 1, used := x.used + 1 }
      let left := x.used + 1 < x.budget
      (∀ v (d : Fin 16), val v → runs → dst = 16 + d.val → left →
        ∃ t, exec (.kernelMove k) s = .next t ∧ KernelIs t k j { go with k := x.k.set d.val v } ∧ MemSame s t ∧ t.ctxs = s.ctxs)
      ∧ (∀ v, val v → runs → dst = 0x20 → left → ∃ t, exec (.kernelMove k) s = .next t ∧ KernelIs t k j { go with aluA := v } ∧ MemSame s t ∧ t.ctxs = s.ctxs)
      ∧ (∀ v, val v → runs → dst = 0x21 → left →
          ∃ t, exec (.kernelMove k) s = .next t ∧ KernelIs t k j { go with aluR := { v := x.aluA.v + v.v, psn := x.aluA.psn <|> v.psn } } ∧ MemSame s t ∧ t.ctxs = s.ctxs)
      ∧ (∀ v, val v → runs → dst = 0x51 → v.psn = none →
          ∃ t, exec (.kernelMove k) s = .next t ∧ CellarEnded t k j 0 (BitVec.ofNat 64 (65536 * (x.mi % 65536) + 2 ^ 32 * v.v.toNat)) ∧ MemSame s t ∧ t.ctxs = s.ctxs)
      ∧ (src ≠ 1 → src ≠ 2 → w.toNat % 2 ^ 11 = 0 → w.getLsbD 15 = true → x.g.getLsbD (w.toNat / 2 ^ 11 % 8) = w.getLsbD 14 → left →
          ∃ t, exec (.kernelMove k) s = .next t ∧ KernelIs t k j go ∧ MemSame s t ∧ t.ctxs = s.ctxs)
      ∧ (∀ v, val v → runs → dst = 0 → x.budget ≤ x.used + 1 →
          ∃ t, exec (.kernelMove k) s = .next t ∧ CellarEnded t k j 5 (BitVec.ofNat 64 (5 + 65536 * ((x.mi + 1) % 65536))) ∧ MemSame s t ∧ t.ctxs = s.ctxs)

/-- R109: a wait ends when what it waits for is there; the context is at the same pc, ready to issue, or with its instruction to perform in this i-cycle (R129), and nothing else has changed. While it is not there, or the context waits for something else, the step changes nothing. R129, R196, R111, R155, R256: the waits that end in an effect. A drained queue lets a draining instruction issue, raises the trap of a failed element, or stops a context that is stopping; a CTWR writes its entry when its bank's readers are done, and a reader issues when no CTWR waits; TLBINV completes with the register's old value, which reads as zero, when no dropped translation is held. R127, R331, R257: an instruction that waits for a full queue, or for a completion place, is enqueued as it is when there is room, and the context is past it; a matrix instruction is to perform in this i-cycle (log entry 71). A VLDL whose first piece waited empties the link set with it (R275). Without room, or in another wait, the step changes nothing. -/
def Obligations.WaitsEnd : Prop :=
  (∀ (i : Instr) (s : State) (done : Bool) (w : Wait), waitEnds s i = some (done, w) →
    (done = true → ∃ t, exec i s = .next t ∧ Resumed s t w) ∧ (done = false → exec i s = .next s))
  ∧ (∀ (s : State),
    (Drained s →
      (s.me.wait = .drain → ∃ t, exec .drainEnd s = .next t ∧ Resumed s t .resume)
      ∧ (∀ c va f, s.me.wait = .vfault c va f → s.me.intrap = false → c ∈ [3#8, 4#8, 5#8, 7#8, 0x10#8] →
          ∃ t, exec .drainEnd s = .next t ∧ (t.ctx s.cur).trapcause = c ∧ (t.ctx s.cur).trapval = va ∧ (t.ctx s.cur).trappc = s.me.pc
            ∧ (t.ctx s.cur).pc = s.me.trapvec ∧ (t.ctx s.cur).intrap = true ∧ (t.ctx s.cur).x = s.me.x ∧ MemSame s t)
      ∧ (∀ why, s.me.wait = .stopping why → slotOf s.cur ≠ 0 → (∀ l, s.procOf s.cur = some l → ∃ e, s.entry l = some e ∧ e.st = .running ∧ e.kill = false) →
          s.me.chan = none → ∃ t, exec .drainEnd s = .next t ∧ (t.ctx s.cur).slot = .stopped why ∧ (t.ctx s.cur).x = s.me.x ∧ MemSame s t))
    ∧ ((∃ p q, s.myPart = some p ∧ q ∈ p.pending) → exec .drainEnd s = .next s)
    ∧ (∀ b, s.me.wait = .ctwr b → CanFall s →
        (s.myCore.bankBusy b = true → exec .ctwrWaitEnd s = .next s)
        ∧ (s.myCore.bankBusy b = false → ∃ t, exec .ctwrWaitEnd s = .next t ∧ Fell s t ∧ OnlyPc s.me t.me
            ∧ (∀ n c, (t.myCore.bank n).get c 0#19 =
                if n.toNat = (s.x (s.me.uword.extractLsb' 16 5)).val.toNat / 256 % 2 ∧ c = (s.x (s.me.uword.extractLsb' 16 5)).val.toNat % 256
                then BitVec.ofNat 19 (s.x (s.me.uword.extractLsb' 11 5)).val.toNat else (s.myCore.bank n).get c 0#19)
            ∧ MemSame s t))
    ∧ (∀ b, s.me.wait = .reader b →
        (s.ctwrWaits b = true → exec .ctwrWaitEnd s = .next s)
        ∧ (s.ctwrWaits b = false → ∃ t, exec .ctwrWaitEnd s = .next t ∧ Resumed s t .resume))
    ∧ (∀ v, s.me.wait = .tlbinv v → CanFall s →
        (s.heldTranslation v = true → exec .tlbinvWaitEnd s = .next s)
        ∧ (s.heldTranslation v = false → ∃ t, exec .tlbinvWaitEnd s = .next t ∧ Fell s t ∧ OnlyRegs s.me t.me ∧ OnlyMe s t
            ∧ t.me.ready = s.now + 32
            ∧ (s.me.uword.extractLsb' 11 5 = 5#5 → t.me.x = s.me.x)
            ∧ (s.me.uword.extractLsb' 11 5 ≠ 5#5 → WroteX s t (s.me.uword.extractLsb' 21 5) Reg.zero))))
  ∧ (∀ (s : State), let u : State := { s with iw := s.me.uword }
    (∀ ops uses unlink p, s.me.wait = .queueFree (.vec ops uses none unlink) → ops ≠ [] → s.myPart = some p →
        (p.pending.length + ops.length ≤ 32 → ∃ t, exec .queueEntryFree s = .next t ∧ Fell s t ∧ OnlyPc s.me t.me
          ∧ OnlyPart u t { p with queue := p.queue ++ piecesOf s p uses ops false, links := if unlink then [] else p.links, vfidx := if (ops.head?.map VOp.isMem) = some true then 0 else p.vfidx })
        ∧ (32 ≤ p.pending.length → exec .queueEntryFree s = .next s))
    ∧ (∀ kind d rd, CanFall s → PorterRoom s d → s.myCore.pjob < 2 ^ 64 - 1 →
        (s.me.wait = .queueFree (.port kind d rd) → ∃ t, exec .queueEntryFree s = .next t ∧ PorterQueued u t rd kind d)
        ∧ (s.me.wait = .place (.port kind d rd) → s.me.places < 128 → ∃ t, exec .completionPlaceWaitEnd s = .next t ∧ PorterQueued u t rd kind d))
    ∧ (∀ kind rd, CanFall s → CellarReady s → s.me.wait = .queueFree (.cell kind rd) → ∃ t, exec .queueEntryFree s = .next t ∧ CellarQueued u t rd kind)
    ∧ (s.me.wait = .queueFree .again →
        ((myEngines s).mq.length < 64 → ((myEngines s).mq.filter fun j => j.core == myCoreKey s).length < 16 →
          ∃ t, exec .queueEntryFree s = .next t ∧ Resumed s t .resume)
        ∧ (64 ≤ (myEngines s).mq.length ∨ 16 ≤ ((myEngines s).mq.filter fun j => j.core == myCoreKey s).length → exec .queueEntryFree s = .next s))
    ∧ ((∀ p, s.me.wait ≠ .queueFree p) → exec .queueEntryFree s = .next s)
    ∧ ((∀ p, s.me.wait ≠ .place p) ∨ 128 ≤ s.me.places → exec .completionPlaceWaitEnd s = .next s))

/-- R400: RUN, QUIESCE, GATE and WAKE take a tile's power block from the state each asks for to the next one, and clear ERR; QUIESCE on a tile that a process occupies or that is reserved for one gives ERR 1, and a request in any other state ERR 2, with nothing else changed. R394, R400, R401, R407: on a tile whose stack is not in HALT, quiescing ends QUIET once its job queues are empty, with the tile's memory as it is when every held write has performed, every dirty line written back, caches, translations and instruction lines empty, every link set emptied, and no byte of another tile changed. Gating ends GATED: the core clocks, segment error counts, retirements, error counts and HBM4 bytes are kept, and the rest of the tile's state, contexts among it, is gone (log entry 69 says as what it reads). Waking ends ON. In HALT, with a job queue not empty, or in another power state the step changes nothing. -/
def Obligations.PowerStates : Prop :=
  ((∀ (i : Instr) (s : State) (p : Power), powerTile i < 256 → powerRequest s (powerTile i) i = some p →
    ∃ t, exec i s = .next t ∧ PowerSet s t (powerTile i) p)
  ∧ ∀ (k : Nat) (s : State), k < 256 →
    ((s.pwr k).st = .quiet → ∃ t, exec (.run k) s = .next t ∧ PowerSet s t k { s.pwr k with st := .on, err := 0 })
    ∧ ((s.pwr k).st = .on → s.tileBusy k = false → ∃ t, exec (.quiesce k) s = .next t ∧ PowerSet s t k { s.pwr k with st := .quiescing, err := 0 })
    ∧ ((s.pwr k).st = .quiet → ∃ t, exec (.gate k) s = .next t ∧ PowerSet s t k { s.pwr k with st := .gating, err := 0, retained := true })
    ∧ ((s.pwr k).st = .gated → ∃ t, exec (.wake k) s = .next t ∧ PowerSet s t k { s.pwr k with st := .waking, err := 0 }))
  ∧ (∀ (k : Nat) (s : State), k < 256 →
    ((s.pwr k).st = .quiescing → s.stackState (stackOf k) ≠ 3 → (s.tile k).eng.mq = [] → (s.tile k).eng.pq = [] → (s.tile k).eng.cq = [] →
      ∃ t, exec (.quiesceComplete k) s = .next t
        ∧ t.pwr k = { s.pwr k with st := .quiet } ∧ (∀ j, j ≠ k → t.pwr j = s.pwr j)
        ∧ (∀ a, (t.tile k).mem.byte a = ((s.drainTile k).tile k).mem.byte a) ∧ (t.tile k).old = [] ∧ (t.tile k).dir = [] ∧ (t.tile k).walker = []
        ∧ (∀ c, c / 8 = k → (t.core c).buf = [] ∧ (t.core c).tlb = [] ∧ (t.core c).l1i = []
            ∧ (t.core c).parts = (s.core c).parts.map fun p => { p with links := [] })
        ∧ (∀ c, c / 8 ≠ k → t.core c = s.core c) ∧ (∀ j, j ≠ k → t.tile j = s.tile j) ∧ t.ctxs = s.ctxs)
    ∧ ((s.pwr k).st = .gating → s.stackState (stackOf k) ≠ 3 → ∃ t, exec (.gatingComplete k) s = .next t
        ∧ t.pwr k = { s.pwr k with st := .gated } ∧ (∀ a, (t.tile k).mem.byte a = (s.tile k).mem.byte a) ∧ (t.tile k).hbmue = (s.tile k).hbmue ∧ (t.tile k).hbmce = (s.tile k).hbmce
        ∧ (∀ j, j ≠ k → t.tile j = s.tile j) ∧ (∀ x, x / 128 ≠ k → t.ctx x = s.ctx x)
        ∧ (∀ c, c / 8 = k → (t.core c).cyc = (s.core c).cyc ∧ (t.core c).segErr = (s.core c).segErr ∧ (t.core c).retired = (s.core c).retired
            ∧ (t.core c).wayue = (s.core c).wayue ∧ (t.core c).wayce = (s.core c).wayce)
        ∧ ∀ c, c / 8 ≠ k → t.core c = s.core c)
    ∧ ((s.pwr k).st = .waking → s.stackState (stackOf k) ≠ 3 →
        ∃ t, exec (.wakingComplete k) s = .next t ∧ PowerSet s t k { s.pwr k with st := .on, retained := false })
    ∧ ((s.pwr k).st ≠ .quiescing ∨ s.stackState (stackOf k) = 3 ∨ (s.tile k).eng.mq ≠ [] ∨ (s.tile k).eng.pq ≠ [] ∨ (s.tile k).eng.cq ≠ [] →
        exec (.quiesceComplete k) s = .next s)
    ∧ ((s.pwr k).st ≠ .gating ∨ s.stackState (stackOf k) = 3 → exec (.gatingComplete k) s = .next s)
    ∧ ((s.pwr k).st ≠ .waking ∨ s.stackState (stackOf k) = 3 → exec (.wakingComplete k) s = .next s))

/-- R391, R393 to R396, R341: a die's sample sets TEMP, PEAK and STATE as the thresholds say, a change of state makes THERMAL pending in slot 0 of every keeper core, and a rise of the stack's state to WARN or SLOW in every running tile context of the stack; no sample changes a byte of memory; an HBM4 stack's sample sets its temperature and refresh regime; a refresh changes nothing. R392: a droop counts once in DROOPCNT of every core of its stack as it begins, and with it its first stretched cycle in STRETCH; its end adds the cycles stretched since they were last counted; both saturate, and no other register and no byte of memory changes. -/
def Obligations.SensorsAndDroop : Prop :=
  (∀ (s : State),
    (∀ (n : Nat) (temp : BitVec 10), n ≤ 8 → ∃ t, exec (.thermalSample n temp) s = .next t
        ∧ (t.die n).temp = temp ∧ (t.die n).peak.toNat = max (s.die n).peak.toNat temp.toNat
        ∧ (t.die n).st.num = dieAfter (s.die n).st.num temp.toNat ∧ (∀ m, m ≠ n → t.die m = s.die m)
        ∧ (dieAfter (s.die n).st.num temp.toNat = (s.die n).st.num → t.ctxs = s.ctxs)
        ∧ (dieAfter (s.die n).st.num temp.toNat ≠ (s.die n).st.num → ∀ k, k < 4 →
            (t.ctx (32768 + 16 * k)).ipend.getLsbD 2 = true
            ∧ (t.ctx (32768 + 16 * k)).thermVal.toNat =
                n + 256 * dieAfter (s.die n).st.num temp.toNat + (if (s.die n).st.num < dieAfter (s.die n).st.num temp.toNat then 1024 else 0) + 65536 * temp.toNat)
        ∧ (n < 8 → s.stackState (n / 2) < t.stackState (n / 2) → t.stackState (n / 2) ≠ 3 → ∀ c, c < 32768 → OnStack (n / 2) (c / 128) → (s.ctx c).slot = .running →
            (t.ctx c).ipend.getLsbD 2 = true
            ∧ (t.ctx c).thermVal.toNat = n + 256 * dieAfter (s.die n).st.num temp.toNat + 1024 + 65536 * temp.toNat)
        ∧ (∀ c, (t.ctx c).x = (s.ctx c).x ∧ (t.ctx c).pc = (s.ctx c).pc ∧ (t.ctx c).wait = (s.ctx c).wait) ∧ MemSame s t)
    ∧ (∀ (n : Nat) (temp : BitVec 10), n < 8 → ∃ t, exec (.hbmTempSample n temp) s = .next t
        ∧ (t.hbmStack n).temp = temp ∧ ((s.hbmStack n).regime.toNat < 3 → (t.hbmStack n).regime.toNat = refreshAfter (s.hbmStack n).regime.toNat temp.toNat)
        ∧ (∀ m, m ≠ n → t.hbmStack m = s.hbmStack m) ∧ { t with hbm := s.hbm } = s)
    ∧ ∀ n row, exec (.hbmRefresh n row) s = .next s)
  ∧ (∀ (n : Nat) (s : State), n ≤ 4 →
    (n ∉ s.droop → ∃ t, exec (.droopBegin n) s = .next t ∧ n ∈ t.droop
        ∧ (∀ c, DroopCore n c →
            t.core c = { s.core c with droops := min ((s.core c).droops + 1) (2 ^ 32 - 1), stretch := min ((s.core c).stretch + 1) (2 ^ 32 - 1) })
        ∧ (∀ c, ¬ DroopCore n c → t.core c = s.core c) ∧ t.ctxs = s.ctxs ∧ t.tiles = s.tiles ∧ t.kmem = s.kmem)
    ∧ (n ∈ s.droop → ∀ m, ∃ t, exec (.droopEnd n m) s = .next t ∧ n ∉ t.droop
        ∧ (∀ c, DroopCore n c → t.core c = { s.core c with stretch := min ((s.core c).stretch + m) (2 ^ 32 - 1) })
        ∧ (∀ c, ¬ DroopCore n c → t.core c = s.core c) ∧ t.ctxs = s.ctxs ∧ t.tiles = s.tiles ∧ t.kmem = s.kmem))

/-- R397, R391, R234: every POWER_UPDATE writes PKG_POWER and runs the ballast loop at most once: not while an earlier action still runs, nor without an Innkeeper, and not in the update after one has completed. Above the floor the resident queue-7 process of highest LSEQ is chosen for pre-emption, and at the floor nothing. Below the floor nothing is chosen while a die is in SLOW or HALT; else the parked queue-7 process that was asked for, or that of lowest LSEQ, when its tiles are free, and without one the next queue-7 launch to dispatch. -/
def Obligations.PowerUpdateRunsBallastLoop : Prop :=
  ∀ (w : BitVec 16) (s : State), let u : State := { s with pkgPower := w }
    ∃ t, exec (.powerUpdate w) s = .next t ∧ t.pkgPower = w ∧ { t with pkgPower := s.pkgPower, ballast := s.ballast } = s
    ∧ (s.keeperUp = false ∨ u.ballastRuns = true → t.ballast = s.ballast)
    ∧ (s.keeperUp = true → u.ballastRuns = false →
        (s.ballast.recent = true → t.ballast = {})
        ∧ (s.ballast.recent = false → s.floor.toNat < w.toNat →
            (∀ e, e ∈ s.entries → Resident7 e →
              ∃ d, d ∈ s.entries ∧ Resident7 d ∧ t.ballast = { act := some (.preempt d.lseq) } ∧ e.lseq ≤ d.lseq)
            ∧ ((∀ e ∈ s.entries, ¬ Resident7 e) → t.ballast = {}))
        ∧ (s.ballast.recent = false → w = s.floor → t.ballast = {})
        ∧ (s.ballast.recent = false → w.toNat < s.floor.toNat →
            ((∃ d, d < 9 ∧ 2 ≤ (s.die d).st.num) → t.ballast = {})
            ∧ ((∀ d, d < 9 → (s.die d).st.num < 2) →
                (∀ e, RestoresNext s e →
                  ((∀ k ∈ e.tiles, s.tileFree k = true) → t.ballast = { act := some (.restore e.lseq) })
                  ∧ ((∃ k ∈ e.tiles, s.tileFree k = false) → t.ballast = {}))
                ∧ ((∀ e ∈ s.entries, ¬ Parked7 e) →
                  (∀ e, u.nextBallast = some e → t.ballast = { act := some (.dispatch e.lseq) }) ∧ (u.nextBallast = none → t.ballast = {})))))

/-- R232, R233, R235, R425: DISPATCH gives a ready launch, first in the order of the queues, free tiles that suit it and sets them up, and its entry is DISPATCHING; PLACEMENT_COMPLETE starts slot 0 of each of its cores at ENTRY, and the entry is RUNNING and resident, but on a locked part it starts nothing. R236: it makes each listed endpoint UNBOUND, or CLOSED where no launch of this home that has not ended joins it back; one whose far end is CLOSED already is CLOSED too (log entry 84). -/
def Obligations.DispatchAndPlacement : Prop :=
  (∀ (n : Nat) (ts : List Nat) (s : State) (e : Entry), s.keeperUp = true → Named s n e → e.multi = none → e.st = .queued → s.predsMet e.rec_ = true →
    s.myTurn e = true → s.ballastLets e = true → s.tilesOk e.rec_ ts = true →
    ((s.updEntry e.rec_.ltag fun d => { d with tiles := ts, st := .dispatching }).placeEntry { e with tiles := ts } 0).isSome = true →
    ∃ t, exec (.dispatch n ts) s = .next t ∧ PlacedOn s t { e with tiles := ts } 0
      ∧ EntryIs t e.rec_.ltag (fun d => d.st = .dispatching ∧ d.tiles = ts ∧ d.lseq = n ∧ d.rec_ = e.rec_)
      ∧ t.ctxs = s.ctxs ∧ ∀ k a, k ∉ ts → (t.tile k).mem.byte a = (s.tile k).mem.byte a)
  ∧ ∀ (n : Nat) (s : State) (e : Entry), Named s n e → e.multi = none → e.st = .dispatching →
    (s.sec.locked = true → exec (.placementComplete n) s = .next s)
    ∧ (s.sec.locked = false → e.kill = false → e.early = none → e.tiles.Nodup →
    ∃ t, exec (.placementComplete n) s = .next t ∧ Slot0Started t e ∧ EndpointsJoined s t e
      ∧ EntryIs t e.rec_.ltag (fun d => d.st = .running ∧ d.resident = true ∧ d.tiles = e.tiles ∧ d.lseq = n)
      ∧ (∀ k a, (t.tile k).mem.byte a = (s.tile k).mem.byte a))

/-- R374, R376, R378: PREEMPTION of a resident process with a CCB asks its contexts to stop, and the switch waits while a vector queue has work. Once all has stopped and every tile's judgement is OK, the process is put aside: each of its tiles is given up, with its engines empty and its contexts gone; what is kept has each context's registers and pc, and each tile's place and page table. PROCESS_RESTORE of a parked process whose tiles are free gives each tile its process again, with its gates, and the entry is resident with nothing saved. -/
def Obligations.SwitchAndRestore : Prop :=
  (∀ (n : Nat) (s : State) (e : Entry), s.keeperUp = true → Named s n e → e.multi = none → e.switching = false → s.maySwitch e = true →
    (∃ k c p q, k ∈ e.tiles ∧ c ∈ tileCores k ∧ p ∈ (s.core c).parts ∧ q ∈ p.pending) →
    ∃ t, exec (.preemption n) s = .next t ∧ EntryIs t e.rec_.ltag (fun d => d.switching = true ∧ d.st = .running ∧ d.resident = true ∧ d.saved = e.saved)
      ∧ (∀ k a, (t.tile k).mem.byte a = (s.tile k).mem.byte a) ∧ ∀ c, (t.ctx c).x = (s.ctx c).x ∧ (t.ctx c).pc = (s.ctx c).pc)
  ∧ (∀ (n : Nat) (s u : State) (e : Entry), s.keeperUp = true → Named s n e → e.multi = none → e.switching = true → e.st = .running → e.status = 0 →
    e.kill = false → e.saved = none → e.tiles.Nodup → (∀ k ∈ e.tiles, k < 256 ∧ (s.tile k).place.isSome = true) →
    u = (s.entryCtxs e).foldl (fun s c => s.pause c) s → u.paused e = true → ((u.flushEntry e).judgePart e).2.1 = 1 →
    ∃ t v, exec (.preemption n) s = .next t
      ∧ EntryIs t e.rec_.ltag (fun d => d.switching = false ∧ d.resident = false ∧ d.st = .running ∧ d.tiles = e.tiles ∧ d.saved = some v)
      ∧ (∀ k p, k ∈ e.tiles → (s.tile k).place = some p →
          (t.tile k).place = none ∧ (t.tile k).eng = { gov := (s.tile k).eng.gov }
            ∧ (∃ g d, v.tiles.find k = some (g, d, p, (s.tile k).root))
            ∧ (∀ c, c / 8 = k → (t.core c).parts = [] ∧ (t.core c).barriers = [])
            ∧ ∀ c, c / 128 = k → t.ctx c = Ctx.free ∧ (v.ctxs.get c Ctx.free).x = (s.ctx c).x ∧ (v.ctxs.get c Ctx.free).pc = (s.ctx c).pc
              ∧ (v.ctxs.get c Ctx.free).slot = (s.ctx c).slot)
      ∧ ∀ c, c / 128 ∉ e.tiles → (t.ctx c).x = (s.ctx c).x ∧ (t.ctx c).pc = (s.ctx c).pc ∧ (t.ctx c).slot = (s.ctx c).slot)
  ∧ ∀ (n : Nat) (s : State) (e : Entry) (v : Saved), s.keeperUp = true → Named s n e → e.multi = none → e.rec_.prio ≠ 7 → s.mayRestore e = true → e.saved = some v →
    ∃ t, exec (.processRestore n) s = .next t ∧ EntryIs t e.rec_.ltag (fun d => d.resident = true ∧ d.saved = none ∧ d.st = .running ∧ d.tiles = e.tiles)
      ∧ ∀ k g d p root, k ∈ e.tiles → v.tiles.find k = some (g, d, p, root) →
          (t.tile k).place = some p ∧ (t.tile k).root = root ∧ (t.tile k).walker = [] ∧ (t.tile k).top = !d.getLsbD 0 ∧ (t.tile k).mat = !d.getLsbD 1
            ∧ (t.tile k).cell = !d.getLsbD 2

/-- R418 items 1 to 5 and 9: the KEEPER messages that accept, place and end a launch on several modules. ADMIT of a bad record is answered with its status, and of a good one with 0 and a shadow kept; the last ADMITTED with an error refuses the launch to its host; IMAGE bytes land in staging memory; RESERVE readies the shadow; RESERVED of one module asks the next; PLACE places the member's part; the last PLACED makes the entry RUNNING; STOPPED ends it with the outcome of the slot; END drops an unplaced shadow and is answered with ENDED, which strikes the member off those awaited, and the last of which makes a cancelled launch CANCELLED; KNOT is logged. -/
def Obligations.LaunchMessages : Prop :=
  ∀ (s : State) (m : MsgIn) (l : Word) (ops : List Byte),
    (KeeperIn s m 0x01 l ops → ops.length ≥ 72 → s.homeOf l = m.src → (launchOf (ops.drop 8)).ltag = l →
      (s.recordStatus (ops.drop 8) (leNat (ops.take 8)) true ≠ 0 →
        ∃ t, exec (.admitLaunch m) s = .next t ∧ Got t m ∧ Answers t m.src 2 l (leBytes 1 (s.recordStatus (ops.drop 8) (leNat (ops.take 8)) true) ++ leBytes 7 0)
          ∧ t.entries = s.entries ∧ MachineSame s t)
      ∧ (∀ off, s.recordStatus (ops.drop 8) (leNat (ops.take 8)) true = 0 → s.sweep.freeRange (leNat (ops.take 8)) = some off →
        ∃ t e, exec (.admitLaunch m) s = .next t ∧ Got t m ∧ Answers t m.src 2 l (leBytes 8 0) ∧ t.entries = s.entries ++ [e] ∧ e.lseq = 0
          ∧ e.rec_ = launchOf (ops.drop 8) ∧ e.bytes = ops.drop 8 ∧ e.imgOff = off ∧ e.imgLen = leNat (ops.take 8) ∧ e.st = .queued ∧ MachineSame s t))
    ∧ (∀ e x st h q, KeeperIn s m 0x02 l (leBytes 1 st ++ leBytes 7 0) → s.entry l = some e → e.lseq = 0 → e.multi = some x → x.home = s.sec.module → x.step = 0 →
      x.left = [m.src] → x.bad = 0 → 0 < st → st < 256 → x.reply = some (h, q) →
        ∃ t, exec (.admitted m) s = .next t ∧ Got t m ∧ t.entry l = none ∧ t.sent = s.sent ++ [(h, replyBytes 2 q st [])] ∧ MachineSame s t)
    ∧ (∀ e x off bs, KeeperIn s m 0x03 l (leBytes 8 off ++ bs) → Shadow s m l e x → off < 2 ^ 64 → off + bs.length ≤ e.imgLen → MemOk s →
        ∃ t, exec (.image m) s = .next t ∧ Got t m ∧ t.entries = s.entries
          ∧ ∀ a, t.kmem.byte a = (if 0x1000000000 + e.imgOff + off ≤ a ∧ a < 0x1000000000 + e.imgOff + off + bs.length
              then bs.getD (a - (0x1000000000 + e.imgOff + off)) 0#8 else s.kmem.byte a))
    ∧ (∀ e x, KeeperIn s m 0x04 l [] → Shadow s m l e x → x.step = 1 →
        ∃ t, exec (.reserve m) s = .next t ∧ Got t m ∧ EntryIs t l (fun d => d.multi = some { x with step := 2 }) ∧ MachineSame s t)
    ∧ (∀ e x d r, KeeperIn s m 0x05 l [] → AtHome s l e x → x.step = 2 → (e.st = .queued ∨ e.st = .dispatching) → x.left = m.src :: d :: r → d ∉ [m.src, s.sec.module] →
        ∃ t, exec (.reserved m) s = .next t ∧ Got t m ∧ EntryIs t l (fun y => y.st = .dispatching ∧ y.multi = some { x with left := d :: (r.filter fun k => k != m.src) })
          ∧ Answers t d 4 l [] ∧ MachineSame s t)
    ∧ (∀ e x, KeeperIn s m 0x06 l [] → Shadow s m l e x → x.step = 2 → e.st = .dispatching → e.tiles.Nodup →
        (((arrived s m).updMulti l fun y => { y with bad := 1 }).placeEntry { e with multi := some { x with bad := 1 } } (s.firstIndex e.rec_)).isSome = true →
        ∃ t, exec (.place m) s = .next t ∧ Got t m ∧ PlacedOn s t e (s.firstIndex e.rec_) ∧ t.ctxs = s.ctxs)
    ∧ (∀ e x, KeeperIn s m 0x07 l [] → AtHome s l e x → x.step = 3 → x.left = [m.src] → e.kill = false → e.early = none →
        ∃ t, exec (.placed m) s = .next t ∧ Got t m ∧ EntryIs t l (fun d => d.st = .running ∧ d.resident = true ∧ d.multi = some { x with left := [], step := 4 }) ∧ MachineSame s t)
    ∧ (∀ e reason cause exit, KeeperIn s m 0x08 l (leBytes 1 reason ++ leBytes 1 cause ++ leBytes 2 0 ++ leBytes 4 exit) → reason < 256 → cause < 256 → exit < 2 ^ 32 →
        s.entry l = some e → e.lseq ≠ 0 → m.src ∈ s.memberList e.rec_ → e.st = .running → (∀ d ∈ s.entries, d.st ≠ .queued) → s.entries.length < 4096 →
        ∃ t, exec (.stopped m) s = .next t ∧ Got t m ∧ EntryIs t l (fun d => d.st = .done ∧ d.outcome = (if reason = 3 then .double else .exited)
          ∧ d.exit.toNat = exit ∧ d.cause.toNat = cause ∧ d.resident = false))
    ∧ (∀ e x, KeeperIn s m 0x09 l (leBytes 1 3 ++ leBytes 7 0) → Shadow s m l e x → m.src ≠ s.sec.module →
        ∃ t, exec (.endMsg m) s = .next t ∧ Got t m ∧ t.entry l = none ∧ Answers t m.src 0x0A l [] ∧ MachineSame s t)
    ∧ (∀ e x, KeeperIn s m 0x0A l [] → AtHome s l e x →
        (x.step ≠ 9 → ∃ t, exec (.ended m) s = .next t ∧ Got t m ∧ MachineSame s t ∧ EntryIs t l (fun d => d = e))
        ∧ (x.step = 9 → (e.kill = false ∨ e.tiles ≠ [] ∨ (x.left.filter fun k => k != m.src) ≠ []) →
            ∃ t, exec (.ended m) s = .next t ∧ Got t m ∧ MachineSame s t
              ∧ EntryIs t l (fun d => d = { e with multi := some { x with left := x.left.filter fun k => k != m.src } }))
        ∧ (x.step = 9 → e.kill = true → e.tiles = [] → (x.left.filter fun k => k != m.src) = [] → (∀ d ∈ s.entries, d.st ≠ .queued) → s.entries.length < 4096 →
            ∃ t, exec (.ended m) s = .next t ∧ Got t m ∧ MachineSame s t ∧ EntryIs t l (fun d => d.st = .cancelled ∧ d.outcome = .cancelledRunning)))
    ∧ (∀ e, KeeperIn s m 0x0B l ops → ops.length = 32 → leNat ((ops.drop 31).take 1) = 0 → s.entry l = some e → e.lseq ≠ 0 →
        ∃ t, exec (.knot m) s = .next t ∧ Got t m ∧ MachineSame s t ∧ EntryIs t l (fun d => d.knots = min (e.knots + 1) (2 ^ 32 - 1)
          ∧ ∃ k, d.log.getLast? = some k ∧ k.lseq = e.lseq ∧ k.ctxid.toNat = leNat ((ops.drop 8).take 8) ∧ k.seq = leNat ((ops.drop 16).take 8)
            ∧ k.word.toNat = leNat ((ops.drop 24).take 4) ∧ k.reached = leNat ((ops.drop 28).take 2) ∧ d.log.length ≤ 64))

/-- R418 items 6 to 8, R236, R219: the KEEPER messages that switch, restore and join a launch on several modules. SWITCH asks a member's contexts to stop; SWITCHED counts a module's judgement; COMMITSAVE with OK parks the member's part and without it lets it go on; RESTORE restores a reserved part whose tiles can be reached, or is kept until they can, and is answered with RESTORED, the last of which makes the entry run; JOIN is answered with whether the far record joins back an endpoint that is not CLOSED (log entry 84); JOINED settles the endpoint that asked; PARK puts a queued or parked launch first. Of several refusals the first decides (log entry 67). -/
def Obligations.SwitchMessages : Prop :=
  ∀ (s : State) (m : MsgIn) (l : Word),
    (∀ e x, KeeperIn s m 0x0C l [] → Shadow s m l e x → x.home ≠ s.sec.module → e.st = .running → e.resident = true →
      ∃ t, exec (.switch m) s = .next t ∧ Got t m ∧ EntryIs t l (fun d => d.switching = true ∧ d.multi = some { x with step := 5 } ∧ d.resident = true)
        ∧ ∀ c, (t.ctx c).x = (s.ctx c).x)
    ∧ (∀ e x d r st need, KeeperIn s m 0x0D l (leBytes 1 st ++ leBytes 7 0 ++ leBytes 8 need) → AtHome s l e x → x.step = 5 → e.st = .running → x.left = m.src :: d :: r →
        d ≠ m.src → st < 256 → need < 2 ^ 64 → x.bad ≤ 1 →
      ∃ t, exec (.switched m) s = .next t ∧ Got t m ∧ MachineSame s t ∧ EntryIs t l (fun y => y.multi = some { x with
          left := d :: (r.filter fun k => k != m.src), bad := st, need := if st = 1 then max x.need need else need }))
    ∧ (∀ e x, KeeperIn s m 0x0E l (leBytes 8 1) → Shadow s m l e x → x.home ≠ s.sec.module → e.switching = true → e.kill = false →
      ∃ t, exec (.commitsave m) s = .next t ∧ Got t m ∧ EntryIs t l (fun d => d.switching = false ∧ d.resident = false ∧ d.multi = some { x with step := 6 }))
    ∧ (∀ e x, KeeperIn s m 0x0E l (leBytes 8 0) → Shadow s m l e x → x.home ≠ s.sec.module → e.switching = true → e.kill = false →
      ∃ t, exec (.commitsave m) s = .next t ∧ Got t m ∧ EntryIs t l (fun d => d.switching = false ∧ d.resident = e.resident ∧ d.multi = some { x with step := 4 })
        ∧ ∀ c, (t.ctx c).x = (s.ctx c).x)
    ∧ (∀ e x v, KeeperIn s m 0x0F l [] → Shadow s m l e x → x.home ≠ s.sec.module → x.step = 8 → e.saved = some v →
      (s.tilesUp e = true → ∃ t, exec (.restore m) s = .next t ∧ Got t m ∧ Answers t m.src 0x10 l []
        ∧ EntryIs t l (fun d => d.resident = true ∧ d.saved = none ∧ d.multi = some { x with step := 4, bad := 0 }))
      ∧ (s.tilesUp e = false → ∃ t, exec (.restore m) s = .next t ∧ Got t m ∧ MachineSame s t ∧ EntryIs t l (fun d => d = { e with multi := some { x with bad := 1 } })))
    ∧ (∀ e x, KeeperIn s m 0x10 l [] → AtHome s l e x → x.step = 8 → x.left = [m.src] →
      ∃ t, exec (.restored m) s = .next t ∧ Got t m ∧ MachineSame s t ∧ EntryIs t l (fun d => d.multi = some { x with left := [], step := 4 }))
    ∧ (∀ ep pep far, KeeperIn s m 0x11 l (leBytes 2 ep ++ leBytes 2 pep ++ leBytes 4 0 ++ leBytes 8 far) → ep < 2 ^ 16 → pep < 2 ^ 16 → far < 2 ^ 64 →
      ∃ t closed, exec (.join m) s = .next t ∧ Got t m ∧ MachineSame s t ∧ t.entries = s.entries ∧ Answers t m.src 0x12 l (leBytes 1 closed ++ leBytes 7 0)
        ∧ (closed = 0 ↔ FarThere s (BitVec.ofNat 64 far) pep ep l) ∧ closed ≤ 1)
    ∧ (∀ e c p closed, KeeperIn s m 0x12 l (leBytes 1 closed ++ leBytes 7 0) → closed ≤ 1 → s.entry l = some e → e.rec_.chans = [c] → e.eps.find c.ep = some p → p.joining = true →
        s.homeOf p.ptag = m.src →
      ∃ t, exec (.joined m) s = .next t ∧ Got t m ∧ t.ep l c.ep = some (if closed = 1 then farClosed { p with joining := false } else { p with joining := false }) ∧ MemSame s t)
    ∧ (∀ e, KeeperIn s m 0x13 l [] → s.listed l = some e → (e.st = .queued ∨ (e.st = .running ∧ e.resident = false)) →
      ∃ t, exec (.park m) s = .next t ∧ Got t m ∧ MachineSame s t ∧ t.listed l = some { e with hot := true })

/-- R414, R415, R416, R218, R221: messages of the channel units in their turn. OFFER of a word stands at its endpoint, and its withdrawal takes it away and is answered with COMMIT 1; COMMIT 0 of a word completes the send with its status; DATA bytes join what the job that receives them holds, poisoned bytes as poisoned; CLOSE closes the endpoint; a query that reaches a context that is not blocked is answered ACTIVE, and an ACTIVE answer ends the computation. -/
def Obligations.ChannelMessages : Prop :=
  ∀ (s : State) (m : MsgIn) (l : Word) (e oid : Nat), e < 1024 → oid < 2 ^ 32 →
    (∀ x p (d : Word), InTurn s m 2 → m.body = leBytes 8 l.toNat ++ leBytes 2 e ++ leBytes 2 0 ++ leBytes 4 oid ++ leBytes 8 d.toNat →
      s.entry l = some x → x.eps.find e = some p → (∀ h, p.st ≠ .closed h) →
      ∃ t, exec (.offer m) s = .next t ∧ Got t m ∧ MachineSame s t ∧ t.entries = s.entries
        ∧ t.remotes = s.remotes ++ [{ src := m.src, ltag := l, ep := e, kind := .word, oid := oid, data := d }])
    ∧ (∀ p, InTurn s m 2 → m.body = leBytes 8 l.toNat ++ leBytes 2 e ++ leBytes 2 128 ++ leBytes 4 oid →
      s.ep l e = some p → p.pep < 2 ^ 16 →
      ∃ t, exec (.offer m) s = .next t ∧ Got t m ∧ MachineSame s t
        ∧ (∀ r, r ∈ t.remotes ↔ r ∈ s.remotes ∧ ¬ (r.src = m.src ∧ r.oid = oid))
        ∧ LastSent t m.src 3 (leBytes 8 p.ptag.toNat ++ leBytes 2 p.pep ++ leBytes 1 1 ++ leBytes 1 0 ++ leBytes 4 oid ++ leBytes 4 0))
    ∧ (∀ c p o rd status, InTurn s m 3 → m.body = leBytes 8 l.toNat ++ leBytes 2 e ++ leBytes 1 0 ++ leBytes 1 status ++ leBytes 4 oid ++ leBytes 4 0 → status < 256 →
      s.offering l e oid = some (c, p, o) → p.op = .send rd → o.kind = .word → (oid, m.src) ∈ p.away →
      ∃ t, exec (.commit m) s = .next t ∧ Got t m ∧ MemSame s t
        ∧ ChanDone s t c (fun r => if r = rd then Reg.clean (BitVec.ofNat 64 status) else (s.ctx c).getX r))
    ∧ (∀ off bs, InTurn s m 1 → m.body = leBytes 4 oid ++ leBytes 4 0 ++ leBytes 8 off ++ bs → off < 2 ^ 64 → (∀ i ∈ s.inbound, ¬ (i.src = m.src ∧ i.oid = oid)) →
      ∃ t, exec (.data m) s = .next t ∧ Got t m ∧ MemSame s t ∧ t.ctxs = s.ctxs
        ∧ ∀ k, (t.tile k).eng.pq = (s.tile k).eng.pq.map fun j =>
            if j.kind = .recv (.module m.src oid) ∧ off + j.desc.start = j.pos + j.got.length then
              { j with got := j.got ++ bs.zipIdx.map fun y => (y.1, m.marks.contains (16 + y.2)) } else j)
    ∧ (∀ p, InTurn s m 4 → m.body = leBytes 8 l.toNat ++ leBytes 2 e ++ leBytes 6 0 → s.ep l e = some p →
      ∃ t, exec (.close m) s = .next t ∧ Got t m ∧ MemSame s t ∧ t.ep l e = some (farClosed p))
    ∧ (∀ n tag d c, s.probes[n]? = some (.query tag d (.here c)) → s.clocked (d / 16) = true → (s.ctx d).blocked = false → (s.ctx d).comp = none → (s.ctx d).engaged = [] →
      ∃ t, exec (.probeQuery n none) s = .next t ∧ { t with probes := s.probes } = s ∧ t.probes = s.probes.eraseIdx n ++ [.answer tag c 1 0])
    ∧ (∀ n tag c reach r, s.probes[n]? = some (.answer tag c 1 reach) → s.clocked (c / 16) = true → (s.ctx c).comp = some r → r.tag = tag →
      ∃ t, exec (.answer n none) s = .next t ∧ t.probes = s.probes.eraseIdx n ∧ t.ctx c = { s.ctx c with comp := none } ∧ (∀ d, d ≠ c → t.ctx d = s.ctx d) ∧ MemSame s t)

/-- R410 to R414: link events. An acknowledgement frees the messages it covers; ACK_TIMER sends an EACK that is owed; RESEND_TIMER sends every kept message again, one flit for each 32 bytes, at once while fewer than 2,048 flits are unacknowledged; a link in training comes UP or goes DOWN, and a DOWN one trains again; a NAK counts a replay and keeps what must come again, the sixteenth in a row retrains the link, at the end that sends it too; a refused flit is answered with NAK; a flit for another module goes on, waits for a path, or is dropped when no link is usable. The window's wait, the NAK's empty payload and its not being repeated are as log entry 30 reads them. -/
def Obligations.LinkEvents : Prop :=
  ∀ (s : State) (n : Nat), n < 16 → s.linksRun = true → s.sec.module < 512 → (s.link n).tx < 4096 →
    (∀ m, Comes s m 7 → m.mseq = 0 → m.flits.length = 1 → ∃ t, exec (.ack m) s = .next t ∧ MachineSame s t ∧ t.entries = s.entries
        ∧ t.peers.get m.src {} = { s.peers.get m.src {} with kept := (s.peers.get m.src {}).kept.filter fun x => decide (m.eack < x.1) }
        ∧ ∀ d, d ≠ m.src → t.peers.get d {} = s.peers.get d {})
    ∧ (∀ m, m < 512 → s.path m = some n → (s.peers.get m {}).owed = true → LinkRoom (s.link n) → ∃ t, exec (.ackTimer m) s = .next t
        ∧ t.peers.get m {} = { s.peers.get m {} with owed := false } ∧ MachineSame s t
        ∧ FlitPut (s.link n) (t.link n) s.sec.module m 7 (leBytes 8 0 ++ leBytes 8 (s.peers.get m {}).got ++ leBytes 2 0 ++ [1#8, 0#8])
        ∧ ∀ j, j ≠ n → t.link j = s.link j)
    ∧ (∀ m flits, s.path m = some n → flits = ((s.peers.get m {}).kept.map fun x => flitCount x.2.body).sum →
        ∃ t, exec (.resendTimer m) s = .next t ∧ t.peers = s.peers ∧ MachineSame s t ∧ (∀ j, j ≠ n → t.link j = s.link j)
        ∧ (t.link n).kept.length + (t.link n).unsent.length = (s.link n).kept.length + (s.link n).unsent.length + flits
        ∧ ((s.link n).unsent = [] → (s.link n).kept.length + flits ≤ 2048 → (t.link n).unsent = [] ∧ (t.link n).tx = ((s.link n).tx + flits) % 4096))
    ∧ ((s.link n).st = .training → ∃ t, exec (.linkUp n) s = .next t ∧ (t.link n).st = .up ∧ (t.link n).naks = 0 ∧ (t.link n).refused = 0
        ∧ (∀ j, j ≠ n → (t.link j).st = (s.link j).st) ∧ MachineSame s t)
    ∧ ((s.link n).st = .training → ∃ t, exec (.linkTrainingTimeout n) s = .next t ∧ OnlyLink s t n { s.link n with st := .down })
    ∧ ((s.link n).st = .down → ∃ t, exec (.linkRetry n) s = .next t ∧ OnlyLink s t n { s.link n with st := .training })
    ∧ (∀ f g r, (s.link n).st = .up → (s.link n).kept = g :: r → g.ftag ≠ f → (∃ x ∈ r, x.ftag = f) → s.transit = [] →
        ∃ t, exec (.nak n f) s = .next t ∧ OnlyLink s t n { s.link n with
          replays := min ((s.link n).replays + 1) 0xFFFF, naks := 1, kept := r.dropWhile fun x => decide (x.ftag ≠ f) })
    ∧ (∀ g r, (s.link n).st = .up → (s.link n).kept = g :: r → (s.link n).naks = 15 →
        ∃ t, exec (.nak n g.ftag) s = .next t ∧ (t.link n).st = .training ∧ (t.link n).retrains = min ((s.link n).retrains + 1) (2 ^ 32 - 1) ∧ MachineSame s t)
    ∧ (∀ f : Flit, (s.link n).st = .up → (f.crcOk = false ∨ f.ftag ≠ (s.link n).rx ∨ 9 < f.kind ∨ f.low ≠ 0) → ((s.link n).waiting = false ∨ f.ftag = (s.link n).rx) → s.transit = [] →
        (LinkRoom (s.link n) → (s.link n).refused < 15 → ∃ t, exec (.flitRejected n f) s = .next t ∧ OnlyLink s t n (t.link n) ∧ (t.link n).waiting = true
          ∧ (t.link n).st = .up ∧ (t.link n).refused = (s.link n).refused + 1 ∧ FlitPut (s.link n) (t.link n) s.sec.module f.src 8 [])
        ∧ ((s.link n).refused = 15 → ∃ t, exec (.flitRejected n f) s = .next t ∧ (t.link n).st = .training ∧ (t.link n).refused = 0
          ∧ (t.link n).retrains = min ((s.link n).retrains + 1) (2 ^ 32 - 1) ∧ MachineSame s t))
    ∧ (∀ (m : MsgIn) (f : Flit) (k : Link), m.flits = [f] → m.link < 16 → (s.link m.link).st = .up → Link.hear [f] (s.link m.link) = some k →
        f.dest ≠ s.sec.module → f.kind ≠ 0 → f.kind ≠ 8 → f.len ≤ 52 →
        ((s.routes.get f.dest 0#10).toNat < 256 → ∃ t, exec (.transitFlit m) s = .next t ∧ OnlyLink s t m.link k)
        ∧ (s.path f.dest = some n → n ≠ m.link → LinkRoom (s.link n) → ∃ t, exec (.transitFlit m) s = .next t
            ∧ FlitPut (s.link n) (t.link n) f.src f.dest f.kind f.payload ∧ t.link m.link = k ∧ (∀ j, j ≠ n → j ≠ m.link → t.link j = s.link j)
            ∧ MachineSame s t ∧ t.transit = s.transit)
        ∧ (256 ≤ (s.routes.get f.dest 0#10).toNat → s.path f.dest = none →
            ∃ t, exec (.transitFlit m) s = .next t ∧ t.transit = s.transit ++ [f] ∧ t.link m.link = k ∧ (∀ j, j ≠ m.link → t.link j = s.link j)
              ∧ { t with transit := s.transit, links := s.links } = s))

/-- R419, R420, R425, R239: a good command at an address and the port of the ports runs once; a datagram elsewhere has no effect. While the part is locked a command is answered 0x43 and while no keeper core runs 0x42; a request number at or below the highest run is answered from the kept replies, or STALE. None of these changes anything else. The order of the refusals, and that their answers are not kept, are as log entry 28 reads them. R419, R421, R424: a datagram that is no command is answered 0x47, or as every command is while the part is locked or no keeper core runs. An RDMA packet under the key of a held region lands there, and no other byte changes, a First or Middle letting its WRITE go on; without a region it is refused, and a packet outside the subset puts its queue pair into error, which then takes none; a CE mark is answered with a Congestion Notification Packet. The oldest report is answered with its signature under some salt, whose bytes the rules leave open (log entry 74), and the identity's modulus. -/
def Obligations.CommandsRunOnce : Prop :=
  (∀ (i : Instr) (s : State) (op : Nat) (q : HostReq), commandOp i = some (op, q) → reqGood q = true → q.op.toNat = op →
    (¬ Addressed s q → exec i s = .next s)
    ∧ (Addressed s q → s.sec.locked = true → ∃ t, exec i s = .next t ∧ t = { s with sent := s.sent ++ [(q.source, datagram q 0x43 [])] })
    ∧ (Addressed s q → s.sec.locked = false → s.kstopped = 0xF#4 → ∃ t, exec i s = .next t ∧ t = { s with sent := s.sent ++ [(q.source, datagram q 0x42 [])] })
    ∧ (Addressed s q → s.sec.locked = false → s.kstopped ≠ 0xF#4 → q.reqid.toNat < (s.hosts.get q.source {}).next →
        (∀ r, (s.hosts.get q.source {}).replies.find? (fun r => r.reqid == q.reqid) = some r →
          ∃ t, exec i s = .next t ∧ t = { s with sent := s.sent ++ [(q.source, replyBytes r.op.toNat r.reqid r.status r.body)] })
        ∧ ((∀ r ∈ (s.hosts.get q.source {}).replies, r.reqid ≠ q.reqid) →
          ∃ t, exec i s = .next t ∧ t = { s with sent := s.sent ++ [(q.source, datagram q 0x44 [])] })))
  ∧ (∀ (s : State),
    (∀ q, Addressed s q → reqGood q = false → ∃ t, exec (.badCommand q) s = .next t ∧ t = { s with sent := s.sent ++
        [(q.source, datagram q (if s.sec.locked = true then 0x43 else if s.kstopped = 0xF#4 then 0x42 else 0x47) [])] })
    ∧ (∀ (w : RdmaWrite) (key : Nat), s.sec.up = true → w.port < 2 → w.qp < 64 → key = 64 * w.port + w.qp →
        (key ∈ s.qperr → ∃ t, exec (.rdmaWrite w) s = .next t ∧ t = { s with acks := acksSeen s key w })
        ∧ (key ∉ s.qperr → ¬ PacketOk s key w → ∃ t, exec (.rdmaWrite w) s = .next t
            ∧ (∀ j, j ∈ t.qperr ↔ j = key ∨ j ∈ s.qperr) ∧ t.acks = acksSeen s key w ++ [(key, .invalidRequest)]
            ∧ t.qpruns.find key = none ∧ { t with qperr := s.qperr, acks := s.acks, qpruns := s.qpruns } = s)
        ∧ (∀ r run, key ∉ s.qperr → PacketOk s key w → PacketAt s key w run → r ∈ s.regions → Staged r run w.bytes.length → MemOk s →
            ∃ t, exec (.rdmaWrite w) s = .next t ∧ t.acks = acksSeen s key w ++ [(key, .ack)]
              ∧ t.qpruns.find key = (if w.op = .first ∨ w.op = .middle then some { run with addr := run.addr + 4096 } else none)
              ∧ (∀ j, j ≠ key → t.qpruns.find j = s.qpruns.find j) ∧ { t with kmem := s.kmem, acks := s.acks, qpruns := s.qpruns } = s
              ∧ ∀ a, t.kmem.byte a = if run.addr ≤ a ∧ a < run.addr + w.bytes.length then w.bytes.getD (a - run.addr) 0#8 else s.kmem.byte a)
        ∧ (∀ run, key ∉ s.qperr → PacketOk s key w → PacketAt s key w run → (∀ r ∈ s.regions, ¬ Staged r run w.bytes.length) →
            ∃ t, exec (.rdmaWrite w) s = .next t ∧ t.acks = acksSeen s key w ++ [(key, .remoteAccess)]
              ∧ t.qpruns.find key = none ∧ { t with acks := s.acks, qpruns := s.qpruns } = s))
    ∧ (∀ src reqid rep r salt, s.sec.signing = (src, reqid, rep) :: r → s.keeperUp = true → ∃ t, exec (.reportSigned salt) s = .next t
        ∧ t.sec = { s.sec with signing := r } ∧ t.sent = s.sent ++ [(src, replyBytes 7 reqid 0 (rep ++ s.signature rep salt ++ s.sec.modulus))]
        ∧ (s.signature rep salt).length = 512 ∧ MachineSame s t))

/-- R419 to R421, R230 to R232, R238, R391, R424: what each command does when it runs. STAGE takes a free range of staging memory; SUBMIT answers what the record's checks say, or accepts the launch with the next LSEQ; CANCEL of a queued launch ends it, and one of a launch that is being placed marks it; QUERY and KNOTLOG give the entry and its knot records; FLOOR sets the ballast floor; ATTEST begins a report when an identity is held; RELEASE lets a region go, at once when no launch from it is left. -/
def Obligations.CommandsTakeEffect : Prop :=
  ∀ (s : State) (q : HostReq),
    (∀ off, Runs s 1 q → s.sweep.freeRange (payloadAt q 0) = some off →
      ∃ t key, exec (.stage q) s = .next t ∧ Replied s t q 0 (leBytes 8 off ++ leBytes 4 key.toNat) ∧ MachineSame s t
        ∧ t.regions = s.sweep.regions ++ [{ off := off, size := payloadAt q 0, rkey := key }])
    ∧ (Runs s 1 q → s.sweep.freeRange (payloadAt q 0) = none → ∃ t, exec (.stage q) s = .next t ∧ Replied s t q 0x45 [] ∧ t.regions = s.sweep.regions ∧ MachineSame s t)
    ∧ (∀ r bs, Runs s 2 q → s.sweep.regionWith (payloadAt q 0) 64 = some r → bs = s.recordAt (payloadAt q 0) →
        payloadAt q 0 + bs.length ≤ r.off + r.size → r.off ≤ payloadAt q 8 → payloadAt q 8 + payloadAt q 16 ≤ r.off + r.size →
        (s.recordStatus bs (payloadAt q 16) false ≠ 0 →
          ∃ t, exec (.submit q) s = .next t ∧ Replied s t q (s.recordStatus bs (payloadAt q 16) false) [] ∧ t.entries = s.entries ∧ MachineSame s t)
        ∧ (s.recordStatus bs (payloadAt q 16) false = 0 → (launchOf bs).modules ≤ 1 → (launchOf bs).preds = [] →
          ∃ t e, exec (.submit q) s = .next t ∧ Replied s t q 0 (leBytes 8 s.nextLseq) ∧ t.nextLseq = s.nextLseq + 1
            ∧ e ∈ t.entries ∧ e.lseq = s.nextLseq ∧ e.rec_ = launchOf bs ∧ e.bytes = bs ∧ e.st = .queued ∧ e.outcome = .none ∧ e.multi = none))
    ∧ (Runs s 2 q → s.sweep.regionWith (payloadAt q 0) 64 = none → ∃ t, exec (.submit q) s = .next t ∧ Replied s t q 0x48 [] ∧ t.entries = s.entries ∧ MachineSame s t)
    ∧ (Runs s 3 q → NoDispatchDue s → s.listed (BitVec.ofNat 64 (payloadAt q 0)) = none → ∃ t, exec (.cancel q) s = .next t ∧ Replied s t q 0x41 [] ∧ t.entries = s.entries)
    ∧ (∀ e, Runs s 3 q → NoDispatchDue s → s.listed (BitVec.ofNat 64 (payloadAt q 0)) = some e → e.isEnded = true → ∃ t, exec (.cancel q) s = .next t ∧ Replied s t q 0x40 [] ∧ t.entries = s.entries)
    ∧ (∀ e, Runs s 3 q → NoDispatchDue s → s.listed (BitVec.ofNat 64 (payloadAt q 0)) = some e → e.st = .queued → s.entries.length < 4096 →
        (∀ d ∈ s.entries, d.st = .queued → d.rec_.ltag = e.rec_.ltag) → s.entry e.rec_.ltag = some e →
        ∃ t, exec (.cancel q) s = .next t ∧ Replied s t q 0 [] ∧ EntryIs t e.rec_.ltag (fun d => d.st = .cancelled ∧ d.outcome = .cancelledQueued ∧ d.lseq = e.lseq))
    ∧ (∀ e, Runs s 3 q → NoDispatchDue s → s.listed (BitVec.ofNat 64 (payloadAt q 0)) = some e → e.st = .dispatching → s.entry e.rec_.ltag = some e →
        ∃ t, exec (.cancel q) s = .next t ∧ Replied s t q 0 [] ∧ EntryIs t e.rec_.ltag (fun d => d = { e with kill := true }) ∧ MachineSame s t)
    ∧ (∀ e, Runs s 4 q → s.listed (BitVec.ofNat 64 (payloadAt q 0)) = some e → e.lseq < 2 ^ 64 →
        ∃ t b, exec (.query q) s = .next t ∧ Replied s t q 0 b ∧ b.length = 32 ∧ leNat (b.take 8) = e.lseq ∧ leNat ((b.drop 8).take 8) = e.rec_.ltag.toNat
          ∧ leNat ((b.drop 16).take 1) = e.st.num ∧ leNat ((b.drop 18).take 1) = e.outcome.num ∧ leNat ((b.drop 20).take 4) = e.exit.toNat
          ∧ leNat ((b.drop 28).take 1) = e.cause.toNat ∧ t.entries = s.entries ∧ MachineSame s t)
    ∧ (∀ e, Runs s 5 q → s.listed (BitVec.ofNat 64 (payloadAt q 0)) = some e →
        ∃ t b, exec (.knotlog q) s = .next t ∧ Replied s t q 0 b ∧ b.length = 32 * e.log.length ∧ t.entries = s.entries ∧ MachineSame s t
          ∧ ∀ n k, e.log[n]? = some k → leNat ((b.drop (32 * n + 8)).take 8) = k.ctxid.toNat ∧ leNat ((b.drop (32 * n + 24)).take 4) = k.word.toNat)
    ∧ (Runs s 6 q → ∃ t, exec (.floor q) s = .next t ∧ Replied s t q 0 [] ∧ t.floor.toNat = leNat (q.payload.take 2) ∧ MachineSame s t ∧ t.entries = s.entries)
    ∧ (Runs s 7 q → (s.sec.ident = false → ∃ t, exec (.attest q) s = .next t ∧ Replied s t q 0x46 [] ∧ t.sec = s.sec ∧ MachineSame s t)
        ∧ (s.sec.ident = true → ∃ t rep, exec (.attest q) s = .next t ∧ t.sent = s.sent ∧ t.sec = { s.sec with signing := s.sec.signing ++ [(q.source, q.reqid, rep)] }
            ∧ rep = q.payload ++ s.sec.fw ++ leBytes 8 s.sec.seq.toNat ++ leBytes 2 s.sec.module ++ leBytes 1 (if s.sec.lock = true then 1 else 0)
              ++ leBytes 1 (s.cores.map fun kv => kv.2.retired.length).sum ++ leBytes 4 s.sec.alarms ++ (sha512 s.sec.modulus).take 48 ∧ MachineSame s t))
    ∧ (Runs s 8 q → ((∀ r ∈ s.sweep.regions, r.host = true → r.off ≠ payloadAt q 0) → ∃ t, exec (.release q) s = .next t ∧ Replied s t q 0x48 [] ∧ MachineSame s t)
        ∧ ((∃ r ∈ s.sweep.regions, r.host = true ∧ r.off = payloadAt q 0) → (∀ e ∈ s.entries, e.isEnded = false → e.region ≠ payloadAt q 0) →
            ∃ t, exec (.release q) s = .next t ∧ Replied s t q 0 [] ∧ MachineSame s t
              ∧ ∀ r, r ∈ t.regions ↔ r ∈ s.sweep.regions ∧ ¬ (r.host = true ∧ r.off = payloadAt q 0)))

/-- R422, R423, R425, R401: reset stops the module when its contents do not verify; else it takes its policy, addresses and routes from the record's fields, retires the listed segments, holds an identity when the PUF gives a seed, and starts slot 0 of the four keeper cores at M; memory keeps what HBM4 holds, and no other context runs. A security alarm is counted; without POLICY.LOCK it erases the identity, with it the part is locked and every tile context whose vector queue is empty stops. That memory is kept is as log entry 42 reads it. -/
def Obligations.ResetAndAlarms : Prop :=
  ∀ (s : State),
    (∀ b : BootInput, ¬ BootVerifies b → ∃ t, exec (.deviceReset b) s = .next t ∧ t.sec = { halted := true } ∧ t.entries = [] ∧ t.regions = []
        ∧ (∀ k a, (t.tile k).mem.byte a = (s.tile k).hbm.byte a) ∧ t.kmem = s.kmem)
    ∧ (∀ (b : BootInput) (f : Nat → Nat → Nat), BootVerifies b → (∀ off n, f off n = leNat ((b.record.drop off).take n)) → ∃ t, exec (.deviceReset b) s = .next t
        ∧ t.sec.up = true ∧ t.sec.locked = false ∧ t.sec.module = f 6 2 ∧ t.sec.domain = f 8 2 ∧ (t.sec.lock = true ↔ f 0x0A 1 = 1)
        ∧ t.sec.addrs = [f 0x18 16, f 0x28 16] ∧ t.sec.seq.toNat = f 0x10 8 ∧ t.sec.fw = sha512 b.firmware
        ∧ t.sec.ident = b.seed.isSome ∧ (∀ x, b.seed = some x → t.sec.seed = x) ∧ t.sec.alarms = 0 ∧ t.entries = [] ∧ t.nextLseq = 1 ∧ t.regions = []
        ∧ (∀ n, n < 512 → t.routes.get n 0#10 = BitVec.ofNat 10 (f (0x38 + 8 * n) 8))
        ∧ (∀ n w, n < f 0x0B 1 → w = f (0x1038 + 4 * n) 4 → w % 512 ∈ (t.core (8 * (w / 2 ^ 12 % 256) + w / 2 ^ 9 % 8)).retired)
        ∧ (∀ k, k < 4 → (t.ctx (32768 + 16 * k)).slot = .running ∧ (t.ctx (32768 + 16 * k)).priv = 3#2)
        ∧ (∀ c, c < 32768 → t.ctx c = Ctx.free) ∧ (∀ k a, (t.tile k).mem.byte a = (s.tile k).hbm.byte a) ∧ t.kmem = s.kmem)
    ∧ (s.sec.lock = false → s.sec.signing = [] → ∃ t, exec .securityAlarm s = .next t
        ∧ t.sec = { s.sec with alarms := min (s.sec.alarms + 1) (2 ^ 32 - 1), ident := false, seed := [], modulus := [] } ∧ MachineSame s t ∧ t.entries = s.entries)
    ∧ (s.sec.lock = true → s.sec.signing = [] → (∀ e ∈ s.entries, e.multi = none) → ∃ t, exec .securityAlarm s = .next t
        ∧ t.sec = { s.sec with alarms := min (s.sec.alarms + 1) (2 ^ 32 - 1), locked := true }
        ∧ (∀ c, c < 32768 → (s.ctx c).slot = .running → (∀ k p, s.core (c / 16) = k → k.partOf (c % 16) = some p → p.fly = [] ∧ p.queue = []) → (t.ctx c).slot = .stopped .halted)
        ∧ (∀ c, 32768 ≤ c → (t.ctx c).slot = (s.ctx c).slot) ∧ MemSame s t)

/-- R30 to R48: words that the spec writes out beside their assembly text, one for each of many formats, and the instructions they stand for. -/
def Obligations.DecodeWords : Prop :=
  decode 0x28453002#32 = some (.cmplt 2#3 5#5 6#5)
    ∧ decode 0xFD690000#32 = some (.pfx 2#3 1#1 1#1 9#5)
    ∧ decode 0x08E70001#32 = some (.addi 7#5 7#5 1#16)
    ∧ decode 0x24A20001#32 = some (.lih 5#5 2#2 1#16)
    ∧ decode 0x68C5C008#32 = some (.ld 6#5 5#5 0#1 8#12)
    ∧ decode 0x714B6780#32 = some (.acas 10#5 11#5 12#5 1#1 1#1 3#2)
    ∧ decode 0x78A63A80#32 = some (.fadd 5#5 6#5 7#5 2#2 1#1)
    ∧ decode 0x80450006#32 = some (.movh 2#3 5#5)
    ∧ decode 0x854B6001#32 = some (.barr 10#5 11#5 12#5)
    ∧ decode 0x89AB5003#32 = some (.chrecv 13#5 10#5 11#5)
    ∧ decode 0xA14B0000#32 = some (.vsetvl 10#5 11#5)

/-- R31 to R48: the word that encode lays out for a well-formed instruction, with any operands, decodes to that instruction. -/
def Obligations.EncodeThenDecode : Prop :=
 ∀ i : Instr, i.wf = true → ∀ w : Insn, encode i = some w → decode w = some i

/-- R31 to R48, R34: a word that decodes has no other reading: the instruction is well formed, and it encodes to that very word, so no bit of an instruction word is ignored. R33, R34: a word whose major opcode the map does not list is no instruction. -/
def Obligations.DecodeThenEncode : Prop :=
  (∀ (w : Insn) (i : Instr), decode w = some i → i.wf = true ∧ encode i = some w)
  ∧ (∀ w : Insn, w.toNat / 2 ^ 26 ∈ [0x00, 0x0B, 0x0D, 0x0E, 0x0F, 0x23, 0x24, 0x25, 0x26, 0x27, 0x2F, 0x33, 0x34, 0x35, 0x36, 0x37, 0x38, 0x39, 0x3A, 0x3B, 0x3C, 0x3D, 0x3E] →
    decode w = none)

/-- R12, R34, R50, R51: a step in which a context's slot comes round runs the instruction that the word at its pc decodes to, with the core's clock at the slot, and then what follows at the same moment happens: waits that are over end, the Innkeeper applies its rules, and the channel units settle. A word that is no instruction, or one that a keeper core lacks, raises ILLEGAL_INSN. A pending prefix whose predicate fails lets the instruction pass with no effect but its own end, and one that its word may not follow raises ILLEGAL_INSN. A step that the schedule names does the same for the core it names, and an event of the schedule is the instruction it names. The schedule, and when the channel units see what happened, are the model's own (log entries 2 and 61). R12, R109, R220: an event at the head of the schedule is the step: it is run, and the channel units settle. A row that only an issue slot reaches, an instruction word or the trap that stands in for one, is no event and does nothing there (R108). -/
def Obligations.StepRunsDecoded : Prop :=
  (∀ (s : State) (k c n : Nat) (v : State) (w : Insn) (r : List Act),
    ((s.sched = [] ∧ s.turn = some k ∧ Fetches s k c n v w) ∨ (s.sched = .issue k :: r ∧ Fetches { s with sched := r } k c n v w)) →
    (∀ i, decode w = some i → ¬ (32768 ≤ v.cur ∧ keeperMajor w) →
      (v.me.pfx = none → step s = settled execWord (exec i { v with iw := w }))
      ∧ (∀ p, v.me.pfx = some p → pfxIllegal p w = false →
          (pfxSuppresses v.me p = false → step s = settled execWord (exec i { v with iw := w }))
          ∧ (pfxSuppresses v.me p = true → step s = settled execWord (complete { v with iw := w } { v with iw := w })))
      ∧ (∀ p, v.me.pfx = some p → pfxIllegal p w = true → step s = settled execWord (exec (.illegalInsn w) { v with iw := w })))
    ∧ ((decode w = none ∨ (32768 ≤ v.cur ∧ keeperMajor w)) → step s = settled execWord (exec (.illegalInsn w) { v with iw := w })))
  ∧ (∀ (s : State) (i : Instr) (r : List Act), s.sched = .event i :: r →
    (Instr.slotOnly i = false → step s = settled execWord (exec i { s with sched := r }))
    ∧ (Instr.slotOnly i = true → step s = settled execWord (.next { s with sched := r })))

/-- R422, R28, R17: what reset leaves: one context, slot 0 of keeper core 0, RUNNING at M with no trap taken, interrupts off and no prefix pending; every other context FREE; no tile placed, every power state ON, no queue entry, no link up, and the ports not yet up. Register values that the spec does not give are the model's own (log entry 4). -/
def Obligations.ResetState : Prop :=
  State.reset.cur = 0 ∧ (State.reset.ctx 32768).slot = .running ∧ (State.reset.ctx 32768).priv = 3#2 ∧ (State.reset.ctx 32768).intrap = false
    ∧ (State.reset.ctx 32768).ie = false ∧ (State.reset.ctx 32768).pfx = none ∧ (State.reset.ctx 32768).wait = .no
    ∧ (∀ c, c ≠ 32768 → (State.reset.ctx c).slot = .free) ∧ (∀ k, (State.reset.tile k).place = none ∧ (State.reset.pwr k).st = .on)
    ∧ State.reset.entries = [] ∧ (∀ l, (State.reset.link l).st = .down) ∧ State.reset.sec.up = false ∧ State.reset.nextLseq = 1

/-- The model's own form of memory (log entry 3): reset memory has it. -/
def Obligations.ResetMemoryCanonical : Prop :=
 MemInv State.reset

/-- The model's own form of memory (log entry 3): whatever a step does, to whatever state, every memory keeps its canonical form, so that equal memories are equal data, and every line kept for HBM4 is whole. -/
def Obligations.StepKeepsMemoryCanonical : Prop :=
 ∀ s t : State, MemInv s → step s = .next t → MemInv t

/-- R24, R359: the spec gives every fault as a trap, a status or a mark, so no instruction stops the machine: whatever the state and the operands, every instruction and every event answers a next state, and so does every step. -/
def Obligations.NothingStops : Prop :=
 (∀ (i : Instr) (s : State), ∃ t, exec i s = .next t) ∧ ∀ s : State, StepSafe s
end

