-- ==== Sys2Proof/Laws/Exec.lean ====
section
/-! SUPPORT. Sys2Proof/Laws/Exec.lean: the arms of exec as equations, one for each constructor, so that no proof unfolds the dispatch. -/

namespace Sys2Proof.Machine

-- The package is also compiled as one text, where a thread for each small theorem is more than there is room for.
set_option Elab.async false

@[simp] theorem exec_add (rd : XReg) (rs1 : XReg) (rs2 : XReg) (s : State) : exec (.add rd rs1 rs2) s = execAdd rd rs1 rs2 s := rfl
@[simp] theorem exec_sub (rd : XReg) (rs1 : XReg) (rs2 : XReg) (s : State) : exec (.sub rd rs1 rs2) s = execSub rd rs1 rs2 s := rfl
@[simp] theorem exec_and (rd : XReg) (rs1 : XReg) (rs2 : XReg) (s : State) : exec (.and rd rs1 rs2) s = execAnd rd rs1 rs2 s := rfl
@[simp] theorem exec_or (rd : XReg) (rs1 : XReg) (rs2 : XReg) (s : State) : exec (.or rd rs1 rs2) s = execOr rd rs1 rs2 s := rfl
@[simp] theorem exec_xor (rd : XReg) (rs1 : XReg) (rs2 : XReg) (s : State) : exec (.xor rd rs1 rs2) s = execXor rd rs1 rs2 s := rfl
@[simp] theorem exec_andn (rd : XReg) (rs1 : XReg) (rs2 : XReg) (s : State) : exec (.andn rd rs1 rs2) s = execAndn rd rs1 rs2 s := rfl
@[simp] theorem exec_orn (rd : XReg) (rs1 : XReg) (rs2 : XReg) (s : State) : exec (.orn rd rs1 rs2) s = execOrn rd rs1 rs2 s := rfl
@[simp] theorem exec_sll (rd : XReg) (rs1 : XReg) (rs2 : XReg) (s : State) : exec (.sll rd rs1 rs2) s = execSll rd rs1 rs2 s := rfl
@[simp] theorem exec_srl (rd : XReg) (rs1 : XReg) (rs2 : XReg) (s : State) : exec (.srl rd rs1 rs2) s = execSrl rd rs1 rs2 s := rfl
@[simp] theorem exec_sra (rd : XReg) (rs1 : XReg) (rs2 : XReg) (s : State) : exec (.sra rd rs1 rs2) s = execSra rd rs1 rs2 s := rfl
@[simp] theorem exec_rol (rd : XReg) (rs1 : XReg) (rs2 : XReg) (s : State) : exec (.rol rd rs1 rs2) s = execRol rd rs1 rs2 s := rfl
@[simp] theorem exec_ror (rd : XReg) (rs1 : XReg) (rs2 : XReg) (s : State) : exec (.ror rd rs1 rs2) s = execRor rd rs1 rs2 s := rfl
@[simp] theorem exec_slt (rd : XReg) (rs1 : XReg) (rs2 : XReg) (s : State) : exec (.slt rd rs1 rs2) s = execSlt rd rs1 rs2 s := rfl
@[simp] theorem exec_sltu (rd : XReg) (rs1 : XReg) (rs2 : XReg) (s : State) : exec (.sltu rd rs1 rs2) s = execSltu rd rs1 rs2 s := rfl
@[simp] theorem exec_min (rd : XReg) (rs1 : XReg) (rs2 : XReg) (s : State) : exec (.min rd rs1 rs2) s = execMin rd rs1 rs2 s := rfl
@[simp] theorem exec_max (rd : XReg) (rs1 : XReg) (rs2 : XReg) (s : State) : exec (.max rd rs1 rs2) s = execMax rd rs1 rs2 s := rfl
@[simp] theorem exec_minu (rd : XReg) (rs1 : XReg) (rs2 : XReg) (s : State) : exec (.minu rd rs1 rs2) s = execMinu rd rs1 rs2 s := rfl
@[simp] theorem exec_maxu (rd : XReg) (rs1 : XReg) (rs2 : XReg) (s : State) : exec (.maxu rd rs1 rs2) s = execMaxu rd rs1 rs2 s := rfl
@[simp] theorem exec_clz (rd : XReg) (rs1 : XReg) (s : State) : exec (.clz rd rs1) s = execClz rd rs1 s := rfl
@[simp] theorem exec_ctz (rd : XReg) (rs1 : XReg) (s : State) : exec (.ctz rd rs1) s = execCtz rd rs1 s := rfl
@[simp] theorem exec_popc (rd : XReg) (rs1 : XReg) (s : State) : exec (.popc rd rs1) s = execPopc rd rs1 s := rfl
@[simp] theorem exec_sextB (rd : XReg) (rs1 : XReg) (s : State) : exec (.sextB rd rs1) s = execSextB rd rs1 s := rfl
@[simp] theorem exec_sextH (rd : XReg) (rs1 : XReg) (s : State) : exec (.sextH rd rs1) s = execSextH rd rs1 s := rfl
@[simp] theorem exec_sextW (rd : XReg) (rs1 : XReg) (s : State) : exec (.sextW rd rs1) s = execSextW rd rs1 s := rfl
@[simp] theorem exec_zextW (rd : XReg) (rs1 : XReg) (s : State) : exec (.zextW rd rs1) s = execZextW rd rs1 s := rfl
@[simp] theorem exec_mul (rd : XReg) (rs1 : XReg) (rs2 : XReg) (s : State) : exec (.mul rd rs1 rs2) s = execMul rd rs1 rs2 s := rfl
@[simp] theorem exec_mulhSs (rd : XReg) (rs1 : XReg) (rs2 : XReg) (s : State) : exec (.mulhSs rd rs1 rs2) s = execMulhSs rd rs1 rs2 s := rfl
@[simp] theorem exec_mulhUu (rd : XReg) (rs1 : XReg) (rs2 : XReg) (s : State) : exec (.mulhUu rd rs1 rs2) s = execMulhUu rd rs1 rs2 s := rfl
@[simp] theorem exec_mulhUs (rd : XReg) (rs1 : XReg) (rs2 : XReg) (s : State) : exec (.mulhUs rd rs1 rs2) s = execMulhUs rd rs1 rs2 s := rfl
@[simp] theorem exec_divs (rd : XReg) (rs1 : XReg) (rs2 : XReg) (s : State) : exec (.divs rd rs1 rs2) s = execDivs rd rs1 rs2 s := rfl
@[simp] theorem exec_divu (rd : XReg) (rs1 : XReg) (rs2 : XReg) (s : State) : exec (.divu rd rs1 rs2) s = execDivu rd rs1 rs2 s := rfl
@[simp] theorem exec_rems (rd : XReg) (rs1 : XReg) (rs2 : XReg) (s : State) : exec (.rems rd rs1 rs2) s = execRems rd rs1 rs2 s := rfl
@[simp] theorem exec_remu (rd : XReg) (rs1 : XReg) (rs2 : XReg) (s : State) : exec (.remu rd rs1 rs2) s = execRemu rd rs1 rs2 s := rfl
@[simp] theorem exec_addi (rd : XReg) (rs1 : XReg) (imm : BitVec 16) (s : State) : exec (.addi rd rs1 imm) s = execAddi rd rs1 imm s := rfl
@[simp] theorem exec_andi (rd : XReg) (rs1 : XReg) (imm : BitVec 16) (s : State) : exec (.andi rd rs1 imm) s = execAndi rd rs1 imm s := rfl
@[simp] theorem exec_ori (rd : XReg) (rs1 : XReg) (imm : BitVec 16) (s : State) : exec (.ori rd rs1 imm) s = execOri rd rs1 imm s := rfl
@[simp] theorem exec_xori (rd : XReg) (rs1 : XReg) (imm : BitVec 16) (s : State) : exec (.xori rd rs1 imm) s = execXori rd rs1 imm s := rfl
@[simp] theorem exec_slti (rd : XReg) (rs1 : XReg) (imm : BitVec 16) (s : State) : exec (.slti rd rs1 imm) s = execSlti rd rs1 imm s := rfl
@[simp] theorem exec_sltiu (rd : XReg) (rs1 : XReg) (imm : BitVec 16) (s : State) : exec (.sltiu rd rs1 imm) s = execSltiu rd rs1 imm s := rfl
@[simp] theorem exec_slli (rd : XReg) (rs1 : XReg) (shamt : BitVec 6) (s : State) : exec (.slli rd rs1 shamt) s = execSlli rd rs1 shamt s := rfl
@[simp] theorem exec_srli (rd : XReg) (rs1 : XReg) (shamt : BitVec 6) (s : State) : exec (.srli rd rs1 shamt) s = execSrli rd rs1 shamt s := rfl
@[simp] theorem exec_srai (rd : XReg) (rs1 : XReg) (shamt : BitVec 6) (s : State) : exec (.srai rd rs1 shamt) s = execSrai rd rs1 shamt s := rfl
@[simp] theorem exec_rori (rd : XReg) (rs1 : XReg) (shamt : BitVec 6) (s : State) : exec (.rori rd rs1 shamt) s = execRori rd rs1 shamt s := rfl
@[simp] theorem exec_lih (rd : XReg) (h : BitVec 2) (imm : BitVec 16) (s : State) : exec (.lih rd h imm) s = execLih rd h imm s := rfl
@[simp] theorem exec_cmpeq (pd : PReg) (rs1 : XReg) (rs2 : XReg) (s : State) : exec (.cmpeq pd rs1 rs2) s = execCmpeq pd rs1 rs2 s := rfl
@[simp] theorem exec_cmpne (pd : PReg) (rs1 : XReg) (rs2 : XReg) (s : State) : exec (.cmpne pd rs1 rs2) s = execCmpne pd rs1 rs2 s := rfl
@[simp] theorem exec_cmplt (pd : PReg) (rs1 : XReg) (rs2 : XReg) (s : State) : exec (.cmplt pd rs1 rs2) s = execCmplt pd rs1 rs2 s := rfl
@[simp] theorem exec_cmpge (pd : PReg) (rs1 : XReg) (rs2 : XReg) (s : State) : exec (.cmpge pd rs1 rs2) s = execCmpge pd rs1 rs2 s := rfl
@[simp] theorem exec_cmpltu (pd : PReg) (rs1 : XReg) (rs2 : XReg) (s : State) : exec (.cmpltu pd rs1 rs2) s = execCmpltu pd rs1 rs2 s := rfl
@[simp] theorem exec_cmpgeu (pd : PReg) (rs1 : XReg) (rs2 : XReg) (s : State) : exec (.cmpgeu pd rs1 rs2) s = execCmpgeu pd rs1 rs2 s := rfl
@[simp] theorem exec_pand (pd : PReg) (ps1 : PReg) (ps2 : PReg) (s : State) : exec (.pand pd ps1 ps2) s = execPand pd ps1 ps2 s := rfl
@[simp] theorem exec_por (pd : PReg) (ps1 : PReg) (ps2 : PReg) (s : State) : exec (.por pd ps1 ps2) s = execPor pd ps1 ps2 s := rfl
@[simp] theorem exec_pxor (pd : PReg) (ps1 : PReg) (ps2 : PReg) (s : State) : exec (.pxor pd ps1 ps2) s = execPxor pd ps1 ps2 s := rfl
@[simp] theorem exec_pandn (pd : PReg) (ps1 : PReg) (ps2 : PReg) (s : State) : exec (.pandn pd ps1 ps2) s = execPandn pd ps1 ps2 s := rfl
@[simp] theorem exec_porn (pd : PReg) (ps1 : PReg) (ps2 : PReg) (s : State) : exec (.porn pd ps1 ps2) s = execPorn pd ps1 ps2 s := rfl
@[simp] theorem exec_pnot (pd : PReg) (ps1 : PReg) (s : State) : exec (.pnot pd ps1) s = execPnot pd ps1 s := rfl
@[simp] theorem exec_pfromx (pd : PReg) (rs1 : XReg) (s : State) : exec (.pfromx pd rs1) s = execPfromx pd rs1 s := rfl
@[simp] theorem exec_ptox (rd : XReg) (ps1 : PReg) (s : State) : exec (.ptox rd ps1) s = execPtox rd ps1 s := rfl
@[simp] theorem exec_beq (rs1 : XReg) (rs2 : XReg) (off : BitVec 16) (s : State) : exec (.beq rs1 rs2 off) s = execBeq rs1 rs2 off s := rfl
@[simp] theorem exec_bne (rs1 : XReg) (rs2 : XReg) (off : BitVec 16) (s : State) : exec (.bne rs1 rs2 off) s = execBne rs1 rs2 off s := rfl
@[simp] theorem exec_blt (rs1 : XReg) (rs2 : XReg) (off : BitVec 16) (s : State) : exec (.blt rs1 rs2 off) s = execBlt rs1 rs2 off s := rfl
@[simp] theorem exec_bge (rs1 : XReg) (rs2 : XReg) (off : BitVec 16) (s : State) : exec (.bge rs1 rs2 off) s = execBge rs1 rs2 off s := rfl
@[simp] theorem exec_bltu (rs1 : XReg) (rs2 : XReg) (off : BitVec 16) (s : State) : exec (.bltu rs1 rs2 off) s = execBltu rs1 rs2 off s := rfl
@[simp] theorem exec_bgeu (rs1 : XReg) (rs2 : XReg) (off : BitVec 16) (s : State) : exec (.bgeu rs1 rs2 off) s = execBgeu rs1 rs2 off s := rfl
@[simp] theorem exec_bp (p : PReg) (sense : BitVec 1) (off : BitVec 16) (s : State) : exec (.bp p sense off) s = execBp p sense off s := rfl
@[simp] theorem exec_j (off : BitVec 26) (s : State) : exec (.j off) s = execJ off s := rfl
@[simp] theorem exec_jal (off : BitVec 26) (s : State) : exec (.jal off) s = execJal off s := rfl
@[simp] theorem exec_jalr (rd : XReg) (rs1 : XReg) (imm : BitVec 16) (s : State) : exec (.jalr rd rs1 imm) s = execJalr rd rs1 imm s := rfl
@[simp] theorem exec_lb (rd : XReg) (base : XReg) (aq : BitVec 1) (off : BitVec 12) (s : State) : exec (.lb rd base aq off) s = execLb rd base aq off s := rfl
@[simp] theorem exec_lbu (rd : XReg) (base : XReg) (aq : BitVec 1) (off : BitVec 12) (s : State) : exec (.lbu rd base aq off) s = execLbu rd base aq off s := rfl
@[simp] theorem exec_lh (rd : XReg) (base : XReg) (aq : BitVec 1) (off : BitVec 12) (s : State) : exec (.lh rd base aq off) s = execLh rd base aq off s := rfl
@[simp] theorem exec_lhu (rd : XReg) (base : XReg) (aq : BitVec 1) (off : BitVec 12) (s : State) : exec (.lhu rd base aq off) s = execLhu rd base aq off s := rfl
@[simp] theorem exec_lw (rd : XReg) (base : XReg) (aq : BitVec 1) (off : BitVec 12) (s : State) : exec (.lw rd base aq off) s = execLw rd base aq off s := rfl
@[simp] theorem exec_lwu (rd : XReg) (base : XReg) (aq : BitVec 1) (off : BitVec 12) (s : State) : exec (.lwu rd base aq off) s = execLwu rd base aq off s := rfl
@[simp] theorem exec_ld (rd : XReg) (base : XReg) (aq : BitVec 1) (off : BitVec 12) (s : State) : exec (.ld rd base aq off) s = execLd rd base aq off s := rfl
@[simp] theorem exec_sb (rs : XReg) (base : XReg) (rl : BitVec 1) (off : BitVec 12) (s : State) : exec (.sb rs base rl off) s = execSb rs base rl off s := rfl
@[simp] theorem exec_sh (rs : XReg) (base : XReg) (rl : BitVec 1) (off : BitVec 12) (s : State) : exec (.sh rs base rl off) s = execSh rs base rl off s := rfl
@[simp] theorem exec_sw (rs : XReg) (base : XReg) (rl : BitVec 1) (off : BitVec 12) (s : State) : exec (.sw rs base rl off) s = execSw rs base rl off s := rfl
@[simp] theorem exec_sd (rs : XReg) (base : XReg) (rl : BitVec 1) (off : BitVec 12) (s : State) : exec (.sd rs base rl off) s = execSd rs base rl off s := rfl
@[simp] theorem exec_acas (rd : XReg) (rs1 : XReg) (rs2 : XReg) (aq : BitVec 1) (rl : BitVec 1) (size : BitVec 2) (s : State) : exec (.acas rd rs1 rs2 aq rl size) s = execAcas rd rs1 rs2 aq rl size s := rfl
@[simp] theorem exec_aswap (rd : XReg) (rs1 : XReg) (rs2 : XReg) (aq : BitVec 1) (rl : BitVec 1) (size : BitVec 2) (s : State) : exec (.aswap rd rs1 rs2 aq rl size) s = execAswap rd rs1 rs2 aq rl size s := rfl
@[simp] theorem exec_aadd (rd : XReg) (rs1 : XReg) (rs2 : XReg) (aq : BitVec 1) (rl : BitVec 1) (size : BitVec 2) (s : State) : exec (.aadd rd rs1 rs2 aq rl size) s = execAadd rd rs1 rs2 aq rl size s := rfl
@[simp] theorem exec_aand (rd : XReg) (rs1 : XReg) (rs2 : XReg) (aq : BitVec 1) (rl : BitVec 1) (size : BitVec 2) (s : State) : exec (.aand rd rs1 rs2 aq rl size) s = execAand rd rs1 rs2 aq rl size s := rfl
@[simp] theorem exec_aor (rd : XReg) (rs1 : XReg) (rs2 : XReg) (aq : BitVec 1) (rl : BitVec 1) (size : BitVec 2) (s : State) : exec (.aor rd rs1 rs2 aq rl size) s = execAor rd rs1 rs2 aq rl size s := rfl
@[simp] theorem exec_axor (rd : XReg) (rs1 : XReg) (rs2 : XReg) (aq : BitVec 1) (rl : BitVec 1) (size : BitVec 2) (s : State) : exec (.axor rd rs1 rs2 aq rl size) s = execAxor rd rs1 rs2 aq rl size s := rfl
@[simp] theorem exec_amin (rd : XReg) (rs1 : XReg) (rs2 : XReg) (aq : BitVec 1) (rl : BitVec 1) (size : BitVec 2) (s : State) : exec (.amin rd rs1 rs2 aq rl size) s = execAmin rd rs1 rs2 aq rl size s := rfl
@[simp] theorem exec_amax (rd : XReg) (rs1 : XReg) (rs2 : XReg) (aq : BitVec 1) (rl : BitVec 1) (size : BitVec 2) (s : State) : exec (.amax rd rs1 rs2 aq rl size) s = execAmax rd rs1 rs2 aq rl size s := rfl
@[simp] theorem exec_aminu (rd : XReg) (rs1 : XReg) (rs2 : XReg) (aq : BitVec 1) (rl : BitVec 1) (size : BitVec 2) (s : State) : exec (.aminu rd rs1 rs2 aq rl size) s = execAminu rd rs1 rs2 aq rl size s := rfl
@[simp] theorem exec_amaxu (rd : XReg) (rs1 : XReg) (rs2 : XReg) (aq : BitVec 1) (rl : BitVec 1) (size : BitVec 2) (s : State) : exec (.amaxu rd rs1 rs2 aq rl size) s = execAmaxu rd rs1 rs2 aq rl size s := rfl
@[simp] theorem exec_fence (scope : BitVec 2) (s : State) : exec (.fence scope) s = execFence scope s := rfl
@[simp] theorem exec_fenceQ (mask : BitVec 5) (scope : BitVec 2) (s : State) : exec (.fenceQ mask scope) s = execFenceQ mask scope s := rfl
@[simp] theorem exec_fadd (rd : XReg) (rs1 : XReg) (rs2 : XReg) (rm : BitVec 2) (fmt : BitVec 1) (s : State) : exec (.fadd rd rs1 rs2 rm fmt) s = execFadd rd rs1 rs2 rm fmt s := rfl
@[simp] theorem exec_fsub (rd : XReg) (rs1 : XReg) (rs2 : XReg) (rm : BitVec 2) (fmt : BitVec 1) (s : State) : exec (.fsub rd rs1 rs2 rm fmt) s = execFsub rd rs1 rs2 rm fmt s := rfl
@[simp] theorem exec_fmul (rd : XReg) (rs1 : XReg) (rs2 : XReg) (rm : BitVec 2) (fmt : BitVec 1) (s : State) : exec (.fmul rd rs1 rs2 rm fmt) s = execFmul rd rs1 rs2 rm fmt s := rfl
@[simp] theorem exec_fdiv (rd : XReg) (rs1 : XReg) (rs2 : XReg) (rm : BitVec 2) (fmt : BitVec 1) (s : State) : exec (.fdiv rd rs1 rs2 rm fmt) s = execFdiv rd rs1 rs2 rm fmt s := rfl
@[simp] theorem exec_fsqrt (rd : XReg) (rs1 : XReg) (rm : BitVec 2) (fmt : BitVec 1) (s : State) : exec (.fsqrt rd rs1 rm fmt) s = execFsqrt rd rs1 rm fmt s := rfl
@[simp] theorem exec_fmin (rd : XReg) (rs1 : XReg) (rs2 : XReg) (fmt : BitVec 1) (s : State) : exec (.fmin rd rs1 rs2 fmt) s = execFmin rd rs1 rs2 fmt s := rfl
@[simp] theorem exec_fmax (rd : XReg) (rs1 : XReg) (rs2 : XReg) (fmt : BitVec 1) (s : State) : exec (.fmax rd rs1 rs2 fmt) s = execFmax rd rs1 rs2 fmt s := rfl
@[simp] theorem exec_fmac (rd : XReg) (rs1 : XReg) (rs2 : XReg) (rm : BitVec 2) (fmt : BitVec 1) (s : State) : exec (.fmac rd rs1 rs2 rm fmt) s = execFmac rd rs1 rs2 rm fmt s := rfl
@[simp] theorem exec_fneg (rd : XReg) (rs1 : XReg) (fmt : BitVec 1) (s : State) : exec (.fneg rd rs1 fmt) s = execFneg rd rs1 fmt s := rfl
@[simp] theorem exec_fabs (rd : XReg) (rs1 : XReg) (fmt : BitVec 1) (s : State) : exec (.fabs rd rs1 fmt) s = execFabs rd rs1 fmt s := rfl
@[simp] theorem exec_fkind (rd : XReg) (rs1 : XReg) (fmt : BitVec 1) (s : State) : exec (.fkind rd rs1 fmt) s = execFkind rd rs1 fmt s := rfl
@[simp] theorem exec_fcmpeq (pd : PReg) (rs1 : XReg) (rs2 : XReg) (fmt : BitVec 1) (s : State) : exec (.fcmpeq pd rs1 rs2 fmt) s = execFcmpeq pd rs1 rs2 fmt s := rfl
@[simp] theorem exec_fcmplt (pd : PReg) (rs1 : XReg) (rs2 : XReg) (fmt : BitVec 1) (s : State) : exec (.fcmplt pd rs1 rs2 fmt) s = execFcmplt pd rs1 rs2 fmt s := rfl
@[simp] theorem exec_fcmple (pd : PReg) (rs1 : XReg) (rs2 : XReg) (fmt : BitVec 1) (s : State) : exec (.fcmple pd rs1 rs2 fmt) s = execFcmple pd rs1 rs2 fmt s := rfl
@[simp] theorem exec_ftoi (rd : XReg) (rs1 : XReg) (rm : BitVec 2) (fmt : BitVec 1) (s : State) : exec (.ftoi rd rs1 rm fmt) s = execFtoi rd rs1 rm fmt s := rfl
@[simp] theorem exec_ftou (rd : XReg) (rs1 : XReg) (rm : BitVec 2) (fmt : BitVec 1) (s : State) : exec (.ftou rd rs1 rm fmt) s = execFtou rd rs1 rm fmt s := rfl
@[simp] theorem exec_itof (rd : XReg) (rs1 : XReg) (rm : BitVec 2) (fmt : BitVec 1) (s : State) : exec (.itof rd rs1 rm fmt) s = execItof rd rs1 rm fmt s := rfl
@[simp] theorem exec_utof (rd : XReg) (rs1 : XReg) (rm : BitVec 2) (fmt : BitVec 1) (s : State) : exec (.utof rd rs1 rm fmt) s = execUtof rd rs1 rm fmt s := rfl
@[simp] theorem exec_ftof (rd : XReg) (rs1 : XReg) (rm : BitVec 2) (fmt : BitVec 1) (s : State) : exec (.ftof rd rs1 rm fmt) s = execFtof rd rs1 rm fmt s := rfl
@[simp] theorem exec_ecall (s : State) : exec (.ecall) s = execEcall s := rfl
@[simp] theorem exec_ebreak (s : State) : exec (.ebreak) s = execEbreak s := rfl
@[simp] theorem exec_tret (s : State) : exec (.tret) s = execTret s := rfl
@[simp] theorem exec_uiret (s : State) : exec (.uiret) s = execUiret s := rfl
@[simp] theorem exec_crd (rd : XReg) (cr : BitVec 11) (s : State) : exec (.crd rd cr) s = execCrd rd cr s := rfl
@[simp] theorem exec_cwr (rs1 : XReg) (cr : BitVec 11) (s : State) : exec (.cwr rs1 cr) s = execCwr rs1 cr s := rfl
@[simp] theorem exec_cset (rd : XReg) (rs1 : XReg) (cr : BitVec 11) (s : State) : exec (.cset rd rs1 cr) s = execCset rd rs1 cr s := rfl
@[simp] theorem exec_cclr (rd : XReg) (rs1 : XReg) (cr : BitVec 11) (s : State) : exec (.cclr rd rs1 cr) s = execCclr rd rs1 cr s := rfl
@[simp] theorem exec_sleep (s : State) : exec (.sleep) s = execSleep s := rfl
@[simp] theorem exec_dcclean (rs1 : XReg) (s : State) : exec (.dcclean rs1) s = execDcclean rs1 s := rfl
@[simp] theorem exec_dcflush (rs1 : XReg) (s : State) : exec (.dcflush rs1) s = execDcflush rs1 s := rfl
@[simp] theorem exec_dcinv (rs1 : XReg) (s : State) : exec (.dcinv rs1) s = execDcinv rs1 s := rfl
@[simp] theorem exec_icinv (rs1 : XReg) (s : State) : exec (.icinv rs1) s = execIcinv rs1 s := rfl
@[simp] theorem exec_cstart (rd : XReg) (rs1 : XReg) (rs2 : XReg) (s : State) : exec (.cstart rd rs1 rs2) s = execCstart rd rs1 rs2 s := rfl
@[simp] theorem exec_cstop (rd : XReg) (rs1 : XReg) (s : State) : exec (.cstop rd rs1) s = execCstop rd rs1 s := rfl
@[simp] theorem exec_creap (rd : XReg) (rs1 : XReg) (s : State) : exec (.creap rd rs1) s = execCreap rd rs1 s := rfl
@[simp] theorem exec_cself (rs1 : XReg) (s : State) : exec (.cself rs1) s = execCself rs1 s := rfl
@[simp] theorem exec_forkl (rd : XReg) (rs1 : XReg) (s : State) : exec (.forkl rd rs1) s = execForkl rd rs1 s := rfl
@[simp] theorem exec_joinl (rd : XReg) (s : State) : exec (.joinl rd) s = execJoinl rd s := rfl
@[simp] theorem exec_movh (hd : HReg) (rs1 : XReg) (s : State) : exec (.movh hd rs1) s = execMovh hd rs1 s := rfl
@[simp] theorem exec_movfh (rd : XReg) (hs : HReg) (s : State) : exec (.movfh rd hs) s = execMovfh rd hs s := rfl
@[simp] theorem exec_binit (rd : XReg) (rs1 : XReg) (rs2 : XReg) (s : State) : exec (.binit rd rs1 rs2) s = execBinit rd rs1 rs2 s := rfl
@[simp] theorem exec_barr (rd : XReg) (rs1 : XReg) (rs2 : XReg) (s : State) : exec (.barr rd rs1 rs2) s = execBarr rd rs1 rs2 s := rfl
@[simp] theorem exec_bexp (rd : XReg) (rs1 : XReg) (rs2 : XReg) (s : State) : exec (.bexp rd rs1 rs2) s = execBexp rd rs1 rs2 s := rfl
@[simp] theorem exec_bwait (rd : XReg) (rs1 : XReg) (rs2 : XReg) (s : State) : exec (.bwait rd rs1 rs2) s = execBwait rd rs1 rs2 s := rfl
@[simp] theorem exec_btest (rd : XReg) (rs1 : XReg) (rs2 : XReg) (s : State) : exec (.btest rd rs1 rs2) s = execBtest rd rs1 rs2 s := rfl
@[simp] theorem exec_phasend (rd : XReg) (rs1 : XReg) (rs2 : XReg) (s : State) : exec (.phasend rd rs1 rs2) s = execPhasend rd rs1 rs2 s := rfl
@[simp] theorem exec_chbind (rd : XReg) (rs1 : XReg) (s : State) : exec (.chbind rd rs1) s = execChbind rd rs1 s := rfl
@[simp] theorem exec_chunbind (rd : XReg) (rs1 : XReg) (s : State) : exec (.chunbind rd rs1) s = execChunbind rd rs1 s := rfl
@[simp] theorem exec_chsend (rd : XReg) (rs1 : XReg) (rs2 : XReg) (s : State) : exec (.chsend rd rs1 rs2) s = execChsend rd rs1 rs2 s := rfl
@[simp] theorem exec_chrecv (rd : XReg) (rt : XReg) (rs1 : XReg) (s : State) : exec (.chrecv rd rt rs1) s = execChrecv rd rt rs1 s := rfl
@[simp] theorem exec_chsendv (rd : XReg) (rs1 : XReg) (vs : VReg) (s : State) : exec (.chsendv rd rs1 vs) s = execChsendv rd rs1 vs s := rfl
@[simp] theorem exec_chrecvv (vd : VReg) (rt : XReg) (rs1 : XReg) (s : State) : exec (.chrecvv vd rt rs1) s = execChrecvv vd rt rs1 s := rfl
@[simp] theorem exec_chclose (rd : XReg) (rs1 : XReg) (s : State) : exec (.chclose rd rs1) s = execChclose rd rs1 s := rfl
@[simp] theorem exec_select (rd : XReg) (rt : XReg) (rs1 : XReg) (s : State) : exec (.select rd rt rs1) s = execSelect rd rt rs1 s := rfl
@[simp] theorem exec_chsendb (rd : XReg) (rs1 : XReg) (rs2 : XReg) (s : State) : exec (.chsendb rd rs1 rs2) s = execChsendb rd rs1 rs2 s := rfl
@[simp] theorem exec_chrecvb (rd : XReg) (rs1 : XReg) (rs2 : XReg) (s : State) : exec (.chrecvb rd rs1 rs2) s = execChrecvb rd rs1 rs2 s := rfl
@[simp] theorem exec_vsetvl (rd : XReg) (rs1 : XReg) (s : State) : exec (.vsetvl rd rs1) s = execVsetvl rd rs1 s := rfl
@[simp] theorem exec_vsett (rd : XReg) (rs1 : XReg) (s : State) : exec (.vsett rd rs1) s = execVsett rd rs1 s := rfl
@[simp] theorem exec_vmode (rd : XReg) (rs1 : XReg) (s : State) : exec (.vmode rd rs1) s = execVmode rd rs1 s := rfl
@[simp] theorem exec_ctwr (rs1 : XReg) (rs2 : XReg) (s : State) : exec (.ctwr rs1 rs2) s = execCtwr rs1 rs2 s := rfl
@[simp] theorem exec_ctsel (rs1 : XReg) (s : State) : exec (.ctsel rs1) s = execCtsel rs1 s := rfl
@[simp] theorem exec_vadd (vd : VReg) (vs1 : VReg) (c : XReg) (x : BitVec 1) (mk : VMask) (s : State) : exec (.vadd vd vs1 c x mk) s = execVadd vd vs1 c x mk s := rfl
@[simp] theorem exec_vsub (vd : VReg) (vs1 : VReg) (c : XReg) (x : BitVec 1) (mk : VMask) (s : State) : exec (.vsub vd vs1 c x mk) s = execVsub vd vs1 c x mk s := rfl
@[simp] theorem exec_vrsub (vd : VReg) (vs1 : VReg) (c : XReg) (x : BitVec 1) (mk : VMask) (s : State) : exec (.vrsub vd vs1 c x mk) s = execVrsub vd vs1 c x mk s := rfl
@[simp] theorem exec_vand (vd : VReg) (vs1 : VReg) (c : XReg) (x : BitVec 1) (mk : VMask) (s : State) : exec (.vand vd vs1 c x mk) s = execVand vd vs1 c x mk s := rfl
@[simp] theorem exec_vor (vd : VReg) (vs1 : VReg) (c : XReg) (x : BitVec 1) (mk : VMask) (s : State) : exec (.vor vd vs1 c x mk) s = execVor vd vs1 c x mk s := rfl
@[simp] theorem exec_vxor (vd : VReg) (vs1 : VReg) (c : XReg) (x : BitVec 1) (mk : VMask) (s : State) : exec (.vxor vd vs1 c x mk) s = execVxor vd vs1 c x mk s := rfl
@[simp] theorem exec_vsll (vd : VReg) (vs1 : VReg) (c : XReg) (x : BitVec 1) (mk : VMask) (s : State) : exec (.vsll vd vs1 c x mk) s = execVsll vd vs1 c x mk s := rfl
@[simp] theorem exec_vsrl (vd : VReg) (vs1 : VReg) (c : XReg) (x : BitVec 1) (mk : VMask) (s : State) : exec (.vsrl vd vs1 c x mk) s = execVsrl vd vs1 c x mk s := rfl
@[simp] theorem exec_vsra (vd : VReg) (vs1 : VReg) (c : XReg) (x : BitVec 1) (mk : VMask) (s : State) : exec (.vsra vd vs1 c x mk) s = execVsra vd vs1 c x mk s := rfl
@[simp] theorem exec_vmin (vd : VReg) (vs1 : VReg) (c : XReg) (x : BitVec 1) (mk : VMask) (s : State) : exec (.vmin vd vs1 c x mk) s = execVmin vd vs1 c x mk s := rfl
@[simp] theorem exec_vmax (vd : VReg) (vs1 : VReg) (c : XReg) (x : BitVec 1) (mk : VMask) (s : State) : exec (.vmax vd vs1 c x mk) s = execVmax vd vs1 c x mk s := rfl
@[simp] theorem exec_vminu (vd : VReg) (vs1 : VReg) (c : XReg) (x : BitVec 1) (mk : VMask) (s : State) : exec (.vminu vd vs1 c x mk) s = execVminu vd vs1 c x mk s := rfl
@[simp] theorem exec_vmaxu (vd : VReg) (vs1 : VReg) (c : XReg) (x : BitVec 1) (mk : VMask) (s : State) : exec (.vmaxu vd vs1 c x mk) s = execVmaxu vd vs1 c x mk s := rfl
@[simp] theorem exec_vmul (vd : VReg) (vs1 : VReg) (c : XReg) (x : BitVec 1) (mk : VMask) (s : State) : exec (.vmul vd vs1 c x mk) s = execVmul vd vs1 c x mk s := rfl
@[simp] theorem exec_vmulh (vd : VReg) (vs1 : VReg) (c : XReg) (x : BitVec 1) (mk : VMask) (s : State) : exec (.vmulh vd vs1 c x mk) s = execVmulh vd vs1 c x mk s := rfl
@[simp] theorem exec_vmulhu (vd : VReg) (vs1 : VReg) (c : XReg) (x : BitVec 1) (mk : VMask) (s : State) : exec (.vmulhu vd vs1 c x mk) s = execVmulhu vd vs1 c x mk s := rfl
@[simp] theorem exec_vsadd (vd : VReg) (vs1 : VReg) (c : XReg) (x : BitVec 1) (mk : VMask) (s : State) : exec (.vsadd vd vs1 c x mk) s = execVsadd vd vs1 c x mk s := rfl
@[simp] theorem exec_vsaddu (vd : VReg) (vs1 : VReg) (c : XReg) (x : BitVec 1) (mk : VMask) (s : State) : exec (.vsaddu vd vs1 c x mk) s = execVsaddu vd vs1 c x mk s := rfl
@[simp] theorem exec_vssub (vd : VReg) (vs1 : VReg) (c : XReg) (x : BitVec 1) (mk : VMask) (s : State) : exec (.vssub vd vs1 c x mk) s = execVssub vd vs1 c x mk s := rfl
@[simp] theorem exec_vssubu (vd : VReg) (vs1 : VReg) (c : XReg) (x : BitVec 1) (mk : VMask) (s : State) : exec (.vssubu vd vs1 c x mk) s = execVssubu vd vs1 c x mk s := rfl
@[simp] theorem exec_vmacc (vd : VReg) (vs1 : VReg) (c : XReg) (x : BitVec 1) (mk : VMask) (s : State) : exec (.vmacc vd vs1 c x mk) s = execVmacc vd vs1 c x mk s := rfl
@[simp] theorem exec_vabs (vd : VReg) (vs1 : VReg) (mk : VMask) (s : State) : exec (.vabs vd vs1 mk) s = execVabs vd vs1 mk s := rfl
@[simp] theorem exec_vneg (vd : VReg) (vs1 : VReg) (mk : VMask) (s : State) : exec (.vneg vd vs1 mk) s = execVneg vd vs1 mk s := rfl
@[simp] theorem exec_vcmpeq (md : MReg) (vs1 : VReg) (c : XReg) (x : BitVec 1) (mk : VMask) (s : State) : exec (.vcmpeq md vs1 c x mk) s = execVcmpeq md vs1 c x mk s := rfl
@[simp] theorem exec_vcmpne (md : MReg) (vs1 : VReg) (c : XReg) (x : BitVec 1) (mk : VMask) (s : State) : exec (.vcmpne md vs1 c x mk) s = execVcmpne md vs1 c x mk s := rfl
@[simp] theorem exec_vcmplt (md : MReg) (vs1 : VReg) (c : XReg) (x : BitVec 1) (mk : VMask) (s : State) : exec (.vcmplt md vs1 c x mk) s = execVcmplt md vs1 c x mk s := rfl
@[simp] theorem exec_vcmple (md : MReg) (vs1 : VReg) (c : XReg) (x : BitVec 1) (mk : VMask) (s : State) : exec (.vcmple md vs1 c x mk) s = execVcmple md vs1 c x mk s := rfl
@[simp] theorem exec_vcmpltu (md : MReg) (vs1 : VReg) (c : XReg) (x : BitVec 1) (mk : VMask) (s : State) : exec (.vcmpltu md vs1 c x mk) s = execVcmpltu md vs1 c x mk s := rfl
@[simp] theorem exec_vcmpleu (md : MReg) (vs1 : VReg) (c : XReg) (x : BitVec 1) (mk : VMask) (s : State) : exec (.vcmpleu md vs1 c x mk) s = execVcmpleu md vs1 c x mk s := rfl
@[simp] theorem exec_vfadd (vd : VReg) (vs1 : VReg) (c : XReg) (x : BitVec 1) (mk : VMask) (s : State) : exec (.vfadd vd vs1 c x mk) s = execVfadd vd vs1 c x mk s := rfl
@[simp] theorem exec_vfsub (vd : VReg) (vs1 : VReg) (c : XReg) (x : BitVec 1) (mk : VMask) (s : State) : exec (.vfsub vd vs1 c x mk) s = execVfsub vd vs1 c x mk s := rfl
@[simp] theorem exec_vfmul (vd : VReg) (vs1 : VReg) (c : XReg) (x : BitVec 1) (mk : VMask) (s : State) : exec (.vfmul vd vs1 c x mk) s = execVfmul vd vs1 c x mk s := rfl
@[simp] theorem exec_vfdiv (vd : VReg) (vs1 : VReg) (c : XReg) (x : BitVec 1) (mk : VMask) (s : State) : exec (.vfdiv vd vs1 c x mk) s = execVfdiv vd vs1 c x mk s := rfl
@[simp] theorem exec_vfsqrt (vd : VReg) (vs1 : VReg) (mk : VMask) (s : State) : exec (.vfsqrt vd vs1 mk) s = execVfsqrt vd vs1 mk s := rfl
@[simp] theorem exec_vfmin (vd : VReg) (vs1 : VReg) (c : XReg) (x : BitVec 1) (mk : VMask) (s : State) : exec (.vfmin vd vs1 c x mk) s = execVfmin vd vs1 c x mk s := rfl
@[simp] theorem exec_vfmax (vd : VReg) (vs1 : VReg) (c : XReg) (x : BitVec 1) (mk : VMask) (s : State) : exec (.vfmax vd vs1 c x mk) s = execVfmax vd vs1 c x mk s := rfl
@[simp] theorem exec_vfmacc (vd : VReg) (vs1 : VReg) (c : XReg) (x : BitVec 1) (mk : VMask) (s : State) : exec (.vfmacc vd vs1 c x mk) s = execVfmacc vd vs1 c x mk s := rfl
@[simp] theorem exec_vfabs (vd : VReg) (vs1 : VReg) (mk : VMask) (s : State) : exec (.vfabs vd vs1 mk) s = execVfabs vd vs1 mk s := rfl
@[simp] theorem exec_vfneg (vd : VReg) (vs1 : VReg) (mk : VMask) (s : State) : exec (.vfneg vd vs1 mk) s = execVfneg vd vs1 mk s := rfl
@[simp] theorem exec_vfcmpeq (md : MReg) (vs1 : VReg) (c : XReg) (x : BitVec 1) (mk : VMask) (s : State) : exec (.vfcmpeq md vs1 c x mk) s = execVfcmpeq md vs1 c x mk s := rfl
@[simp] theorem exec_vfcmplt (md : MReg) (vs1 : VReg) (c : XReg) (x : BitVec 1) (mk : VMask) (s : State) : exec (.vfcmplt md vs1 c x mk) s = execVfcmplt md vs1 c x mk s := rfl
@[simp] theorem exec_vfcmple (md : MReg) (vs1 : VReg) (c : XReg) (x : BitVec 1) (mk : VMask) (s : State) : exec (.vfcmple md vs1 c x mk) s = execVfcmple md vs1 c x mk s := rfl
@[simp] theorem exec_vfcvt (vd : VReg) (vs1 : VReg) (tag : BitVec 5) (mk : VMask) (s : State) : exec (.vfcvt vd vs1 tag mk) s = execVfcvt vd vs1 tag mk s := rfl
@[simp] theorem exec_vquant (vd : VReg) (vs1 : VReg) (tag : BitVec 5) (mk : VMask) (s : State) : exec (.vquant vd vs1 tag mk) s = execVquant vd vs1 tag mk s := rfl
@[simp] theorem exec_vdequant (vd : VReg) (vs1 : VReg) (tag : BitVec 5) (mk : VMask) (s : State) : exec (.vdequant vd vs1 tag mk) s = execVdequant vd vs1 tag mk s := rfl
@[simp] theorem exec_mand (md : MReg) (ms1 : MReg) (ms2 : MReg) (x : BitVec 1) (mk : VMask) (s : State) : exec (.mand md ms1 ms2 x mk) s = execMand md ms1 ms2 x mk s := rfl
@[simp] theorem exec_mor (md : MReg) (ms1 : MReg) (ms2 : MReg) (x : BitVec 1) (mk : VMask) (s : State) : exec (.mor md ms1 ms2 x mk) s = execMor md ms1 ms2 x mk s := rfl
@[simp] theorem exec_mxor (md : MReg) (ms1 : MReg) (ms2 : MReg) (x : BitVec 1) (mk : VMask) (s : State) : exec (.mxor md ms1 ms2 x mk) s = execMxor md ms1 ms2 x mk s := rfl
@[simp] theorem exec_mandn (md : MReg) (ms1 : MReg) (ms2 : MReg) (x : BitVec 1) (mk : VMask) (s : State) : exec (.mandn md ms1 ms2 x mk) s = execMandn md ms1 ms2 x mk s := rfl
@[simp] theorem exec_mnot (md : MReg) (ms1 : MReg) (x : BitVec 1) (mk : VMask) (s : State) : exec (.mnot md ms1 x mk) s = execMnot md ms1 x mk s := rfl
@[simp] theorem exec_mset (md : MReg) (x : BitVec 1) (mk : VMask) (s : State) : exec (.mset md x mk) s = execMset md x mk s := rfl
@[simp] theorem exec_mclr (md : MReg) (x : BitVec 1) (mk : VMask) (s : State) : exec (.mclr md x mk) s = execMclr md x mk s := rfl
@[simp] theorem exec_mpopc (rd : XReg) (ms1 : MReg) (mk : VMask) (s : State) : exec (.mpopc rd ms1 mk) s = execMpopc rd ms1 mk s := rfl
@[simp] theorem exec_mfirst (rd : XReg) (ms1 : MReg) (mk : VMask) (s : State) : exec (.mfirst rd ms1 mk) s = execMfirst rd ms1 mk s := rfl
@[simp] theorem exec_vshuf (vd : VReg) (vs1 : VReg) (vi : VReg) (mk : VMask) (s : State) : exec (.vshuf vd vs1 vi mk) s = execVshuf vd vs1 vi mk s := rfl
@[simp] theorem exec_vslideup (vd : VReg) (vs1 : VReg) (rs2 : XReg) (mk : VMask) (s : State) : exec (.vslideup vd vs1 rs2 mk) s = execVslideup vd vs1 rs2 mk s := rfl
@[simp] theorem exec_vslidedn (vd : VReg) (vs1 : VReg) (rs2 : XReg) (mk : VMask) (s : State) : exec (.vslidedn vd vs1 rs2 mk) s = execVslidedn vd vs1 rs2 mk s := rfl
@[simp] theorem exec_vcompress (vd : VReg) (vs1 : VReg) (mr : MReg) (s : State) : exec (.vcompress vd vs1 mr) s = execVcompress vd vs1 mr s := rfl
@[simp] theorem exec_vexpand (vd : VReg) (vs1 : VReg) (mr : MReg) (s : State) : exec (.vexpand vd vs1 mr) s = execVexpand vd vs1 mr s := rfl
@[simp] theorem exec_vdense (vd : VReg) (vs1 : VReg) (c : XReg) (x : BitVec 1) (mk : VMask) (s : State) : exec (.vdense vd vs1 c x mk) s = execVdense vd vs1 c x mk s := rfl
@[simp] theorem exec_vredSum (d : XReg) (vs1 : VReg) (x : BitVec 1) (mk : VMask) (s : State) : exec (.vredSum d vs1 x mk) s = execVredSum d vs1 x mk s := rfl
@[simp] theorem exec_vredMin (d : XReg) (vs1 : VReg) (x : BitVec 1) (mk : VMask) (s : State) : exec (.vredMin d vs1 x mk) s = execVredMin d vs1 x mk s := rfl
@[simp] theorem exec_vredMax (d : XReg) (vs1 : VReg) (x : BitVec 1) (mk : VMask) (s : State) : exec (.vredMax d vs1 x mk) s = execVredMax d vs1 x mk s := rfl
@[simp] theorem exec_vredMinu (d : XReg) (vs1 : VReg) (x : BitVec 1) (mk : VMask) (s : State) : exec (.vredMinu d vs1 x mk) s = execVredMinu d vs1 x mk s := rfl
@[simp] theorem exec_vredMaxu (d : XReg) (vs1 : VReg) (x : BitVec 1) (mk : VMask) (s : State) : exec (.vredMaxu d vs1 x mk) s = execVredMaxu d vs1 x mk s := rfl
@[simp] theorem exec_vredAnd (d : XReg) (vs1 : VReg) (x : BitVec 1) (mk : VMask) (s : State) : exec (.vredAnd d vs1 x mk) s = execVredAnd d vs1 x mk s := rfl
@[simp] theorem exec_vredOr (d : XReg) (vs1 : VReg) (x : BitVec 1) (mk : VMask) (s : State) : exec (.vredOr d vs1 x mk) s = execVredOr d vs1 x mk s := rfl
@[simp] theorem exec_vredXor (d : XReg) (vs1 : VReg) (x : BitVec 1) (mk : VMask) (s : State) : exec (.vredXor d vs1 x mk) s = execVredXor d vs1 x mk s := rfl
@[simp] theorem exec_vredFsum (d : XReg) (vs1 : VReg) (x : BitVec 1) (mk : VMask) (s : State) : exec (.vredFsum d vs1 x mk) s = execVredFsum d vs1 x mk s := rfl
@[simp] theorem exec_vredFmin (d : XReg) (vs1 : VReg) (x : BitVec 1) (mk : VMask) (s : State) : exec (.vredFmin d vs1 x mk) s = execVredFmin d vs1 x mk s := rfl
@[simp] theorem exec_vredFmax (d : XReg) (vs1 : VReg) (x : BitVec 1) (mk : VMask) (s : State) : exec (.vredFmax d vs1 x mk) s = execVredFmax d vs1 x mk s := rfl
@[simp] theorem exec_vscanSum (vd : VReg) (vs1 : VReg) (mk : VMask) (s : State) : exec (.vscanSum vd vs1 mk) s = execVscanSum vd vs1 mk s := rfl
@[simp] theorem exec_vscanMin (vd : VReg) (vs1 : VReg) (mk : VMask) (s : State) : exec (.vscanMin vd vs1 mk) s = execVscanMin vd vs1 mk s := rfl
@[simp] theorem exec_vscanMax (vd : VReg) (vs1 : VReg) (mk : VMask) (s : State) : exec (.vscanMax vd vs1 mk) s = execVscanMax vd vs1 mk s := rfl
@[simp] theorem exec_vscanMinu (vd : VReg) (vs1 : VReg) (mk : VMask) (s : State) : exec (.vscanMinu vd vs1 mk) s = execVscanMinu vd vs1 mk s := rfl
@[simp] theorem exec_vscanMaxu (vd : VReg) (vs1 : VReg) (mk : VMask) (s : State) : exec (.vscanMaxu vd vs1 mk) s = execVscanMaxu vd vs1 mk s := rfl
@[simp] theorem exec_vscanAnd (vd : VReg) (vs1 : VReg) (mk : VMask) (s : State) : exec (.vscanAnd vd vs1 mk) s = execVscanAnd vd vs1 mk s := rfl
@[simp] theorem exec_vscanOr (vd : VReg) (vs1 : VReg) (mk : VMask) (s : State) : exec (.vscanOr vd vs1 mk) s = execVscanOr vd vs1 mk s := rfl
@[simp] theorem exec_vscanXor (vd : VReg) (vs1 : VReg) (mk : VMask) (s : State) : exec (.vscanXor vd vs1 mk) s = execVscanXor vd vs1 mk s := rfl
@[simp] theorem exec_vscanFsum (vd : VReg) (vs1 : VReg) (mk : VMask) (s : State) : exec (.vscanFsum vd vs1 mk) s = execVscanFsum vd vs1 mk s := rfl
@[simp] theorem exec_vmv (vd : VReg) (vs1 : VReg) (mk : VMask) (s : State) : exec (.vmv vd vs1 mk) s = execVmv vd vs1 mk s := rfl
@[simp] theorem exec_vmerge (vd : VReg) (vs1 : VReg) (c : XReg) (x : BitVec 1) (mr : MReg) (s : State) : exec (.vmerge vd vs1 c x mr) s = execVmerge vd vs1 c x mr s := rfl
@[simp] theorem exec_vbcast (vd : VReg) (rs2 : XReg) (mk : VMask) (s : State) : exec (.vbcast vd rs2 mk) s = execVbcast vd rs2 mk s := rfl
@[simp] theorem exec_vmvxs (rd : XReg) (vs1 : VReg) (s : State) : exec (.vmvxs rd vs1) s = execVmvxs rd vs1 s := rfl
@[simp] theorem exec_vmvsx (vd : VReg) (rs2 : XReg) (s : State) : exec (.vmvsx vd rs2) s = execVmvsx vd rs2 s := rfl
@[simp] theorem exec_vid (vd : VReg) (mk : VMask) (s : State) : exec (.vid vd mk) s = execVid vd mk s := rfl
@[simp] theorem exec_vld (vd : VReg) (base : XReg) (mk : VMask) (s : State) : exec (.vld vd base mk) s = execVld vd base mk s := rfl
@[simp] theorem exec_vlds (vd : VReg) (base : XReg) (rs : XReg) (mk : VMask) (s : State) : exec (.vlds vd base rs mk) s = execVlds vd base rs mk s := rfl
@[simp] theorem exec_vldx (vd : VReg) (base : XReg) (vi : VReg) (iw : BitVec 2) (mk : VMask) (s : State) : exec (.vldx vd base vi iw mk) s = execVldx vd base vi iw mk s := rfl
@[simp] theorem exec_vst (vs : VReg) (base : XReg) (mk : VMask) (s : State) : exec (.vst vs base mk) s = execVst vs base mk s := rfl
@[simp] theorem exec_vsts (vs : VReg) (base : XReg) (rs : XReg) (mk : VMask) (s : State) : exec (.vsts vs base rs mk) s = execVsts vs base rs mk s := rfl
@[simp] theorem exec_vstx (vs : VReg) (base : XReg) (vi : VReg) (iw : BitVec 2) (mk : VMask) (s : State) : exec (.vstx vs base vi iw mk) s = execVstx vs base vi iw mk s := rfl
@[simp] theorem exec_vldl (vd : VReg) (base : XReg) (vi : VReg) (iw : BitVec 2) (mk : VMask) (s : State) : exec (.vldl vd base vi iw mk) s = execVldl vd base vi iw mk s := rfl
@[simp] theorem exec_vstc (vs : VReg) (base : XReg) (vi : VReg) (iw : BitVec 2) (mr : MReg) (s : State) : exec (.vstc vs base vi iw mr) s = execVstc vs base vi iw mr s := rfl
@[simp] theorem exec_vamoAdd (vs : VReg) (base : XReg) (vi : VReg) (mk : VMask) (s : State) : exec (.vamoAdd vs base vi mk) s = execVamoAdd vs base vi mk s := rfl
@[simp] theorem exec_vamoMin (vs : VReg) (base : XReg) (vi : VReg) (mk : VMask) (s : State) : exec (.vamoMin vs base vi mk) s = execVamoMin vs base vi mk s := rfl
@[simp] theorem exec_vamoMax (vs : VReg) (base : XReg) (vi : VReg) (mk : VMask) (s : State) : exec (.vamoMax vs base vi mk) s = execVamoMax vs base vi mk s := rfl
@[simp] theorem exec_vamoFadd (vs : VReg) (base : XReg) (vi : VReg) (mk : VMask) (s : State) : exec (.vamoFadd vs base vi mk) s = execVamoFadd vs base vi mk s := rfl
@[simp] theorem exec_mattach (rd : XReg) (rs1 : XReg) (s : State) : exec (.mattach rd rs1) s = execMattach rd rs1 s := rfl
@[simp] theorem exec_mdetach (s : State) : exec (.mdetach) s = execMdetach s := rfl
@[simp] theorem exec_mclaim (rd : XReg) (rs1 : XReg) (s : State) : exec (.mclaim rd rs1) s = execMclaim rd rs1 s := rfl
@[simp] theorem exec_mrelease (os : Slot) (s : State) : exec (.mrelease os) s = execMrelease os s := rfl
@[simp] theorem exec_mlda (os : Slot) (base : XReg) (rs : XReg) (sp : BitVec 1) (fmt : BitVec 2) (s : State) : exec (.mlda os base rs sp fmt) s = execMlda os base rs sp fmt s := rfl
@[simp] theorem exec_mldb (os : Slot) (base : XReg) (rs : XReg) (fmt : BitVec 2) (s : State) : exec (.mldb os base rs fmt) s = execMldb os base rs fmt s := rfl
@[simp] theorem exec_mzero (t : BitVec 2) (s : State) : exec (.mzero t) s = execMzero t s := rfl
@[simp] theorem exec_mop (t : BitVec 2) (osa : Slot) (osb : Slot) (rs : XReg) (z : BitVec 1) (s : State) : exec (.mop t osa osb rs z) s = execMop t osa osb rs z s := rfl
@[simp] theorem exec_mtmv (vd : VReg) (t : BitVec 2) (rs : XReg) (mk : VMask) (s : State) : exec (.mtmv vd t rs mk) s = execMtmv vd t rs mk s := rfl
@[simp] theorem exec_mvtm (t : BitVec 2) (vs : VReg) (rs : XReg) (mk : VMask) (s : State) : exec (.mvtm t vs rs mk) s = execMvtm t vs rs mk s := rfl
@[simp] theorem exec_mtld (t : BitVec 2) (base : XReg) (rs : XReg) (s : State) : exec (.mtld t base rs) s = execMtld t base rs s := rfl
@[simp] theorem exec_mtst (t : BitVec 2) (base : XReg) (rs : XReg) (h : BitVec 1) (s : State) : exec (.mtst t base rs h) s = execMtst t base rs h s := rfl
@[simp] theorem exec_mprune (osd : Slot) (oss : Slot) (rs : XReg) (s : State) : exec (.mprune osd oss rs) s = execMprune osd oss rs s := rfl
@[simp] theorem exec_mhdr (rd : XReg) (os : Slot) (l : BitVec 1) (s : State) : exec (.mhdr rd os l) s = execMhdr rd os l s := rfl
@[simp] theorem exec_mwait (rd : XReg) (rs1 : XReg) (s : State) : exec (.mwait rd rs1) s = execMwait rd rs1 s := rfl
@[simp] theorem exec_pcopy (rd : XReg) (rs1 : XReg) (s : State) : exec (.pcopy rd rs1) s = execPcopy rd rs1 s := rfl
@[simp] theorem exec_pfill (rd : XReg) (rs1 : XReg) (s : State) : exec (.pfill rd rs1) s = execPfill rd rs1 s := rfl
@[simp] theorem exec_pwait (rd : XReg) (rs1 : XReg) (s : State) : exec (.pwait rd rs1) s = execPwait rd rs1 s := rfl
@[simp] theorem exec_ppoll (rd : XReg) (rs1 : XReg) (s : State) : exec (.ppoll rd rs1) s = execPpoll rd rs1 s := rfl
@[simp] theorem exec_pcancel (rd : XReg) (rs1 : XReg) (s : State) : exec (.pcancel rd rs1) s = execPcancel rd rs1 s := rfl
@[simp] theorem exec_clload (rd : XReg) (rs1 : XReg) (rs2 : XReg) (s : State) : exec (.clload rd rs1 rs2) s = execClload rd rs1 rs2 s := rfl
@[simp] theorem exec_clquery (vd : VReg) (vi : VReg) (rs1 : XReg) (s : State) : exec (.clquery vd vi rs1) s = execClquery vd vi rs1 s := rfl
@[simp] theorem exec_clrun (rd : XReg) (rs1 : XReg) (rs2 : XReg) (s : State) : exec (.clrun rd rs1 rs2) s = execClrun rd rs1 rs2 s := rfl
@[simp] theorem exec_clwait (rd : XReg) (rs1 : XReg) (s : State) : exec (.clwait rd rs1) s = execClwait rd rs1 s := rfl
@[simp] theorem exec_pfx (p : PReg) (sense : BitVec 1) (ce : BitVec 1) (copy : XReg) (s : State) : exec (.pfx p sense ce copy) s = execPfx p sense ce copy s := rfl
@[simp] theorem exec_tlbinv (v : Word) (s : State) : exec (.tlbinv v) s = execTlbinv v s := rfl
@[simp] theorem exec_vtypeWrite (v : Word) (s : State) : exec (.vtypeWrite v) s = execVtypeWrite v s := rfl
@[simp] theorem exec_registerWrite (cr : BitVec 11) (v : Word) (s : State) : exec (.registerWrite cr v) s = execRegisterWrite cr v s := rfl
@[simp] theorem exec_interruptEntry (s : State) : exec (.interruptEntry) s = execInterruptEntry s := rfl
@[simp] theorem exec_userCompletion (s : State) : exec (.userCompletion) s = execUserCompletion s := rfl
@[simp] theorem exec_saveFull (s : State) : exec (.saveFull) s = execSaveFull s := rfl
@[simp] theorem exec_localCompare (s : State) : exec (.localCompare) s = execLocalCompare s := rfl
@[simp] theorem exec_memoryReply (s : State) : exec (.memoryReply) s = execMemoryReply s := rfl
@[simp] theorem exec_divideComplete (s : State) : exec (.divideComplete) s = execDivideComplete s := rfl
@[simp] theorem exec_fenceWaitEnd (s : State) : exec (.fenceWaitEnd) s = execFenceWaitEnd s := rfl
@[simp] theorem exec_vectorOrderWaitEnd (s : State) : exec (.vectorOrderWaitEnd) s = execVectorOrderWaitEnd s := rfl
@[simp] theorem exec_queueEntryFree (s : State) : exec (.queueEntryFree) s = execQueueEntryFree s := rfl
@[simp] theorem exec_drainEnd (s : State) : exec (.drainEnd) s = execDrainEnd s := rfl
@[simp] theorem exec_sleepWake (s : State) : exec (.sleepWake) s = execSleepWake s := rfl
@[simp] theorem exec_cstopWaitEnd (s : State) : exec (.cstopWaitEnd) s = execCstopWaitEnd s := rfl
@[simp] theorem exec_creapWaitEnd (s : State) : exec (.creapWaitEnd) s = execCreapWaitEnd s := rfl
@[simp] theorem exec_joinlTakeover (s : State) : exec (.joinlTakeover) s = execJoinlTakeover s := rfl
@[simp] theorem exec_hwmRecheck (s : State) : exec (.hwmRecheck) s = execHwmRecheck s := rfl
@[simp] theorem exec_ctwrWaitEnd (s : State) : exec (.ctwrWaitEnd) s = execCtwrWaitEnd s := rfl
@[simp] theorem exec_streamIndexWaitEnd (s : State) : exec (.streamIndexWaitEnd) s = execStreamIndexWaitEnd s := rfl
@[simp] theorem exec_tlbinvWaitEnd (s : State) : exec (.tlbinvWaitEnd) s = execTlbinvWaitEnd s := rfl
@[simp] theorem exec_vectorQueueEntry (core : Nat) (base : Nat) (s : State) : exec (.vectorQueueEntry core base) s = execVectorQueueEntry core base s := rfl
@[simp] theorem exec_vectorDataPhase (core : Nat) (base : Nat) (s : State) : exec (.vectorDataPhase core base) s = execVectorDataPhase core base s := rfl
@[simp] theorem exec_probeQuery (n : Nat) (m : Option MsgIn) (s : State) : exec (.probeQuery n m) s = execProbeQuery n m s := rfl
@[simp] theorem exec_answer (n : Nat) (m : Option MsgIn) (s : State) : exec (.answer n m) s = execAnswer n m s := rfl
@[simp] theorem exec_barrierWaitEnd (s : State) : exec (.barrierWaitEnd) s = execBarrierWaitEnd s := rfl
@[simp] theorem exec_scatterDrainEnd (s : State) : exec (.scatterDrainEnd) s = execScatterDrainEnd s := rfl
@[simp] theorem exec_jobWaitEnd (s : State) : exec (.jobWaitEnd) s = execJobWaitEnd s := rfl
@[simp] theorem exec_attachJob (tile : Nat) (s : State) : exec (.attachJob tile) s = execAttachJob tile s := rfl
@[simp] theorem exec_detachJob (tile : Nat) (s : State) : exec (.detachJob tile) s = execDetachJob tile s := rfl
@[simp] theorem exec_slotReleaseJob (tile : Nat) (s : State) : exec (.slotReleaseJob tile) s = execSlotReleaseJob tile s := rfl
@[simp] theorem exec_operandLoadJob (tile : Nat) (s : State) : exec (.operandLoadJob tile) s = execOperandLoadJob tile s := rfl
@[simp] theorem exec_accumulatorJob (tile : Nat) (s : State) : exec (.accumulatorJob tile) s = execAccumulatorJob tile s := rfl
@[simp] theorem exec_mopJob (tile : Nat) (s : State) : exec (.mopJob tile) s = execMopJob tile s := rfl
@[simp] theorem exec_pruneJob (tile : Nat) (s : State) : exec (.pruneJob tile) s = execPruneJob tile s := rfl
@[simp] theorem exec_governorWindow (tile : Nat) (held : Nat) (s : State) : exec (.governorWindow tile held) s = execGovernorWindow tile held s := rfl
@[simp] theorem exec_porterJob (tile : Nat) (n : Nat) (s : State) : exec (.porterJob tile n) s = execPorterJob tile n s := rfl
@[simp] theorem exec_completionPlaceWaitEnd (s : State) : exec (.completionPlaceWaitEnd) s = execCompletionPlaceWaitEnd s := rfl
@[simp] theorem exec_blockTransfer (tile : Nat) (n : Nat) (s : State) : exec (.blockTransfer tile n) s = execBlockTransfer tile n s := rfl
@[simp] theorem exec_cellarLoadJob (tile : Nat) (s : State) : exec (.cellarLoadJob tile) s = execCellarLoadJob tile s := rfl
@[simp] theorem exec_kernelMove (tile : Nat) (s : State) : exec (.kernelMove tile) s = execKernelMove tile s := rfl
@[simp] theorem exec_hbmRefresh (tile : Nat) (row : Nat) (s : State) : exec (.hbmRefresh tile row) s = execHbmRefresh tile row s := rfl
@[simp] theorem exec_hbmTempSample (stack : Nat) (temp : BitVec 10) (s : State) : exec (.hbmTempSample stack temp) s = execHbmTempSample stack temp s := rfl
@[simp] theorem exec_thermalSample (die : Nat) (temp : BitVec 10) (s : State) : exec (.thermalSample die temp) s = execThermalSample die temp s := rfl
@[simp] theorem exec_droopBegin (stack : Nat) (s : State) : exec (.droopBegin stack) s = execDroopBegin stack s := rfl
@[simp] theorem exec_droopEnd (stack : Nat) (cycles : Nat) (s : State) : exec (.droopEnd stack cycles) s = execDroopEnd stack cycles s := rfl
@[simp] theorem exec_powerUpdate (watts : BitVec 16) (s : State) : exec (.powerUpdate watts) s = execPowerUpdate watts s := rfl
@[simp] theorem exec_dispatch (lseq : Nat) (tiles : List Nat) (s : State) : exec (.dispatch lseq tiles) s = execDispatch lseq tiles s := rfl
@[simp] theorem exec_placementComplete (lseq : Nat) (s : State) : exec (.placementComplete lseq) s = execPlacementComplete lseq s := rfl
@[simp] theorem exec_preemption (lseq : Nat) (s : State) : exec (.preemption lseq) s = execPreemption lseq s := rfl
@[simp] theorem exec_processRestore (lseq : Nat) (s : State) : exec (.processRestore lseq) s = execProcessRestore lseq s := rfl
@[simp] theorem exec_run (tile : Nat) (s : State) : exec (.run tile) s = execRun tile s := rfl
@[simp] theorem exec_quiesce (tile : Nat) (s : State) : exec (.quiesce tile) s = execQuiesce tile s := rfl
@[simp] theorem exec_gate (tile : Nat) (s : State) : exec (.gate tile) s = execGate tile s := rfl
@[simp] theorem exec_wake (tile : Nat) (s : State) : exec (.wake tile) s = execWake tile s := rfl
@[simp] theorem exec_quiesceComplete (tile : Nat) (s : State) : exec (.quiesceComplete tile) s = execQuiesceComplete tile s := rfl
@[simp] theorem exec_gatingComplete (tile : Nat) (s : State) : exec (.gatingComplete tile) s = execGatingComplete tile s := rfl
@[simp] theorem exec_wakingComplete (tile : Nat) (s : State) : exec (.wakingComplete tile) s = execWakingComplete tile s := rfl
@[simp] theorem exec_nak (link : Nat) (ftag : Nat) (s : State) : exec (.nak link ftag) s = execNak link ftag s := rfl
@[simp] theorem exec_ack (m : MsgIn) (s : State) : exec (.ack m) s = execAck m s := rfl
@[simp] theorem exec_offer (m : MsgIn) (s : State) : exec (.offer m) s = execOffer m s := rfl
@[simp] theorem exec_commit (m : MsgIn) (s : State) : exec (.commit m) s = execCommit m s := rfl
@[simp] theorem exec_data (m : MsgIn) (s : State) : exec (.data m) s = execData m s := rfl
@[simp] theorem exec_close (m : MsgIn) (s : State) : exec (.close m) s = execClose m s := rfl
@[simp] theorem exec_linkUp (link : Nat) (s : State) : exec (.linkUp link) s = execLinkUp link s := rfl
@[simp] theorem exec_linkTrainingTimeout (link : Nat) (s : State) : exec (.linkTrainingTimeout link) s = execLinkTrainingTimeout link s := rfl
@[simp] theorem exec_linkRetry (link : Nat) (s : State) : exec (.linkRetry link) s = execLinkRetry link s := rfl
@[simp] theorem exec_ackTimer (peer : Nat) (s : State) : exec (.ackTimer peer) s = execAckTimer peer s := rfl
@[simp] theorem exec_resendTimer (peer : Nat) (s : State) : exec (.resendTimer peer) s = execResendTimer peer s := rfl
@[simp] theorem exec_admitLaunch (m : MsgIn) (s : State) : exec (.admitLaunch m) s = execAdmit m s := rfl
@[simp] theorem exec_admitted (m : MsgIn) (s : State) : exec (.admitted m) s = execAdmitted m s := rfl
@[simp] theorem exec_image (m : MsgIn) (s : State) : exec (.image m) s = execImage m s := rfl
@[simp] theorem exec_reserve (m : MsgIn) (s : State) : exec (.reserve m) s = execReserve m s := rfl
@[simp] theorem exec_reserved (m : MsgIn) (s : State) : exec (.reserved m) s = execReserved m s := rfl
@[simp] theorem exec_place (m : MsgIn) (s : State) : exec (.place m) s = execPlace m s := rfl
@[simp] theorem exec_placed (m : MsgIn) (s : State) : exec (.placed m) s = execPlaced m s := rfl
@[simp] theorem exec_stopped (m : MsgIn) (s : State) : exec (.stopped m) s = execStopped m s := rfl
@[simp] theorem exec_endMsg (m : MsgIn) (s : State) : exec (.endMsg m) s = execEndMsg m s := rfl
@[simp] theorem exec_ended (m : MsgIn) (s : State) : exec (.ended m) s = execEnded m s := rfl
@[simp] theorem exec_knot (m : MsgIn) (s : State) : exec (.knot m) s = execKnot m s := rfl
@[simp] theorem exec_switch (m : MsgIn) (s : State) : exec (.switch m) s = execSwitch m s := rfl
@[simp] theorem exec_switched (m : MsgIn) (s : State) : exec (.switched m) s = execSwitched m s := rfl
@[simp] theorem exec_commitsave (m : MsgIn) (s : State) : exec (.commitsave m) s = execCommitsave m s := rfl
@[simp] theorem exec_restore (m : MsgIn) (s : State) : exec (.restore m) s = execRestore m s := rfl
@[simp] theorem exec_restored (m : MsgIn) (s : State) : exec (.restored m) s = execRestored m s := rfl
@[simp] theorem exec_join (m : MsgIn) (s : State) : exec (.join m) s = execJoin m s := rfl
@[simp] theorem exec_joined (m : MsgIn) (s : State) : exec (.joined m) s = execJoined m s := rfl
@[simp] theorem exec_park (m : MsgIn) (s : State) : exec (.park m) s = execPark m s := rfl
@[simp] theorem exec_stage (q : HostReq) (s : State) : exec (.stage q) s = execStage q s := rfl
@[simp] theorem exec_submit (q : HostReq) (s : State) : exec (.submit q) s = execSubmit q s := rfl
@[simp] theorem exec_cancel (q : HostReq) (s : State) : exec (.cancel q) s = execCancel q s := rfl
@[simp] theorem exec_query (q : HostReq) (s : State) : exec (.query q) s = execQuery q s := rfl
@[simp] theorem exec_knotlog (q : HostReq) (s : State) : exec (.knotlog q) s = execKnotlog q s := rfl
@[simp] theorem exec_floor (q : HostReq) (s : State) : exec (.floor q) s = execFloor q s := rfl
@[simp] theorem exec_attest (q : HostReq) (s : State) : exec (.attest q) s = execAttest q s := rfl
@[simp] theorem exec_release (q : HostReq) (s : State) : exec (.release q) s = execRelease q s := rfl
@[simp] theorem exec_rdmaWrite (w : RdmaWrite) (s : State) : exec (.rdmaWrite w) s = execRdmaWrite w s := rfl
@[simp] theorem exec_deviceReset (b : BootInput) (s : State) : exec (.deviceReset b) s = execDeviceReset b s := rfl
@[simp] theorem exec_securityAlarm (s : State) : exec (.securityAlarm) s = execSecurityAlarm s := rfl
@[simp] theorem exec_illegalInsn (w : Insn) (s : State) : exec (.illegalInsn w) s = execIllegalInsn w s := rfl
@[simp] theorem exec_pageFaultFetch (s : State) : exec (.pageFaultFetch) s = execPageFaultFetch s := rfl
@[simp] theorem exec_flitRejected (link : Nat) (f : Flit) (s : State) : exec (.flitRejected link f) s = execFlitRejected link f s := rfl
@[simp] theorem exec_transitFlit (m : MsgIn) (s : State) : exec (.transitFlit m) s = execTransitFlit m s := rfl
@[simp] theorem exec_badCommand (q : HostReq) (s : State) : exec (.badCommand q) s = execBadCommand q s := rfl
@[simp] theorem exec_reportSigned (salt : BitVec 512) (s : State) : exec (.reportSigned salt) s = execReportSigned salt s := rfl

end Sys2Proof.Machine
end

