-- ==== Sys2Proof/Laws/State.lean ====
section
/-! SUPPORT. Sys2Proof/Laws/State.lean: what each update of the state leaves unchanged, one lemma for each field and update, true by definition, and what reading a context, core, tile, register or predicate gives after it was written. -/

namespace Sys2Proof.Machine

-- The package is also compiled as one text, where a thread for each small theorem is more than there is room for.
set_option Elab.async false

@[simp] theorem State.setCtx_cur (s : State) (c : Nat) (x : Ctx) : (s.setCtx c x).cur = s.cur := rfl
@[simp] theorem State.setCtx_iw (s : State) (c : Nat) (x : Ctx) : (s.setCtx c x).iw = s.iw := rfl
@[simp] theorem State.setCtx_sched (s : State) (c : Nat) (x : Ctx) : (s.setCtx c x).sched = s.sched := rfl
@[simp] theorem State.setCtx_fresh (s : State) (c : Nat) (x : Ctx) : (s.setCtx c x).fresh = s.fresh := rfl
@[simp] theorem State.setCtx_cores (s : State) (c : Nat) (x : Ctx) : (s.setCtx c x).cores = s.cores := rfl
@[simp] theorem State.setCtx_tiles (s : State) (c : Nat) (x : Ctx) : (s.setCtx c x).tiles = s.tiles := rfl
@[simp] theorem State.setCtx_kmem (s : State) (c : Nat) (x : Ctx) : (s.setCtx c x).kmem = s.kmem := rfl
@[simp] theorem State.setCtx_routes (s : State) (c : Nat) (x : Ctx) : (s.setCtx c x).routes = s.routes := rfl
@[simp] theorem State.setCtx_power (s : State) (c : Nat) (x : Ctx) : (s.setCtx c x).power = s.power := rfl
@[simp] theorem State.setCtx_dies (s : State) (c : Nat) (x : Ctx) : (s.setCtx c x).dies = s.dies := rfl
@[simp] theorem State.setCtx_hbm (s : State) (c : Nat) (x : Ctx) : (s.setCtx c x).hbm = s.hbm := rfl
@[simp] theorem State.setCtx_droop (s : State) (c : Nat) (x : Ctx) : (s.setCtx c x).droop = s.droop := rfl
@[simp] theorem State.setCtx_pkgPower (s : State) (c : Nat) (x : Ctx) : (s.setCtx c x).pkgPower = s.pkgPower := rfl
@[simp] theorem State.setCtx_floor (s : State) (c : Nat) (x : Ctx) : (s.setCtx c x).floor = s.floor := rfl
@[simp] theorem State.setCtx_ballast (s : State) (c : Nat) (x : Ctx) : (s.setCtx c x).ballast = s.ballast := rfl
@[simp] theorem State.setCtx_kstopped (s : State) (c : Nat) (x : Ctx) : (s.setCtx c x).kstopped = s.kstopped := rfl
@[simp] theorem State.setCtx_nextLseq (s : State) (c : Nat) (x : Ctx) : (s.setCtx c x).nextLseq = s.nextLseq := rfl
@[simp] theorem State.setCtx_entries (s : State) (c : Nat) (x : Ctx) : (s.setCtx c x).entries = s.entries := rfl
@[simp] theorem State.setCtx_probes (s : State) (c : Nat) (x : Ctx) : (s.setCtx c x).probes = s.probes := rfl
@[simp] theorem State.setCtx_links (s : State) (c : Nat) (x : Ctx) : (s.setCtx c x).links = s.links := rfl
@[simp] theorem State.setCtx_peers (s : State) (c : Nat) (x : Ctx) : (s.setCtx c x).peers = s.peers := rfl
@[simp] theorem State.setCtx_transit (s : State) (c : Nat) (x : Ctx) : (s.setCtx c x).transit = s.transit := rfl
@[simp] theorem State.setCtx_remotes (s : State) (c : Nat) (x : Ctx) : (s.setCtx c x).remotes = s.remotes := rfl
@[simp] theorem State.setCtx_inbound (s : State) (c : Nat) (x : Ctx) : (s.setCtx c x).inbound = s.inbound := rfl
@[simp] theorem State.setCtx_regions (s : State) (c : Nat) (x : Ctx) : (s.setCtx c x).regions = s.regions := rfl
@[simp] theorem State.setCtx_hosts (s : State) (c : Nat) (x : Ctx) : (s.setCtx c x).hosts = s.hosts := rfl
@[simp] theorem State.setCtx_sent (s : State) (c : Nat) (x : Ctx) : (s.setCtx c x).sent = s.sent := rfl
@[simp] theorem State.setCtx_qperr (s : State) (c : Nat) (x : Ctx) : (s.setCtx c x).qperr = s.qperr := rfl
@[simp] theorem State.setCtx_qpruns (s : State) (c : Nat) (x : Ctx) : (s.setCtx c x).qpruns = s.qpruns := rfl
@[simp] theorem State.setCtx_acks (s : State) (c : Nat) (x : Ctx) : (s.setCtx c x).acks = s.acks := rfl
@[simp] theorem State.setCtx_sec (s : State) (c : Nat) (x : Ctx) : (s.setCtx c x).sec = s.sec := rfl

@[simp] theorem State.setCore_cur (s : State) (k : Nat) (x : Core) : (s.setCore k x).cur = s.cur := rfl
@[simp] theorem State.setCore_iw (s : State) (k : Nat) (x : Core) : (s.setCore k x).iw = s.iw := rfl
@[simp] theorem State.setCore_sched (s : State) (k : Nat) (x : Core) : (s.setCore k x).sched = s.sched := rfl
@[simp] theorem State.setCore_fresh (s : State) (k : Nat) (x : Core) : (s.setCore k x).fresh = s.fresh := rfl
@[simp] theorem State.setCore_ctxs (s : State) (k : Nat) (x : Core) : (s.setCore k x).ctxs = s.ctxs := rfl
@[simp] theorem State.setCore_tiles (s : State) (k : Nat) (x : Core) : (s.setCore k x).tiles = s.tiles := rfl
@[simp] theorem State.setCore_kmem (s : State) (k : Nat) (x : Core) : (s.setCore k x).kmem = s.kmem := rfl
@[simp] theorem State.setCore_routes (s : State) (k : Nat) (x : Core) : (s.setCore k x).routes = s.routes := rfl
@[simp] theorem State.setCore_power (s : State) (k : Nat) (x : Core) : (s.setCore k x).power = s.power := rfl
@[simp] theorem State.setCore_dies (s : State) (k : Nat) (x : Core) : (s.setCore k x).dies = s.dies := rfl
@[simp] theorem State.setCore_hbm (s : State) (k : Nat) (x : Core) : (s.setCore k x).hbm = s.hbm := rfl
@[simp] theorem State.setCore_droop (s : State) (k : Nat) (x : Core) : (s.setCore k x).droop = s.droop := rfl
@[simp] theorem State.setCore_pkgPower (s : State) (k : Nat) (x : Core) : (s.setCore k x).pkgPower = s.pkgPower := rfl
@[simp] theorem State.setCore_floor (s : State) (k : Nat) (x : Core) : (s.setCore k x).floor = s.floor := rfl
@[simp] theorem State.setCore_ballast (s : State) (k : Nat) (x : Core) : (s.setCore k x).ballast = s.ballast := rfl
@[simp] theorem State.setCore_kstopped (s : State) (k : Nat) (x : Core) : (s.setCore k x).kstopped = s.kstopped := rfl
@[simp] theorem State.setCore_nextLseq (s : State) (k : Nat) (x : Core) : (s.setCore k x).nextLseq = s.nextLseq := rfl
@[simp] theorem State.setCore_entries (s : State) (k : Nat) (x : Core) : (s.setCore k x).entries = s.entries := rfl
@[simp] theorem State.setCore_probes (s : State) (k : Nat) (x : Core) : (s.setCore k x).probes = s.probes := rfl
@[simp] theorem State.setCore_links (s : State) (k : Nat) (x : Core) : (s.setCore k x).links = s.links := rfl
@[simp] theorem State.setCore_peers (s : State) (k : Nat) (x : Core) : (s.setCore k x).peers = s.peers := rfl
@[simp] theorem State.setCore_transit (s : State) (k : Nat) (x : Core) : (s.setCore k x).transit = s.transit := rfl
@[simp] theorem State.setCore_remotes (s : State) (k : Nat) (x : Core) : (s.setCore k x).remotes = s.remotes := rfl
@[simp] theorem State.setCore_inbound (s : State) (k : Nat) (x : Core) : (s.setCore k x).inbound = s.inbound := rfl
@[simp] theorem State.setCore_regions (s : State) (k : Nat) (x : Core) : (s.setCore k x).regions = s.regions := rfl
@[simp] theorem State.setCore_hosts (s : State) (k : Nat) (x : Core) : (s.setCore k x).hosts = s.hosts := rfl
@[simp] theorem State.setCore_sent (s : State) (k : Nat) (x : Core) : (s.setCore k x).sent = s.sent := rfl
@[simp] theorem State.setCore_qperr (s : State) (k : Nat) (x : Core) : (s.setCore k x).qperr = s.qperr := rfl
@[simp] theorem State.setCore_qpruns (s : State) (k : Nat) (x : Core) : (s.setCore k x).qpruns = s.qpruns := rfl
@[simp] theorem State.setCore_acks (s : State) (k : Nat) (x : Core) : (s.setCore k x).acks = s.acks := rfl
@[simp] theorem State.setCore_sec (s : State) (k : Nat) (x : Core) : (s.setCore k x).sec = s.sec := rfl

@[simp] theorem State.setTile_cur (s : State) (k : Nat) (x : Tile) : (s.setTile k x).cur = s.cur := rfl
@[simp] theorem State.setTile_iw (s : State) (k : Nat) (x : Tile) : (s.setTile k x).iw = s.iw := rfl
@[simp] theorem State.setTile_sched (s : State) (k : Nat) (x : Tile) : (s.setTile k x).sched = s.sched := rfl
@[simp] theorem State.setTile_fresh (s : State) (k : Nat) (x : Tile) : (s.setTile k x).fresh = s.fresh := rfl
@[simp] theorem State.setTile_ctxs (s : State) (k : Nat) (x : Tile) : (s.setTile k x).ctxs = s.ctxs := rfl
@[simp] theorem State.setTile_cores (s : State) (k : Nat) (x : Tile) : (s.setTile k x).cores = s.cores := rfl
@[simp] theorem State.setTile_kmem (s : State) (k : Nat) (x : Tile) : (s.setTile k x).kmem = s.kmem := rfl
@[simp] theorem State.setTile_routes (s : State) (k : Nat) (x : Tile) : (s.setTile k x).routes = s.routes := rfl
@[simp] theorem State.setTile_power (s : State) (k : Nat) (x : Tile) : (s.setTile k x).power = s.power := rfl
@[simp] theorem State.setTile_dies (s : State) (k : Nat) (x : Tile) : (s.setTile k x).dies = s.dies := rfl
@[simp] theorem State.setTile_hbm (s : State) (k : Nat) (x : Tile) : (s.setTile k x).hbm = s.hbm := rfl
@[simp] theorem State.setTile_droop (s : State) (k : Nat) (x : Tile) : (s.setTile k x).droop = s.droop := rfl
@[simp] theorem State.setTile_pkgPower (s : State) (k : Nat) (x : Tile) : (s.setTile k x).pkgPower = s.pkgPower := rfl
@[simp] theorem State.setTile_floor (s : State) (k : Nat) (x : Tile) : (s.setTile k x).floor = s.floor := rfl
@[simp] theorem State.setTile_ballast (s : State) (k : Nat) (x : Tile) : (s.setTile k x).ballast = s.ballast := rfl
@[simp] theorem State.setTile_kstopped (s : State) (k : Nat) (x : Tile) : (s.setTile k x).kstopped = s.kstopped := rfl
@[simp] theorem State.setTile_nextLseq (s : State) (k : Nat) (x : Tile) : (s.setTile k x).nextLseq = s.nextLseq := rfl
@[simp] theorem State.setTile_entries (s : State) (k : Nat) (x : Tile) : (s.setTile k x).entries = s.entries := rfl
@[simp] theorem State.setTile_probes (s : State) (k : Nat) (x : Tile) : (s.setTile k x).probes = s.probes := rfl
@[simp] theorem State.setTile_links (s : State) (k : Nat) (x : Tile) : (s.setTile k x).links = s.links := rfl
@[simp] theorem State.setTile_peers (s : State) (k : Nat) (x : Tile) : (s.setTile k x).peers = s.peers := rfl
@[simp] theorem State.setTile_transit (s : State) (k : Nat) (x : Tile) : (s.setTile k x).transit = s.transit := rfl
@[simp] theorem State.setTile_remotes (s : State) (k : Nat) (x : Tile) : (s.setTile k x).remotes = s.remotes := rfl
@[simp] theorem State.setTile_inbound (s : State) (k : Nat) (x : Tile) : (s.setTile k x).inbound = s.inbound := rfl
@[simp] theorem State.setTile_regions (s : State) (k : Nat) (x : Tile) : (s.setTile k x).regions = s.regions := rfl
@[simp] theorem State.setTile_hosts (s : State) (k : Nat) (x : Tile) : (s.setTile k x).hosts = s.hosts := rfl
@[simp] theorem State.setTile_sent (s : State) (k : Nat) (x : Tile) : (s.setTile k x).sent = s.sent := rfl
@[simp] theorem State.setTile_qperr (s : State) (k : Nat) (x : Tile) : (s.setTile k x).qperr = s.qperr := rfl
@[simp] theorem State.setTile_qpruns (s : State) (k : Nat) (x : Tile) : (s.setTile k x).qpruns = s.qpruns := rfl
@[simp] theorem State.setTile_acks (s : State) (k : Nat) (x : Tile) : (s.setTile k x).acks = s.acks := rfl
@[simp] theorem State.setTile_sec (s : State) (k : Nat) (x : Tile) : (s.setTile k x).sec = s.sec := rfl

@[simp] theorem State.updCtx_cur (s : State) (c : Nat) (f : Ctx → Ctx) : (s.updCtx c f).cur = s.cur := rfl
@[simp] theorem State.updCtx_iw (s : State) (c : Nat) (f : Ctx → Ctx) : (s.updCtx c f).iw = s.iw := rfl
@[simp] theorem State.updCtx_sched (s : State) (c : Nat) (f : Ctx → Ctx) : (s.updCtx c f).sched = s.sched := rfl
@[simp] theorem State.updCtx_fresh (s : State) (c : Nat) (f : Ctx → Ctx) : (s.updCtx c f).fresh = s.fresh := rfl
@[simp] theorem State.updCtx_cores (s : State) (c : Nat) (f : Ctx → Ctx) : (s.updCtx c f).cores = s.cores := rfl
@[simp] theorem State.updCtx_tiles (s : State) (c : Nat) (f : Ctx → Ctx) : (s.updCtx c f).tiles = s.tiles := rfl
@[simp] theorem State.updCtx_kmem (s : State) (c : Nat) (f : Ctx → Ctx) : (s.updCtx c f).kmem = s.kmem := rfl
@[simp] theorem State.updCtx_routes (s : State) (c : Nat) (f : Ctx → Ctx) : (s.updCtx c f).routes = s.routes := rfl
@[simp] theorem State.updCtx_power (s : State) (c : Nat) (f : Ctx → Ctx) : (s.updCtx c f).power = s.power := rfl
@[simp] theorem State.updCtx_dies (s : State) (c : Nat) (f : Ctx → Ctx) : (s.updCtx c f).dies = s.dies := rfl
@[simp] theorem State.updCtx_hbm (s : State) (c : Nat) (f : Ctx → Ctx) : (s.updCtx c f).hbm = s.hbm := rfl
@[simp] theorem State.updCtx_droop (s : State) (c : Nat) (f : Ctx → Ctx) : (s.updCtx c f).droop = s.droop := rfl
@[simp] theorem State.updCtx_pkgPower (s : State) (c : Nat) (f : Ctx → Ctx) : (s.updCtx c f).pkgPower = s.pkgPower := rfl
@[simp] theorem State.updCtx_floor (s : State) (c : Nat) (f : Ctx → Ctx) : (s.updCtx c f).floor = s.floor := rfl
@[simp] theorem State.updCtx_ballast (s : State) (c : Nat) (f : Ctx → Ctx) : (s.updCtx c f).ballast = s.ballast := rfl
@[simp] theorem State.updCtx_kstopped (s : State) (c : Nat) (f : Ctx → Ctx) : (s.updCtx c f).kstopped = s.kstopped := rfl
@[simp] theorem State.updCtx_nextLseq (s : State) (c : Nat) (f : Ctx → Ctx) : (s.updCtx c f).nextLseq = s.nextLseq := rfl
@[simp] theorem State.updCtx_entries (s : State) (c : Nat) (f : Ctx → Ctx) : (s.updCtx c f).entries = s.entries := rfl
@[simp] theorem State.updCtx_probes (s : State) (c : Nat) (f : Ctx → Ctx) : (s.updCtx c f).probes = s.probes := rfl
@[simp] theorem State.updCtx_links (s : State) (c : Nat) (f : Ctx → Ctx) : (s.updCtx c f).links = s.links := rfl
@[simp] theorem State.updCtx_peers (s : State) (c : Nat) (f : Ctx → Ctx) : (s.updCtx c f).peers = s.peers := rfl
@[simp] theorem State.updCtx_transit (s : State) (c : Nat) (f : Ctx → Ctx) : (s.updCtx c f).transit = s.transit := rfl
@[simp] theorem State.updCtx_remotes (s : State) (c : Nat) (f : Ctx → Ctx) : (s.updCtx c f).remotes = s.remotes := rfl
@[simp] theorem State.updCtx_inbound (s : State) (c : Nat) (f : Ctx → Ctx) : (s.updCtx c f).inbound = s.inbound := rfl
@[simp] theorem State.updCtx_regions (s : State) (c : Nat) (f : Ctx → Ctx) : (s.updCtx c f).regions = s.regions := rfl
@[simp] theorem State.updCtx_hosts (s : State) (c : Nat) (f : Ctx → Ctx) : (s.updCtx c f).hosts = s.hosts := rfl
@[simp] theorem State.updCtx_sent (s : State) (c : Nat) (f : Ctx → Ctx) : (s.updCtx c f).sent = s.sent := rfl
@[simp] theorem State.updCtx_qperr (s : State) (c : Nat) (f : Ctx → Ctx) : (s.updCtx c f).qperr = s.qperr := rfl
@[simp] theorem State.updCtx_qpruns (s : State) (c : Nat) (f : Ctx → Ctx) : (s.updCtx c f).qpruns = s.qpruns := rfl
@[simp] theorem State.updCtx_acks (s : State) (c : Nat) (f : Ctx → Ctx) : (s.updCtx c f).acks = s.acks := rfl
@[simp] theorem State.updCtx_sec (s : State) (c : Nat) (f : Ctx → Ctx) : (s.updCtx c f).sec = s.sec := rfl

@[simp] theorem State.updCore_cur (s : State) (k : Nat) (f : Core → Core) : (s.updCore k f).cur = s.cur := rfl
@[simp] theorem State.updCore_iw (s : State) (k : Nat) (f : Core → Core) : (s.updCore k f).iw = s.iw := rfl
@[simp] theorem State.updCore_sched (s : State) (k : Nat) (f : Core → Core) : (s.updCore k f).sched = s.sched := rfl
@[simp] theorem State.updCore_fresh (s : State) (k : Nat) (f : Core → Core) : (s.updCore k f).fresh = s.fresh := rfl
@[simp] theorem State.updCore_ctxs (s : State) (k : Nat) (f : Core → Core) : (s.updCore k f).ctxs = s.ctxs := rfl
@[simp] theorem State.updCore_tiles (s : State) (k : Nat) (f : Core → Core) : (s.updCore k f).tiles = s.tiles := rfl
@[simp] theorem State.updCore_kmem (s : State) (k : Nat) (f : Core → Core) : (s.updCore k f).kmem = s.kmem := rfl
@[simp] theorem State.updCore_routes (s : State) (k : Nat) (f : Core → Core) : (s.updCore k f).routes = s.routes := rfl
@[simp] theorem State.updCore_power (s : State) (k : Nat) (f : Core → Core) : (s.updCore k f).power = s.power := rfl
@[simp] theorem State.updCore_dies (s : State) (k : Nat) (f : Core → Core) : (s.updCore k f).dies = s.dies := rfl
@[simp] theorem State.updCore_hbm (s : State) (k : Nat) (f : Core → Core) : (s.updCore k f).hbm = s.hbm := rfl
@[simp] theorem State.updCore_droop (s : State) (k : Nat) (f : Core → Core) : (s.updCore k f).droop = s.droop := rfl
@[simp] theorem State.updCore_pkgPower (s : State) (k : Nat) (f : Core → Core) : (s.updCore k f).pkgPower = s.pkgPower := rfl
@[simp] theorem State.updCore_floor (s : State) (k : Nat) (f : Core → Core) : (s.updCore k f).floor = s.floor := rfl
@[simp] theorem State.updCore_ballast (s : State) (k : Nat) (f : Core → Core) : (s.updCore k f).ballast = s.ballast := rfl
@[simp] theorem State.updCore_kstopped (s : State) (k : Nat) (f : Core → Core) : (s.updCore k f).kstopped = s.kstopped := rfl
@[simp] theorem State.updCore_nextLseq (s : State) (k : Nat) (f : Core → Core) : (s.updCore k f).nextLseq = s.nextLseq := rfl
@[simp] theorem State.updCore_entries (s : State) (k : Nat) (f : Core → Core) : (s.updCore k f).entries = s.entries := rfl
@[simp] theorem State.updCore_probes (s : State) (k : Nat) (f : Core → Core) : (s.updCore k f).probes = s.probes := rfl
@[simp] theorem State.updCore_links (s : State) (k : Nat) (f : Core → Core) : (s.updCore k f).links = s.links := rfl
@[simp] theorem State.updCore_peers (s : State) (k : Nat) (f : Core → Core) : (s.updCore k f).peers = s.peers := rfl
@[simp] theorem State.updCore_transit (s : State) (k : Nat) (f : Core → Core) : (s.updCore k f).transit = s.transit := rfl
@[simp] theorem State.updCore_remotes (s : State) (k : Nat) (f : Core → Core) : (s.updCore k f).remotes = s.remotes := rfl
@[simp] theorem State.updCore_inbound (s : State) (k : Nat) (f : Core → Core) : (s.updCore k f).inbound = s.inbound := rfl
@[simp] theorem State.updCore_regions (s : State) (k : Nat) (f : Core → Core) : (s.updCore k f).regions = s.regions := rfl
@[simp] theorem State.updCore_hosts (s : State) (k : Nat) (f : Core → Core) : (s.updCore k f).hosts = s.hosts := rfl
@[simp] theorem State.updCore_sent (s : State) (k : Nat) (f : Core → Core) : (s.updCore k f).sent = s.sent := rfl
@[simp] theorem State.updCore_qperr (s : State) (k : Nat) (f : Core → Core) : (s.updCore k f).qperr = s.qperr := rfl
@[simp] theorem State.updCore_qpruns (s : State) (k : Nat) (f : Core → Core) : (s.updCore k f).qpruns = s.qpruns := rfl
@[simp] theorem State.updCore_acks (s : State) (k : Nat) (f : Core → Core) : (s.updCore k f).acks = s.acks := rfl
@[simp] theorem State.updCore_sec (s : State) (k : Nat) (f : Core → Core) : (s.updCore k f).sec = s.sec := rfl

@[simp] theorem State.updTile_cur (s : State) (k : Nat) (f : Tile → Tile) : (s.updTile k f).cur = s.cur := rfl
@[simp] theorem State.updTile_iw (s : State) (k : Nat) (f : Tile → Tile) : (s.updTile k f).iw = s.iw := rfl
@[simp] theorem State.updTile_sched (s : State) (k : Nat) (f : Tile → Tile) : (s.updTile k f).sched = s.sched := rfl
@[simp] theorem State.updTile_fresh (s : State) (k : Nat) (f : Tile → Tile) : (s.updTile k f).fresh = s.fresh := rfl
@[simp] theorem State.updTile_ctxs (s : State) (k : Nat) (f : Tile → Tile) : (s.updTile k f).ctxs = s.ctxs := rfl
@[simp] theorem State.updTile_cores (s : State) (k : Nat) (f : Tile → Tile) : (s.updTile k f).cores = s.cores := rfl
@[simp] theorem State.updTile_kmem (s : State) (k : Nat) (f : Tile → Tile) : (s.updTile k f).kmem = s.kmem := rfl
@[simp] theorem State.updTile_routes (s : State) (k : Nat) (f : Tile → Tile) : (s.updTile k f).routes = s.routes := rfl
@[simp] theorem State.updTile_power (s : State) (k : Nat) (f : Tile → Tile) : (s.updTile k f).power = s.power := rfl
@[simp] theorem State.updTile_dies (s : State) (k : Nat) (f : Tile → Tile) : (s.updTile k f).dies = s.dies := rfl
@[simp] theorem State.updTile_hbm (s : State) (k : Nat) (f : Tile → Tile) : (s.updTile k f).hbm = s.hbm := rfl
@[simp] theorem State.updTile_droop (s : State) (k : Nat) (f : Tile → Tile) : (s.updTile k f).droop = s.droop := rfl
@[simp] theorem State.updTile_pkgPower (s : State) (k : Nat) (f : Tile → Tile) : (s.updTile k f).pkgPower = s.pkgPower := rfl
@[simp] theorem State.updTile_floor (s : State) (k : Nat) (f : Tile → Tile) : (s.updTile k f).floor = s.floor := rfl
@[simp] theorem State.updTile_ballast (s : State) (k : Nat) (f : Tile → Tile) : (s.updTile k f).ballast = s.ballast := rfl
@[simp] theorem State.updTile_kstopped (s : State) (k : Nat) (f : Tile → Tile) : (s.updTile k f).kstopped = s.kstopped := rfl
@[simp] theorem State.updTile_nextLseq (s : State) (k : Nat) (f : Tile → Tile) : (s.updTile k f).nextLseq = s.nextLseq := rfl
@[simp] theorem State.updTile_entries (s : State) (k : Nat) (f : Tile → Tile) : (s.updTile k f).entries = s.entries := rfl
@[simp] theorem State.updTile_probes (s : State) (k : Nat) (f : Tile → Tile) : (s.updTile k f).probes = s.probes := rfl
@[simp] theorem State.updTile_links (s : State) (k : Nat) (f : Tile → Tile) : (s.updTile k f).links = s.links := rfl
@[simp] theorem State.updTile_peers (s : State) (k : Nat) (f : Tile → Tile) : (s.updTile k f).peers = s.peers := rfl
@[simp] theorem State.updTile_transit (s : State) (k : Nat) (f : Tile → Tile) : (s.updTile k f).transit = s.transit := rfl
@[simp] theorem State.updTile_remotes (s : State) (k : Nat) (f : Tile → Tile) : (s.updTile k f).remotes = s.remotes := rfl
@[simp] theorem State.updTile_inbound (s : State) (k : Nat) (f : Tile → Tile) : (s.updTile k f).inbound = s.inbound := rfl
@[simp] theorem State.updTile_regions (s : State) (k : Nat) (f : Tile → Tile) : (s.updTile k f).regions = s.regions := rfl
@[simp] theorem State.updTile_hosts (s : State) (k : Nat) (f : Tile → Tile) : (s.updTile k f).hosts = s.hosts := rfl
@[simp] theorem State.updTile_sent (s : State) (k : Nat) (f : Tile → Tile) : (s.updTile k f).sent = s.sent := rfl
@[simp] theorem State.updTile_qperr (s : State) (k : Nat) (f : Tile → Tile) : (s.updTile k f).qperr = s.qperr := rfl
@[simp] theorem State.updTile_qpruns (s : State) (k : Nat) (f : Tile → Tile) : (s.updTile k f).qpruns = s.qpruns := rfl
@[simp] theorem State.updTile_acks (s : State) (k : Nat) (f : Tile → Tile) : (s.updTile k f).acks = s.acks := rfl
@[simp] theorem State.updTile_sec (s : State) (k : Nat) (f : Tile → Tile) : (s.updTile k f).sec = s.sec := rfl

@[simp] theorem State.updMe_cur (s : State) (f : Ctx → Ctx) : (s.updMe f).cur = s.cur := rfl
@[simp] theorem State.updMe_iw (s : State) (f : Ctx → Ctx) : (s.updMe f).iw = s.iw := rfl
@[simp] theorem State.updMe_sched (s : State) (f : Ctx → Ctx) : (s.updMe f).sched = s.sched := rfl
@[simp] theorem State.updMe_fresh (s : State) (f : Ctx → Ctx) : (s.updMe f).fresh = s.fresh := rfl
@[simp] theorem State.updMe_cores (s : State) (f : Ctx → Ctx) : (s.updMe f).cores = s.cores := rfl
@[simp] theorem State.updMe_tiles (s : State) (f : Ctx → Ctx) : (s.updMe f).tiles = s.tiles := rfl
@[simp] theorem State.updMe_kmem (s : State) (f : Ctx → Ctx) : (s.updMe f).kmem = s.kmem := rfl
@[simp] theorem State.updMe_routes (s : State) (f : Ctx → Ctx) : (s.updMe f).routes = s.routes := rfl
@[simp] theorem State.updMe_power (s : State) (f : Ctx → Ctx) : (s.updMe f).power = s.power := rfl
@[simp] theorem State.updMe_dies (s : State) (f : Ctx → Ctx) : (s.updMe f).dies = s.dies := rfl
@[simp] theorem State.updMe_hbm (s : State) (f : Ctx → Ctx) : (s.updMe f).hbm = s.hbm := rfl
@[simp] theorem State.updMe_droop (s : State) (f : Ctx → Ctx) : (s.updMe f).droop = s.droop := rfl
@[simp] theorem State.updMe_pkgPower (s : State) (f : Ctx → Ctx) : (s.updMe f).pkgPower = s.pkgPower := rfl
@[simp] theorem State.updMe_floor (s : State) (f : Ctx → Ctx) : (s.updMe f).floor = s.floor := rfl
@[simp] theorem State.updMe_ballast (s : State) (f : Ctx → Ctx) : (s.updMe f).ballast = s.ballast := rfl
@[simp] theorem State.updMe_kstopped (s : State) (f : Ctx → Ctx) : (s.updMe f).kstopped = s.kstopped := rfl
@[simp] theorem State.updMe_nextLseq (s : State) (f : Ctx → Ctx) : (s.updMe f).nextLseq = s.nextLseq := rfl
@[simp] theorem State.updMe_entries (s : State) (f : Ctx → Ctx) : (s.updMe f).entries = s.entries := rfl
@[simp] theorem State.updMe_probes (s : State) (f : Ctx → Ctx) : (s.updMe f).probes = s.probes := rfl
@[simp] theorem State.updMe_links (s : State) (f : Ctx → Ctx) : (s.updMe f).links = s.links := rfl
@[simp] theorem State.updMe_peers (s : State) (f : Ctx → Ctx) : (s.updMe f).peers = s.peers := rfl
@[simp] theorem State.updMe_transit (s : State) (f : Ctx → Ctx) : (s.updMe f).transit = s.transit := rfl
@[simp] theorem State.updMe_remotes (s : State) (f : Ctx → Ctx) : (s.updMe f).remotes = s.remotes := rfl
@[simp] theorem State.updMe_inbound (s : State) (f : Ctx → Ctx) : (s.updMe f).inbound = s.inbound := rfl
@[simp] theorem State.updMe_regions (s : State) (f : Ctx → Ctx) : (s.updMe f).regions = s.regions := rfl
@[simp] theorem State.updMe_hosts (s : State) (f : Ctx → Ctx) : (s.updMe f).hosts = s.hosts := rfl
@[simp] theorem State.updMe_sent (s : State) (f : Ctx → Ctx) : (s.updMe f).sent = s.sent := rfl
@[simp] theorem State.updMe_qperr (s : State) (f : Ctx → Ctx) : (s.updMe f).qperr = s.qperr := rfl
@[simp] theorem State.updMe_qpruns (s : State) (f : Ctx → Ctx) : (s.updMe f).qpruns = s.qpruns := rfl
@[simp] theorem State.updMe_acks (s : State) (f : Ctx → Ctx) : (s.updMe f).acks = s.acks := rfl
@[simp] theorem State.updMe_sec (s : State) (f : Ctx → Ctx) : (s.updMe f).sec = s.sec := rfl

@[simp] theorem State.updMyCore_cur (s : State) (f : Core → Core) : (s.updMyCore f).cur = s.cur := rfl
@[simp] theorem State.updMyCore_iw (s : State) (f : Core → Core) : (s.updMyCore f).iw = s.iw := rfl
@[simp] theorem State.updMyCore_sched (s : State) (f : Core → Core) : (s.updMyCore f).sched = s.sched := rfl
@[simp] theorem State.updMyCore_fresh (s : State) (f : Core → Core) : (s.updMyCore f).fresh = s.fresh := rfl
@[simp] theorem State.updMyCore_ctxs (s : State) (f : Core → Core) : (s.updMyCore f).ctxs = s.ctxs := rfl
@[simp] theorem State.updMyCore_tiles (s : State) (f : Core → Core) : (s.updMyCore f).tiles = s.tiles := rfl
@[simp] theorem State.updMyCore_kmem (s : State) (f : Core → Core) : (s.updMyCore f).kmem = s.kmem := rfl
@[simp] theorem State.updMyCore_routes (s : State) (f : Core → Core) : (s.updMyCore f).routes = s.routes := rfl
@[simp] theorem State.updMyCore_power (s : State) (f : Core → Core) : (s.updMyCore f).power = s.power := rfl
@[simp] theorem State.updMyCore_dies (s : State) (f : Core → Core) : (s.updMyCore f).dies = s.dies := rfl
@[simp] theorem State.updMyCore_hbm (s : State) (f : Core → Core) : (s.updMyCore f).hbm = s.hbm := rfl
@[simp] theorem State.updMyCore_droop (s : State) (f : Core → Core) : (s.updMyCore f).droop = s.droop := rfl
@[simp] theorem State.updMyCore_pkgPower (s : State) (f : Core → Core) : (s.updMyCore f).pkgPower = s.pkgPower := rfl
@[simp] theorem State.updMyCore_floor (s : State) (f : Core → Core) : (s.updMyCore f).floor = s.floor := rfl
@[simp] theorem State.updMyCore_ballast (s : State) (f : Core → Core) : (s.updMyCore f).ballast = s.ballast := rfl
@[simp] theorem State.updMyCore_kstopped (s : State) (f : Core → Core) : (s.updMyCore f).kstopped = s.kstopped := rfl
@[simp] theorem State.updMyCore_nextLseq (s : State) (f : Core → Core) : (s.updMyCore f).nextLseq = s.nextLseq := rfl
@[simp] theorem State.updMyCore_entries (s : State) (f : Core → Core) : (s.updMyCore f).entries = s.entries := rfl
@[simp] theorem State.updMyCore_probes (s : State) (f : Core → Core) : (s.updMyCore f).probes = s.probes := rfl
@[simp] theorem State.updMyCore_links (s : State) (f : Core → Core) : (s.updMyCore f).links = s.links := rfl
@[simp] theorem State.updMyCore_peers (s : State) (f : Core → Core) : (s.updMyCore f).peers = s.peers := rfl
@[simp] theorem State.updMyCore_transit (s : State) (f : Core → Core) : (s.updMyCore f).transit = s.transit := rfl
@[simp] theorem State.updMyCore_remotes (s : State) (f : Core → Core) : (s.updMyCore f).remotes = s.remotes := rfl
@[simp] theorem State.updMyCore_inbound (s : State) (f : Core → Core) : (s.updMyCore f).inbound = s.inbound := rfl
@[simp] theorem State.updMyCore_regions (s : State) (f : Core → Core) : (s.updMyCore f).regions = s.regions := rfl
@[simp] theorem State.updMyCore_hosts (s : State) (f : Core → Core) : (s.updMyCore f).hosts = s.hosts := rfl
@[simp] theorem State.updMyCore_sent (s : State) (f : Core → Core) : (s.updMyCore f).sent = s.sent := rfl
@[simp] theorem State.updMyCore_qperr (s : State) (f : Core → Core) : (s.updMyCore f).qperr = s.qperr := rfl
@[simp] theorem State.updMyCore_qpruns (s : State) (f : Core → Core) : (s.updMyCore f).qpruns = s.qpruns := rfl
@[simp] theorem State.updMyCore_acks (s : State) (f : Core → Core) : (s.updMyCore f).acks = s.acks := rfl
@[simp] theorem State.updMyCore_sec (s : State) (f : Core → Core) : (s.updMyCore f).sec = s.sec := rfl

@[simp] theorem State.setPwr_cur (s : State) (k : Nat) (x : Power) : (s.setPwr k x).cur = s.cur := rfl
@[simp] theorem State.setPwr_iw (s : State) (k : Nat) (x : Power) : (s.setPwr k x).iw = s.iw := rfl
@[simp] theorem State.setPwr_sched (s : State) (k : Nat) (x : Power) : (s.setPwr k x).sched = s.sched := rfl
@[simp] theorem State.setPwr_fresh (s : State) (k : Nat) (x : Power) : (s.setPwr k x).fresh = s.fresh := rfl
@[simp] theorem State.setPwr_ctxs (s : State) (k : Nat) (x : Power) : (s.setPwr k x).ctxs = s.ctxs := rfl
@[simp] theorem State.setPwr_cores (s : State) (k : Nat) (x : Power) : (s.setPwr k x).cores = s.cores := rfl
@[simp] theorem State.setPwr_tiles (s : State) (k : Nat) (x : Power) : (s.setPwr k x).tiles = s.tiles := rfl
@[simp] theorem State.setPwr_kmem (s : State) (k : Nat) (x : Power) : (s.setPwr k x).kmem = s.kmem := rfl
@[simp] theorem State.setPwr_routes (s : State) (k : Nat) (x : Power) : (s.setPwr k x).routes = s.routes := rfl
@[simp] theorem State.setPwr_dies (s : State) (k : Nat) (x : Power) : (s.setPwr k x).dies = s.dies := rfl
@[simp] theorem State.setPwr_hbm (s : State) (k : Nat) (x : Power) : (s.setPwr k x).hbm = s.hbm := rfl
@[simp] theorem State.setPwr_droop (s : State) (k : Nat) (x : Power) : (s.setPwr k x).droop = s.droop := rfl
@[simp] theorem State.setPwr_pkgPower (s : State) (k : Nat) (x : Power) : (s.setPwr k x).pkgPower = s.pkgPower := rfl
@[simp] theorem State.setPwr_floor (s : State) (k : Nat) (x : Power) : (s.setPwr k x).floor = s.floor := rfl
@[simp] theorem State.setPwr_ballast (s : State) (k : Nat) (x : Power) : (s.setPwr k x).ballast = s.ballast := rfl
@[simp] theorem State.setPwr_kstopped (s : State) (k : Nat) (x : Power) : (s.setPwr k x).kstopped = s.kstopped := rfl
@[simp] theorem State.setPwr_nextLseq (s : State) (k : Nat) (x : Power) : (s.setPwr k x).nextLseq = s.nextLseq := rfl
@[simp] theorem State.setPwr_entries (s : State) (k : Nat) (x : Power) : (s.setPwr k x).entries = s.entries := rfl
@[simp] theorem State.setPwr_probes (s : State) (k : Nat) (x : Power) : (s.setPwr k x).probes = s.probes := rfl
@[simp] theorem State.setPwr_links (s : State) (k : Nat) (x : Power) : (s.setPwr k x).links = s.links := rfl
@[simp] theorem State.setPwr_peers (s : State) (k : Nat) (x : Power) : (s.setPwr k x).peers = s.peers := rfl
@[simp] theorem State.setPwr_transit (s : State) (k : Nat) (x : Power) : (s.setPwr k x).transit = s.transit := rfl
@[simp] theorem State.setPwr_remotes (s : State) (k : Nat) (x : Power) : (s.setPwr k x).remotes = s.remotes := rfl
@[simp] theorem State.setPwr_inbound (s : State) (k : Nat) (x : Power) : (s.setPwr k x).inbound = s.inbound := rfl
@[simp] theorem State.setPwr_regions (s : State) (k : Nat) (x : Power) : (s.setPwr k x).regions = s.regions := rfl
@[simp] theorem State.setPwr_hosts (s : State) (k : Nat) (x : Power) : (s.setPwr k x).hosts = s.hosts := rfl
@[simp] theorem State.setPwr_sent (s : State) (k : Nat) (x : Power) : (s.setPwr k x).sent = s.sent := rfl
@[simp] theorem State.setPwr_qperr (s : State) (k : Nat) (x : Power) : (s.setPwr k x).qperr = s.qperr := rfl
@[simp] theorem State.setPwr_qpruns (s : State) (k : Nat) (x : Power) : (s.setPwr k x).qpruns = s.qpruns := rfl
@[simp] theorem State.setPwr_acks (s : State) (k : Nat) (x : Power) : (s.setPwr k x).acks = s.acks := rfl
@[simp] theorem State.setPwr_sec (s : State) (k : Nat) (x : Power) : (s.setPwr k x).sec = s.sec := rfl

@[simp] theorem State.tick_cur (s : State) : (s.tick).cur = s.cur := rfl
@[simp] theorem State.tick_iw (s : State) : (s.tick).iw = s.iw := rfl
@[simp] theorem State.tick_sched (s : State) : (s.tick).sched = s.sched := rfl
@[simp] theorem State.tick_ctxs (s : State) : (s.tick).ctxs = s.ctxs := rfl
@[simp] theorem State.tick_cores (s : State) : (s.tick).cores = s.cores := rfl
@[simp] theorem State.tick_tiles (s : State) : (s.tick).tiles = s.tiles := rfl
@[simp] theorem State.tick_kmem (s : State) : (s.tick).kmem = s.kmem := rfl
@[simp] theorem State.tick_routes (s : State) : (s.tick).routes = s.routes := rfl
@[simp] theorem State.tick_power (s : State) : (s.tick).power = s.power := rfl
@[simp] theorem State.tick_dies (s : State) : (s.tick).dies = s.dies := rfl
@[simp] theorem State.tick_hbm (s : State) : (s.tick).hbm = s.hbm := rfl
@[simp] theorem State.tick_droop (s : State) : (s.tick).droop = s.droop := rfl
@[simp] theorem State.tick_pkgPower (s : State) : (s.tick).pkgPower = s.pkgPower := rfl
@[simp] theorem State.tick_floor (s : State) : (s.tick).floor = s.floor := rfl
@[simp] theorem State.tick_ballast (s : State) : (s.tick).ballast = s.ballast := rfl
@[simp] theorem State.tick_kstopped (s : State) : (s.tick).kstopped = s.kstopped := rfl
@[simp] theorem State.tick_nextLseq (s : State) : (s.tick).nextLseq = s.nextLseq := rfl
@[simp] theorem State.tick_entries (s : State) : (s.tick).entries = s.entries := rfl
@[simp] theorem State.tick_probes (s : State) : (s.tick).probes = s.probes := rfl
@[simp] theorem State.tick_links (s : State) : (s.tick).links = s.links := rfl
@[simp] theorem State.tick_peers (s : State) : (s.tick).peers = s.peers := rfl
@[simp] theorem State.tick_transit (s : State) : (s.tick).transit = s.transit := rfl
@[simp] theorem State.tick_remotes (s : State) : (s.tick).remotes = s.remotes := rfl
@[simp] theorem State.tick_inbound (s : State) : (s.tick).inbound = s.inbound := rfl
@[simp] theorem State.tick_regions (s : State) : (s.tick).regions = s.regions := rfl
@[simp] theorem State.tick_hosts (s : State) : (s.tick).hosts = s.hosts := rfl
@[simp] theorem State.tick_sent (s : State) : (s.tick).sent = s.sent := rfl
@[simp] theorem State.tick_qperr (s : State) : (s.tick).qperr = s.qperr := rfl
@[simp] theorem State.tick_qpruns (s : State) : (s.tick).qpruns = s.qpruns := rfl
@[simp] theorem State.tick_acks (s : State) : (s.tick).acks = s.acks := rfl
@[simp] theorem State.tick_sec (s : State) : (s.tick).sec = s.sec := rfl

/-- The later of two writes to one key stands. -/
theorem AMap.set_set {α : Type} (m : AMap α) (i : Nat) (a b : α) : AMap.set (AMap.set m i a) i b = AMap.set m i b := by
  induction m with
  | nil => simp [AMap.set]
  | cons kv m ih =>
    obtain ⟨k, v⟩ := kv
    simp only [AMap.set]
    split
    · simp [AMap.set]
    · rename_i h
      split
      · simp [AMap.set]
      · rename_i h2; simp [AMap.set, h, h2, ih]

@[simp] theorem State.ctx_setCtx_same (s : State) (c : Nat) (x : Ctx) : (s.setCtx c x).ctx c = x := by
  simp [State.ctx, State.setCtx]
theorem State.ctx_setCtx_ne (s : State) {c d : Nat} (x : Ctx) (h : c ≠ d) : (s.setCtx c x).ctx d = s.ctx d := by
  simp [State.ctx, State.setCtx, AMap.get_set_ne _ _ _ h]
@[simp] theorem State.core_setCore_same (s : State) (k : Nat) (x : Core) : (s.setCore k x).core k = x := by
  simp [State.core, State.setCore]
theorem State.core_setCore_ne (s : State) {k l : Nat} (x : Core) (h : k ≠ l) : (s.setCore k x).core l = s.core l := by
  simp [State.core, State.setCore, AMap.get_set_ne _ _ _ h]
@[simp] theorem State.tile_setTile_same (s : State) (k : Nat) (x : Tile) : (s.setTile k x).tile k = x := by
  simp [State.tile, State.setTile]
theorem State.tile_setTile_ne (s : State) {k l : Nat} (x : Tile) (h : k ≠ l) : (s.setTile k x).tile l = s.tile l := by
  simp [State.tile, State.setTile, AMap.get_set_ne _ _ _ h]

@[simp] theorem State.core_setCtx (s : State) (c : Nat) (x : Ctx) (k : Nat) : (s.setCtx c x).core k = s.core k := rfl
@[simp] theorem State.tile_setCtx (s : State) (c : Nat) (x : Ctx) (k : Nat) : (s.setCtx c x).tile k = s.tile k := rfl
@[simp] theorem State.ctx_setCore (s : State) (k : Nat) (x : Core) (c : Nat) : (s.setCore k x).ctx c = s.ctx c := rfl
@[simp] theorem State.tile_setCore (s : State) (k : Nat) (x : Core) (t : Nat) : (s.setCore k x).tile t = s.tile t := rfl
@[simp] theorem State.ctx_setTile (s : State) (k : Nat) (x : Tile) (c : Nat) : (s.setTile k x).ctx c = s.ctx c := rfl
@[simp] theorem State.core_setTile (s : State) (k : Nat) (x : Tile) (l : Nat) : (s.setTile k x).core l = s.core l := rfl

@[simp] theorem State.ctx_updCtx_same (s : State) (c : Nat) (f : Ctx → Ctx) : (s.updCtx c f).ctx c = f (s.ctx c) := by
  simp [State.updCtx]
theorem State.ctx_updCtx_ne (s : State) {c d : Nat} (f : Ctx → Ctx) (h : c ≠ d) : (s.updCtx c f).ctx d = s.ctx d := by
  simp [State.updCtx, State.ctx_setCtx_ne _ _ h]
@[simp] theorem State.core_updCore_same (s : State) (k : Nat) (f : Core → Core) : (s.updCore k f).core k = f (s.core k) := by
  simp [State.updCore]
theorem State.core_updCore_ne (s : State) {k l : Nat} (f : Core → Core) (h : k ≠ l) : (s.updCore k f).core l = s.core l := by
  simp [State.updCore, State.core_setCore_ne _ _ h]
@[simp] theorem State.tile_updTile_same (s : State) (k : Nat) (f : Tile → Tile) : (s.updTile k f).tile k = f (s.tile k) := by
  simp [State.updTile]
theorem State.tile_updTile_ne (s : State) {k l : Nat} (f : Tile → Tile) (h : k ≠ l) : (s.updTile k f).tile l = s.tile l := by
  simp [State.updTile, State.tile_setTile_ne _ _ h]
@[simp] theorem State.core_updCtx (s : State) (c : Nat) (f : Ctx → Ctx) (k : Nat) : (s.updCtx c f).core k = s.core k := rfl
@[simp] theorem State.tile_updCtx (s : State) (c : Nat) (f : Ctx → Ctx) (k : Nat) : (s.updCtx c f).tile k = s.tile k := rfl
@[simp] theorem State.ctx_updCore (s : State) (k : Nat) (f : Core → Core) (c : Nat) : (s.updCore k f).ctx c = s.ctx c := rfl
@[simp] theorem State.tile_updCore (s : State) (k : Nat) (f : Core → Core) (t : Nat) : (s.updCore k f).tile t = s.tile t := rfl
@[simp] theorem State.ctx_updTile (s : State) (k : Nat) (f : Tile → Tile) (c : Nat) : (s.updTile k f).ctx c = s.ctx c := rfl
@[simp] theorem State.core_updTile (s : State) (k : Nat) (f : Tile → Tile) (l : Nat) : (s.updTile k f).core l = s.core l := rfl

@[simp] theorem State.me_updMe (s : State) (f : Ctx → Ctx) : (s.updMe f).me = f s.me := by
  simp [State.me, State.updMe]
theorem State.ctx_updMe_ne (s : State) {d : Nat} (f : Ctx → Ctx) (h : d ≠ s.cur) : (s.updMe f).ctx d = s.ctx d :=
  State.ctx_updCtx_ne s f (Ne.symm h)
@[simp] theorem State.core_updMe (s : State) (f : Ctx → Ctx) (k : Nat) : (s.updMe f).core k = s.core k := rfl
@[simp] theorem State.tile_updMe (s : State) (f : Ctx → Ctx) (k : Nat) : (s.updMe f).tile k = s.tile k := rfl
@[simp] theorem State.myCore_updMe (s : State) (f : Ctx → Ctx) : (s.updMe f).myCore = s.myCore := rfl
@[simp] theorem State.myTile_updMe (s : State) (f : Ctx → Ctx) : (s.updMe f).myTile = s.myTile := rfl
@[simp] theorem State.now_updMe (s : State) (f : Ctx → Ctx) : (s.updMe f).now = s.now := rfl
@[simp] theorem State.me_updMyCore (s : State) (f : Core → Core) : (s.updMyCore f).me = s.me := rfl
@[simp] theorem State.myCore_updMyCore (s : State) (f : Core → Core) : (s.updMyCore f).myCore = f s.myCore := by
  simp [State.myCore, State.updMyCore]
@[simp] theorem State.tile_updMyCore (s : State) (f : Core → Core) (k : Nat) : (s.updMyCore f).tile k = s.tile k := rfl
@[simp] theorem State.updMe_updMe (s : State) (f g : Ctx → Ctx) : (s.updMe f).updMe g = s.updMe fun c => g (f c) := by
  simp [State.updMe, State.updCtx, State.setCtx, State.ctx, AMap.set_set]

/-- Register xn after a write to rd (R16). -/
theorem Ctx.getX_setX (c : Ctx) (rd r : XReg) (v : Reg) :
    (c.setX rd v).getX r = if r = 0#5 then Reg.zero else if r = rd then v else c.getX r := by
  unfold Ctx.getX Ctx.setX
  by_cases h : rd = 0#5
  · by_cases h0 : r = 0#5
    · simp [h0]
    · by_cases h1 : r = rd
      · exact absurd (h1.trans h) h0
      · simp [h, h0]
  · by_cases h0 : r = 0#5
    · simp [h0]
    · by_cases h1 : r = rd
      · subst h1; simp [h0]
      · have : rd.toNat ≠ r.toNat := fun e => h1 (BitVec.eq_of_toNat_eq e.symm)
        simp [h, h0, h1, this]

/-- Predicate pn after a write to pd (R16). -/
theorem Ctx.getP_setP (c : Ctx) (pd q : PReg) (b : Bool) :
    (c.setP pd b).getP q = if q = 0#3 then true else if q = pd then b else c.getP q := by
  unfold Ctx.getP Ctx.setP
  by_cases h : pd = 0#3
  · by_cases h0 : q = 0#3
    · simp [h0]
    · by_cases h1 : q = pd
      · exact absurd (h1.trans h) h0
      · simp [h, h0]
  · by_cases h0 : q = 0#3
    · simp [h0]
    · by_cases h1 : q = pd
      · subst h1; simp [h0]
      · have : pd.toNat ≠ q.toNat := fun e => h1 (BitVec.eq_of_toNat_eq e.symm)
        simp [h, h0, h1, this]

/-- A write to a general register changes nothing else of a context. -/
theorem Ctx.setX_frame (c : Ctx) (r : XReg) (v : Reg) : c.setX r v = { c with x := (c.setX r v).x } := by
  unfold Ctx.setX; split <;> rfl

/-- A write to a predicate changes nothing else of a context. -/
theorem Ctx.setP_frame (c : Ctx) (q : PReg) (b : Bool) : c.setP q b = { c with p := (c.setP q b).p } := by
  unfold Ctx.setP; split <;> rfl

@[simp] theorem Ctx.advance_x (c : Ctx) (n : Nat) : (c.advance n).x = c.x := rfl
@[simp] theorem Ctx.advance_p (c : Ctx) (n : Nat) : (c.advance n).p = c.p := rfl
@[simp] theorem Ctx.advance_pc (c : Ctx) (n : Nat) : (c.advance n).pc = c.pc + 4#64 := rfl
@[simp] theorem Ctx.advance_pfx (c : Ctx) (n : Nat) : (c.advance n).pfx = none := rfl
@[simp] theorem Ctx.advance_wait (c : Ctx) (n : Nat) : (c.advance n).wait = .no := rfl
@[simp] theorem Ctx.jump_x (c : Ctx) (a : Word) (n : Nat) : (c.jump a n).x = c.x := rfl
@[simp] theorem Ctx.jump_p (c : Ctx) (a : Word) (n : Nat) : (c.jump a n).p = c.p := rfl
@[simp] theorem Ctx.jump_pc (c : Ctx) (a : Word) (n : Nat) : (c.jump a n).pc = a := rfl
@[simp] theorem Ctx.jump_pfx (c : Ctx) (a : Word) (n : Nat) : (c.jump a n).pfx = none := rfl
@[simp] theorem Ctx.jump_wait (c : Ctx) (a : Word) (n : Nat) : (c.jump a n).wait = .no := rfl

end Sys2Proof.Machine
end

