-- ==== Sys2Proof/Laws/Frame.lean ====
section
/-! SUPPORT. Sys2Proof/Laws/Frame.lean: what the shared operations of the scalar instructions do, said once: an update of the context that issues, a result written and the fall-through, a jump, and trap entry. -/

namespace Sys2Proof.Machine

-- The package is also compiled as one text, where a thread for each small theorem is more than there is room for.
set_option Elab.async false

open Sys2Proof.Safety

/-- An update of the context that issues changes no other context, no core, no tile and no byte of memory. -/
theorem onlyMe_updMe (s : State) (f : Ctx → Ctx) : OnlyMe s (s.updMe f) :=
  ⟨rfl, fun _ hd => State.ctx_updMe_ne s f hd, fun _ _ => rfl, fun _ => rfl, fun _ => rfl⟩

/-- The pc comparison of R67 as a proposition. -/
theorem atLastPc_false {s : State} (h : CanFall s) : s.atLastPc = false := by
  simpa [State.atLastPc, lastPc, CanFall] using h

/-- Two updates that agree on the context that issues are one. -/
theorem State.updMe_congr {s : State} {f g : Ctx → Ctx} (h : f s.me = g s.me) : s.updMe f = s.updMe g := by
  have h' : f (s.ctx s.cur) = g (s.ctx s.cur) := h
  simp [State.updMe, State.updCtx, h']

/-- R67 aside, completing moves past the instruction. -/
theorem completeIn_eq {s : State} (h : CanFall s) (n : Nat) (s' : State) :
    completeIn n s s' = .next (s'.updMe fun c => c.advance (s.now + n)) := by
  simp [completeIn, atLastPc_false h]

theorem complete_eq {s : State} (h : CanFall s) (s' : State) :
    complete s s' = .next (s'.updMe fun c => c.advance (s.now + 16)) := completeIn_eq h 16 s'

/-- Writing a result to rd and to the copy register (R51) changes registers only, to what WroteX says. -/
theorem writeRd_eq (s : State) (rd : XReg) (v : Reg) :
    ∃ y, s.writeRd rd v = s.updMe (fun c => { c with x := y })
      ∧ ∀ r : XReg, Ctx.getX { s.me with x := y } r = if r = 0#5 then Reg.zero else if r = rd ∨ copyReg s.me = some r then v else s.x r := by
  cases h : copyReg s.me with
  | none =>
    refine ⟨(s.me.setX rd v).x, ?_, fun r => ?_⟩
    · exact State.updMe_congr (by simp only [h]; exact Ctx.setX_frame _ _ _)
    · rw [← Ctx.setX_frame]; simp [Ctx.getX_setX, State.x]
  | some q =>
    refine ⟨((s.me.setX rd v).setX q v).x, ?_, fun r => ?_⟩
    · refine State.updMe_congr ?_
      simp only [h]
      rw [Ctx.setX_frame (s.me.setX rd v) q v, Ctx.setX_frame s.me rd v]
    · have e : { s.me with x := ((s.me.setX rd v).setX q v).x } = (s.me.setX rd v).setX q v := by
        rw [Ctx.setX_frame (s.me.setX rd v) q v, Ctx.setX_frame s.me rd v]
      rw [e]
      simp only [Ctx.getX_setX, Option.some.injEq, State.x]
      by_cases h0 : r = 0#5
      · simp [h0]
      · by_cases h1 : r = q
        · simp [h0, h1]
        · by_cases h2 : r = rd
          · simp only [h2, true_or, if_true]; split <;> simp_all
          · simp [h0, h1, h2, Ne.symm h1]

/-- Completing with a result at a cost: the registers are as WroteX says, the pc moves on, and nothing else changes. -/
theorem advance_writeRd (s : State) (rd : XReg) (v : Reg) (f : Ctx → Ctx)
    (hf : ∀ c, f c = { c with pc := c.pc + 4#64, pfx := none, wait := (f c).wait, ready := (f c).ready }) :
    let t := (s.writeRd rd v).updMe f
    WroteX s t rd v ∧ t.cur = s.cur ∧ t.me.pc = s.me.pc + 4#64 ∧ t.me.pfx = none ∧ OnlyRegs s.me t.me ∧ OnlyMe s t := by
  obtain ⟨y, hy, hx⟩ := writeRd_eq s rd v
  simp only [hy, State.updMe_updMe]
  refine ⟨fun r => ?_, rfl, ?_, ?_, ?_, onlyMe_updMe _ _⟩
  · rw [← hx r]; simp only [State.x, State.me_updMe]; rw [hf]; rfl
  · rw [State.me_updMe, hf]
  · rw [State.me_updMe, hf]
  · rw [State.me_updMe]; unfold OnlyRegs; rw [hf]

/-- Completing an instruction that wrote a result: R67 aside, rd and the copy register are written, the pc moves on, and nothing else changes. -/
theorem complete_writeRd {s : State} (h : CanFall s) (rd : XReg) (v : Reg) :
    ∃ t, complete s (s.writeRd rd v) = .next t ∧ WroteOnly s t rd v := by
  obtain ⟨h1, h2, h3, h4, h5, h6⟩ := advance_writeRd s rd v (fun c => c.advance (s.now + 16)) (fun c => rfl)
  refine ⟨_, complete_eq h _, h1, ⟨h2, h3, h4, ?_⟩, h5, h6⟩
  simp

/-- Completing an instruction that wrote a predicate. -/
theorem complete_setP {s : State} (h : CanFall s) (pd : PReg) (b : Bool) :
    ∃ t, complete s (s.setP pd b) = .next t ∧ WrotePredOnly s t pd b := by
  refine ⟨_, complete_eq h _, fun q => ?_, ⟨rfl, ?_, ?_, ?_⟩, ?_, ?_⟩
  all_goals try simp only [State.setP, State.updMe_updMe]
  · simp only [State.p, State.me_updMe]; rw [← Ctx.getP_setP]; rfl
  · rw [State.me_updMe, Ctx.setP_frame]; rfl
  · rw [State.me_updMe]; rfl
  · rw [State.me_updMe]; rfl
  · rw [State.me_updMe, Ctx.setP_frame]; rfl
  · exact onlyMe_updMe _ _

/-- Completing an instruction with no result. -/
theorem complete_self {s : State} (h : CanFall s) :
    ∃ t, complete s s = .next t ∧ Fell s t ∧ OnlyPc s.me t.me ∧ OnlyMe s t := by
  refine ⟨_, complete_eq h _, ⟨rfl, ?_, ?_, ?_⟩, ?_, onlyMe_updMe _ _⟩
  all_goals rw [State.me_updMe]; rfl

theorem isKeeper_iff (c : Nat) : isKeeper c = decide (32768 ≤ c) := by
  simp only [isKeeper, isKeeperCore, coreOf, keeperCore0]
  congr 1; apply propext; omega

/-- A synchronous trap or an interrupt with INTRAP = 0 enters the handler (R24). -/
theorem raise_entered {s : State} (h : s.me.intrap = false) (cause : Cause) (v : Word) :
    ∃ t, raise cause v s = .next t ∧ Trapped s t cause.code v := by
  have h' : (s.ctx s.cur).intrap = false := h
  refine ⟨_, rfl, ?_⟩
  simp only [Trapped, Entered, State.takeTrap, State.takeTrapAt, h', Bool.false_and, Bool.false_eq_true, if_false, State.ctx_updCtx_same]
  refine ⟨?_, onlyMe_updMe s _⟩
  simp only [Ctx.enterTrap, Ctx.saveTrap, isKeeper_iff]
  have hk : (if decide (32768 ≤ s.cur) = true then 3#2 else 1#2) = if s.cur < 32768 then (1#2 : BitVec 2) else 3#2 := by
    by_cases hc : s.cur < 32768
    · simp [hc, Nat.not_le.mpr hc]
    · simp [hc, Nat.not_lt.mp hc]
  rw [hk]
  cases (s.ctx s.cur).pfx <;> rfl

/-- At the last word of the lower half every fall-through raises ACCESS_FAULT (R67). -/
theorem completeIn_last {s : State} (hp : s.me.pc = 0x00007FFFFFFFFFFC#64) (h : s.me.intrap = false) (n : Nat) (s' : State) :
    ∃ t, completeIn n s s' = .next t ∧ Trapped s t 0x07#8 0x0000800000000000#64 := by
  have : s.atLastPc = true := by simp [State.atLastPc, lastPc, hp]
  simp only [completeIn, this, if_true]
  exact raise_entered h .accessFault pastPc

end Sys2Proof.Machine
end

