-- ==== Sys2Proof/Laws/Memory.lean ====
section
/-! SUPPORT. Sys2Proof/Laws/Memory.lean: a read after a write, what a write leaves alone, and that every memory operation keeps the canonical form. -/

namespace Sys2Proof.Machine

-- The package is also compiled as one text, where a thread for each small theorem is more than there is room for.
set_option Elab.async false

theorem cellsWfFrom_cons (lo : Option Nat) (k : Nat) (v : Byte) (m : List Host.Cell) :
    cellsWfFrom lo ((k, v) :: m) = true ↔ (∀ l, lo = some l → l < k) ∧ v ≠ unlistedByte ∧ cellsWfFrom (some k) m = true := by
  cases lo <;> simp [cellsWfFrom, and_assoc]

theorem natsWfFrom_cons (lo : Option Nat) (k : Nat) (m : List Nat) :
    natsWfFrom lo (k :: m) = true ↔ (∀ l, lo = some l → l < k) ∧ natsWfFrom (some k) m = true := by
  cases lo <;> simp [natsWfFrom]

/-- A list that is canonical above a bound is canonical above every lower one. -/
theorem cellsWfFrom_weaken {lo : Option Nat} {k : Nat} {m : List Host.Cell} (h : cellsWfFrom (some k) m = true)
    (hlo : ∀ l, lo = some l → l ≤ k) : cellsWfFrom lo m = true := by
  cases m with
  | nil => rfl
  | cons kv m =>
    obtain ⟨k', v⟩ := kv
    rw [cellsWfFrom_cons] at h ⊢
    exact ⟨fun l e => lt_of_le_of_lt (hlo l e) (h.1 k rfl), h.2⟩

/-- Below the first listed address nothing is listed. -/
theorem cellsGet_below {lo a : Nat} {m : List Host.Cell} (h : cellsWfFrom (some lo) m = true) (ha : a ≤ lo) :
    cellsGet m a = unlistedByte := by
  induction m generalizing lo with
  | nil => rfl
  | cons kv m ih =>
    obtain ⟨k, v⟩ := kv
    rw [cellsWfFrom_cons] at h
    have hk := h.1 lo rfl
    have hne : k ≠ a := by omega
    simp only [cellsGet, hne, if_false]
    exact ih h.2.2 (by omega)

/-- A read after a write of one byte of a canonical list. -/
theorem cellsGet_cellsSet {lo : Option Nat} {m : List Host.Cell} (h : cellsWfFrom lo m = true) (a : Nat) (b : Byte) (x : Nat) :
    cellsGet (cellsSet m a b) x = if x = a then b else cellsGet m x := by
  induction m generalizing lo with
  | nil =>
    by_cases hb : b = unlistedByte
    · by_cases hx : x = a <;> simp [cellsSet, cellsGet, hb, hx]
    · by_cases hx : x = a
      · simp [cellsSet, cellsGet, hb, hx]
      · simp [cellsSet, cellsGet, hb, hx, Ne.symm hx]
  | cons kv m ih =>
    obtain ⟨k, v⟩ := kv
    rw [cellsWfFrom_cons] at h
    by_cases h1 : a = k
    · subst h1
      by_cases hb : b = unlistedByte
      · by_cases hx : x = a
        · subst hx; simp [cellsSet, hb, cellsGet_below h.2.2 (le_refl _)]
        · simp [cellsSet, hb, hx, cellsGet, Ne.symm hx]
      · by_cases hx : x = a
        · simp [cellsSet, hb, hx, cellsGet]
        · simp [cellsSet, hb, hx, cellsGet, Ne.symm hx]
    · by_cases h2 : a < k
      · by_cases hb : b = unlistedByte
        · by_cases hx : x = a
          · subst hx
            have : cellsGet m x = unlistedByte := cellsGet_below h.2.2 (le_of_lt h2)
            simp [cellsSet, h1, h2, hb, cellsGet, Ne.symm h1, this]
          · simp [cellsSet, h1, h2, hb, hx]
        · by_cases hx : x = a
          · simp [cellsSet, h1, h2, hb, hx, cellsGet]
          · simp [cellsSet, h1, h2, hb, hx, cellsGet, Ne.symm hx]
      · simp only [cellsSet, h1, h2, if_false, cellsGet]
        by_cases hx : k = x
        · subst hx; simp [Ne.symm h1]
        · simp only [hx, if_false]; exact ih h.2.2

/-- Writing one byte keeps the canonical form. -/
theorem cellsWf_set {lo : Option Nat} {m : List Host.Cell} (h : cellsWfFrom lo m = true) (a : Nat) (b : Byte)
    (hlo : ∀ l, lo = some l → l < a) : cellsWfFrom lo (cellsSet m a b) = true := by
  induction m generalizing lo with
  | nil =>
    by_cases hb : b = unlistedByte
    · simp [cellsSet, hb, cellsWfFrom]
    · simp only [cellsSet, hb, if_false]
      exact (cellsWfFrom_cons _ _ _ _).2 ⟨hlo, hb, rfl⟩
  | cons kv m ih =>
    obtain ⟨k, v⟩ := kv
    have h0 := h
    rw [cellsWfFrom_cons] at h
    by_cases h1 : a = k
    · subst h1
      by_cases hb : b = unlistedByte
      · simp only [cellsSet, hb, if_true]
        exact cellsWfFrom_weaken h.2.2 fun l e => le_of_lt (hlo l e)
      · simp only [cellsSet, hb, if_true, if_false]
        exact (cellsWfFrom_cons _ _ _ _).2 ⟨hlo, hb, h.2.2⟩
    · by_cases h2 : a < k
      · by_cases hb : b = unlistedByte
        · simp only [cellsSet, h1, h2, hb, if_true, if_false]; exact h0
        · simp only [cellsSet, h1, h2, hb, if_true, if_false]
          exact (cellsWfFrom_cons _ _ _ _).2 ⟨hlo, hb, (cellsWfFrom_cons _ _ _ _).2 ⟨fun l e => by cases e; exact h2, h.2⟩⟩
      · simp only [cellsSet, h1, h2, if_false]
        exact (cellsWfFrom_cons _ _ _ _).2 ⟨h.1, h.2.1, ih h.2.2 fun l e => by cases e; omega⟩

theorem natsWfFrom_weaken {lo : Option Nat} {k : Nat} {m : List Nat} (h : natsWfFrom (some k) m = true)
    (hlo : ∀ l, lo = some l → l ≤ k) : natsWfFrom lo m = true := by
  cases m with
  | nil => rfl
  | cons k' m =>
    rw [natsWfFrom_cons] at h ⊢
    exact ⟨fun l e => lt_of_le_of_lt (hlo l e) (h.1 k rfl), h.2⟩

theorem natsWf_insert {lo : Option Nat} {m : List Nat} (h : natsWfFrom lo m = true) (a : Nat)
    (hlo : ∀ l, lo = some l → l < a) : natsWfFrom lo (natsInsert m a) = true := by
  induction m generalizing lo with
  | nil => exact (natsWfFrom_cons _ _ _).2 ⟨hlo, rfl⟩
  | cons k m ih =>
    have h0 := h
    rw [natsWfFrom_cons] at h
    by_cases h1 : a = k
    · simp only [natsInsert, h1, if_true]; exact h0
    · by_cases h2 : a < k
      · simp only [natsInsert, h1, h2, if_true, if_false]
        exact (natsWfFrom_cons _ _ _).2 ⟨hlo, (natsWfFrom_cons _ _ _).2 ⟨fun l e => by cases e; exact h2, h.2⟩⟩
      · simp only [natsInsert, h1, h2, if_false]
        exact (natsWfFrom_cons _ _ _).2 ⟨h.1, ih h.2 fun l e => by cases e; omega⟩

theorem natsWf_erase {lo : Option Nat} {m : List Nat} (h : natsWfFrom lo m = true) (a : Nat) :
    natsWfFrom lo (natsErase m a) = true := by
  induction m generalizing lo with
  | nil => rfl
  | cons k m ih =>
    rw [natsWfFrom_cons] at h
    by_cases h1 : k = a
    · subst h1
      have e : natsErase (k :: m) k = natsErase m k := by simp [natsErase]
      rw [e]
      exact natsWfFrom_weaken (ih h.2) fun l e => le_of_lt (h.1 l e)
    · have e : natsErase (k :: m) a = k :: natsErase m a := by simp [natsErase, h1]
      rw [e]
      exact (natsWfFrom_cons _ _ _).2 ⟨h.1, ih h.2⟩

theorem mem_natsInsert (m : List Nat) (a x : Nat) : x ∈ natsInsert m a ↔ x = a ∨ x ∈ m := by
  induction m with
  | nil => simp [natsInsert]
  | cons k m ih =>
    by_cases h1 : a = k
    · simp [natsInsert, h1]
    · by_cases h2 : a < k
      · simp [natsInsert, h1, h2]
      · simp [natsInsert, h1, h2, ih]; tauto

theorem mem_natsErase (m : List Nat) (a x : Nat) : x ∈ natsErase m a ↔ x ∈ m ∧ x ≠ a := by
  simp [natsErase]

theorem Memory.wf_iff (m : Memory) : m.wf = true ↔ cellsWfFrom none m.cells = true ∧ natsWfFrom none m.marks = true := by
  simp [Memory.wf]

/-- The empty memory is canonical. -/
theorem Memory.empty_wf : Memory.empty.wf = true := rfl

theorem Memory.setByte_wf {m : Memory} (h : m.wf = true) (a : Nat) (b : Byte) : (m.setByte a b).wf = true := by
  rw [Memory.wf_iff] at h ⊢
  exact ⟨cellsWf_set h.1 a b (by simp), h.2⟩

theorem Memory.setMark_wf {m : Memory} (h : m.wf = true) (a : Nat) (on : Bool) : (m.setMark a on).wf = true := by
  rw [Memory.wf_iff] at h ⊢
  refine ⟨h.1, ?_⟩
  cases on
  · exact natsWf_erase h.2 _
  · exact natsWf_insert h.2 _ (by simp)

theorem Memory.setBytes_wf {m : Memory} (h : m.wf = true) (ws : List WByte) : (m.setBytes ws).wf = true := by
  induction ws generalizing m with
  | nil => exact h
  | cons w ws ih => exact ih (Memory.setByte_wf h _ _)

theorem Memory.markAfter_wf {m : Memory} (h : m.wf = true) (ws : List WByte) (w : Nat) : (Memory.markAfter ws m w).wf = true := by
  unfold Memory.markAfter
  split
  · exact Memory.setMark_wf h _ _
  · split
    · exact Memory.setMark_wf h _ _
    · exact h

/-- A fold of steps that keep the canonical form keeps it. -/
theorem Memory.foldl_wf {α : Type} (f : Memory → α → Memory) (hf : ∀ m x, m.wf = true → (f m x).wf = true)
    (xs : List α) {m : Memory} (h : m.wf = true) : (xs.foldl f m).wf = true := by
  induction xs generalizing m with
  | nil => exact h
  | cons x xs ih => exact ih (hf m x h)

theorem Memory.write_wf {m : Memory} (h : m.wf = true) (ws : List WByte) : (m.write ws).wf = true :=
  Memory.foldl_wf _ (fun _ w hm => Memory.markAfter_wf hm ws w) _ (Memory.setBytes_wf h ws)

theorem Memory.putLine_wf {m : Memory} (h : m.wf = true) (l : Nat) (x : Line) : (m.putLine l x).wf = true :=
  Memory.foldl_wf _ (fun _ _ hm => Memory.setMark_wf hm _ _) _ (Memory.setBytes_wf h _)

@[simp] theorem Memory.byte_setMark (m : Memory) (a : Nat) (on : Bool) (x : Nat) : (m.setMark a on).byte x = m.byte x := rfl

@[simp] theorem Memory.byte_empty (a : Nat) : Memory.empty.byte a = unlistedByte := rfl

/-- A read after a write of one byte. -/
theorem Memory.byte_setByte {m : Memory} (h : m.wf = true) (a : Nat) (b : Byte) (x : Nat) :
    (m.setByte a b).byte x = if x = a then b else m.byte x :=
  cellsGet_cellsSet ((Memory.wf_iff m).1 h).1 a b x

theorem Memory.byte_markAfter (ws : List WByte) (m : Memory) (w x : Nat) : (Memory.markAfter ws m w).byte x = m.byte x := by
  unfold Memory.markAfter
  split
  · rfl
  · split <;> rfl

theorem Memory.byte_foldl_markAfter (ws : List WByte) (l : List Nat) (m : Memory) (x : Nat) :
    (l.foldl (Memory.markAfter ws) m).byte x = m.byte x := by
  induction l generalizing m with
  | nil => rfl
  | cons w l ih => simp only [List.foldl_cons]; rw [ih, Memory.byte_markAfter]

/-- The bytes that a write leaves are those of its byte list. -/
theorem Memory.byte_write (m : Memory) (ws : List WByte) (x : Nat) : (m.write ws).byte x = (m.setBytes ws).byte x :=
  Memory.byte_foldl_markAfter ws _ _ x

/-- A write leaves every byte alone that it does not name. -/
theorem Memory.byte_setBytes_ne {m : Memory} (h : m.wf = true) (ws : List WByte) (x : Nat) (hx : ∀ w ∈ ws, w.1 ≠ x) :
    (m.setBytes ws).byte x = m.byte x := by
  induction ws generalizing m with
  | nil => rfl
  | cons w ws ih =>
    obtain ⟨a, b, p⟩ := w
    have hne : x ≠ a := fun e => hx (a, b, p) (by simp) e.symm
    simp only [Memory.setBytes]
    rw [ih (Memory.setByte_wf h a b) (fun v hv => hx v (by simp [hv])), Memory.byte_setByte h]
    simp [hne]

/-- A write of consecutive bytes: the bytes written read back, every other byte is as before. -/
theorem Memory.byte_setBytes_wbytes {m : Memory} (h : m.wf = true) (a : Nat) (bs : List Byte) (p : Bool) (x : Nat) :
    (m.setBytes (wbytes a bs p)).byte x = if a ≤ x ∧ x < a + bs.length then bs.getD (x - a) 0#8 else m.byte x := by
  induction bs generalizing m a with
  | nil => simp [wbytes, Memory.setBytes]
  | cons b bs ih =>
    simp only [wbytes, Memory.setBytes]
    rw [ih (Memory.setByte_wf h a b), Memory.byte_setByte h]
    by_cases h1 : x = a
    · subst h1; simp
    · by_cases h2 : a + 1 ≤ x ∧ x < a + 1 + bs.length
      · have e : x - a = (x - (a + 1)) + 1 := by omega
        have h3 : a ≤ x ∧ x < a + (b :: bs).length := by simp; omega
        rw [if_pos h2, if_pos h3, e]; rfl
      · have h3 : ¬(a ≤ x ∧ x < a + (b :: bs).length) := by simp; omega
        rw [if_neg h2, if_neg h3, if_neg h1]

/-- A write of consecutive bytes, with its marks. -/
theorem Memory.byte_write_wbytes {m : Memory} (h : m.wf = true) (a : Nat) (bs : List Byte) (p : Bool) (x : Nat) :
    (m.write (wbytes a bs p)).byte x = if a ≤ x ∧ x < a + bs.length then bs.getD (x - a) 0#8 else m.byte x := by
  rw [Memory.byte_write, Memory.byte_setBytes_wbytes h]

theorem leBytes_length (n v : Nat) : (leBytes n v).length = n := by
  induction n generalizing v with
  | zero => rfl
  | succ n ih => simp [leBytes, ih]

/-- The bytes of a number give it back, modulo the width. -/
theorem leNat_leBytes (n v : Nat) : leNat (leBytes n v) = v % 256 ^ n := by
  induction n generalizing v with
  | zero => simp [leBytes, leNat, Nat.mod_one]
  | succ n ih =>
    have e : (BitVec.ofNat 8 v).toNat = v % 256 := by simp
    simp only [leBytes, leNat, ih, e]
    rw [pow_succ, Nat.mul_comm (256 ^ n) 256, Nat.mod_mul]

/-- Finding an error marks words and changes no byte. -/
theorem Memory.byte_foldl_setMark (l : List Nat) (f : Nat → Nat) (on : Nat → Bool) (m : Memory) (x : Nat) :
    (l.foldl (fun m i => m.setMark (f i) (on i)) m).byte x = m.byte x := by
  induction l generalizing m with
  | nil => rfl
  | cons i l ih => simp only [List.foldl_cons]; rw [ih]; rfl

end Sys2Proof.Machine
end

