-- ==== Sys2Proof/Tests/Slice0.lean ====
section
/-! SUPPORT. Sys2Proof/Tests/Slice0.lean: words decoded as the spec writes them, terms that WellFormed refuses, small single steps with results from the spec's own tables and examples, and for each statement with hypotheses a state and operands that meet them. -/

namespace Sys2Proof.Tests

set_option Elab.async false

open Sys2Proof.Machine Sys2Proof.Safety

/-! The small states that tests and witnesses use. -/

/-- A context at S and pc 0x10000, with some registers set. -/
def cx (rs : List (Nat × Word)) : Ctx := rs.foldl (fun c r => c.setX (BitVec.ofNat 5 r.1) (Reg.clean r.2)) (Ctx.start 0x10000#64 1#2)

/-- Page tables under root 16 that map address 0x10000 to the frame at 0x20000, for every access at U and S. -/
def mapped : Memory := placedMemory.setBytes (wbytes 0x13008 (leBytes 8 (0x20000 + 63)) false)

/-- A tile with those tables. -/
def tile0 : Tile := { mem := mapped, root := 16#19 }

/-- A booted machine with one context, in slot 0 of core 0 of tile 0. -/
def st (c : Ctx) : State := { ctxs := [(0, c)], tiles := [(0, tile0)], sec := { up := true } }

/-- The same with some data at the frame. -/
def stMem (c : Ctx) (bs : List Byte) : State :=
  { ctxs := [(0, c)], tiles := [(0, { tile0 with mem := mapped.setBytes (wbytes 0x20000 bs false) })], sec := { up := true } }

/-- A machine whose only context is slot 0 of keeper core 0, at M. -/
def stKeeper (c : Ctx) : State := { cur := 32768, ctxs := [(32768, { c with priv := 3#2 })], sec := { up := true } }

/-- What a test asks of an outcome that is a next state. -/
def nextIs (o : Out) (f : State → Bool) : Bool :=
  match o with
  | .next t => f t
  | _ => false

theorem get_all {α : Type} (m : AMap α) (d : α) (P : α → Prop) (hd : P d) (h : ∀ kv ∈ m, P kv.2) (k : Nat) : P (m.get k d) := by
  induction m with
  | nil => exact hd
  | cons kv m ih =>
    obtain ⟨i, v⟩ := kv
    by_cases hk : i = k
    · simpa [AMap.get, AMap.find, hk] using h (i, v) (by simp)
    · simpa [AMap.get, AMap.find, hk] using ih fun x hx => h x (by simp [hx])

theorem memOk_of {s : State} (h : (s.tiles.all fun kv => kv.2.mem.wf) = true) (hk : s.kmem.wf = true) : MemOk s :=
  ⟨get_all s.tiles {} (fun t => t.mem.wf = true) rfl (by simpa using h), hk⟩

theorem linesOk_of {s : State} (h : ∀ kv ∈ s.tiles, kv.2.old = []) : LinesOk s := by
  intro k l x hx
  have := get_all s.tiles {} (fun t => t.old = []) rfl h k
  unfold State.tile at hx
  rw [this] at hx
  cases hx

/-- An access that passes its checks, with the state after the walk left to the model. -/
theorem translates_of {s : State} {va : Word} {n : Nat} {k : AccKind} {pa : Nat} (hc : Canonical va) (ha : va.toNat % n = 0) (hk : s.cur < 32768)
    (ht : (s.translate (s.cur / 16) s.me.priv va k).2 = .ok pa) : Translates s va n k (s.translate (s.cur / 16) s.me.priv va k).1 pa :=
  ⟨hc, ha, hk, Prod.ext rfl ht⟩

/-- A fetch that gives a word, with the state and the word left to the model. -/
theorem fetch_of {s : State} (h : (match s.fetch with | .word _ _ => true | _ => false) = true) : ∃ u w, s.fetch = .word u w := by
  cases hf : s.fetch with
  | word u w => exact ⟨u, w, rfl⟩
  | accessFault => rw [hf] at h; cases h
  | pageFault _ _ _ => rw [hf] at h; cases h
  | poison => rw [hf] at h; cases h
  | halted => rw [hf] at h; cases h

theorem drained_of {s : State} (h : (match s.myPart with | some p => p.pending.isEmpty | none => true) = true) : Drained s := by
  intro p hp
  rw [hp] at h
  simpa using h

/-- A context of no process goes on. -/
theorem goesOn_of {s : State} {c : Nat} (h : s.procOf c = none) : GoesOn s c := by
  intro l e hl
  rw [h] at hl
  cases hl

theorem pair_eq {α β : Type} (x : α × β) : x = (x.1, x.2) := rfl


/-- As `linesOk_of`, where the tiles keep whole lines. -/
theorem linesOk_of' {s : State} (h : (s.tiles.all fun kv => kv.2.old.all fun x => x.2.hbm.bytes.length == 64) = true) : LinesOk s := by
  intro k l x hx
  have := get_all s.tiles {} (fun t => ∀ l x, t.old.find l = some x → x.hbm.bytes.length = 64) (by intro _ _ h; cases h)
    (fun kv hkv l x hf => by
      have h1 := List.all_eq_true.mp h kv hkv
      have key : ∀ (m : AMap Dirty), (m.all fun x => x.2.hbm.bytes.length == 64) = true → m.find l = some x → x.hbm.bytes.length = 64 := by
        intro m
        induction m with
        | nil => intro _ h; cases h
        | cons kv m ih =>
          intro ha hf
          simp only [List.all_cons, Bool.and_eq_true] at ha
          by_cases hk : kv.1 = l
          · simp [AMap.find, hk] at hf; subst hf; simpa using ha.1
          · simp [AMap.find, hk] at hf; exact ih ha.2 hf
      exact key _ h1 hf) k
  exact this l x hx

/-- With every die below HALT and every tile ON, a core runs that runs at reset. -/
theorem clocked_of {s : State} {k : Nat} (hd : s.dies = []) (hp : s.power = []) (h : ({} : State).clocked k = true) : s.clocked k = true := by
  have e : s.clocked k = ({} : State).clocked k := by simp only [State.clocked, State.stackState, State.die, State.pwr, hd, hp]
  rw [e, h]

/-! Decoding: words that the spec writes beside their assembly text. -/

theorem test_decode_integer :
    decode 0x06313000#32 = some (.add 17#5 17#5 6#5) ∧ decode 0x20C64004#32 = some (.srli 6#5 6#5 4#6)
      ∧ decode 0x24A20001#32 = some (.lih 5#5 2#2 1#16) := by decide +kernel

theorem test_decode_branch : decode 0x44C00010#32 = some (.bne 6#5 0#5 16#16) := by decide +kernel

theorem test_decode_memory :
    decode 0x68C5C008#32 = some (.ld 6#5 5#5 0#1 8#12) ∧ decode 0x6CE58000#32 = some (.sw 7#5 5#5 0#1 0#12)
      ∧ decode 0x70A73102#32 = some (.aadd 5#5 7#5 6#5 0#1 0#1 2#2) := by decide +kernel

theorem test_decode_system :
    decode 0x7CC02000#32 = some (.crd 6#5 0#11) ∧ decode 0x7C142806#32 = some (.cwr 20#5 6#11)
      ∧ decode 0x74000003#32 = some (.fence 3#2) := by decide +kernel

theorem test_decode_contexts :
    decode 0x80000003#32 = some (.cself 0#5) ∧ decode 0x80E20007#32 = some (.movfh 7#5 2#3) := by decide +kernel

theorem test_decode_barriers :
    decode 0x854B6000#32 = some (.binit 10#5 11#5 12#5) ∧ decode 0x85EB5003#32 = some (.bwait 15#5 11#5 10#5)
      ∧ decode 0x854B0004#32 = some (.btest 10#5 11#5 0#5) := by decide +kernel

theorem test_decode_channels :
    decode 0x894B0000#32 = some (.chbind 10#5 11#5) ∧ decode 0x894B6002#32 = some (.chsend 10#5 11#5 12#5)
      ∧ decode 0x89A55007#32 = some (.select 13#5 10#5 5#5) := by decide +kernel

theorem test_decode_vector_config :
    decode 0xA0053003#32 = some (.ctwr 5#5 6#5) ∧ decode 0xA00C0001#32 = some (.vsett 0#5 12#5) := by decide +kernel

theorem test_decode_vector :
    decode 0xA4C22801#32 = some (.vsub 6#5 2#5 5#5 0#1 none) ∧ decode 0xA8C22820#32 = some (.vfcvt 6#5 2#5 5#5 none)
      ∧ decode 0xB0203082#32 = some (.vslidedn 1#5 0#5 6#5 none) ∧ decode 0xB8603482#32 = some (.vbcast 3#5 6#5 (some 0#2))
      ∧ decode 0xB0830020#32 = some (.vscanSum 4#5 3#5 none) := by decide +kernel

theorem test_decode_vector_memory :
    decode 0xB40D0000#32 = some (.vld 0#5 13#5 none) ∧ decode 0xB4853010#32 = some (.vlds 4#5 5#5 6#5 none)
      ∧ decode 0xB5055022#32 = some (.vldx 8#5 5#5 10#5 2#2 none) ∧ decode 0xB4855562#32 = some (.vldl 4#5 5#5 10#5 2#2 (some 1#2))
      ∧ decode 0xB4C55083#32 = some (.vamoFadd 6#5 5#5 10#5 none) := by decide +kernel

theorem test_decode_matrix :
    decode 0xC14B0000#32 = some (.mattach 10#5 11#5) ∧ decode 0xC0444A71#32 = some (.mop 1#2 2#4 4#4 9#5 1#1)
      ∧ decode 0xC0890480#32 = some (.mtmv 4#5 2#2 9#5 none) ∧ decode 0xC08348C0#32 = some (.mprune 4#4 3#4 9#5) := by decide +kernel

theorem test_decode_engines :
    decode 0xC54B0000#32 = some (.pcopy 10#5 11#5) ∧ decode 0xC58A0002#32 = some (.pwait 12#5 10#5)
      ∧ decode 0xC94B6000#32 = some (.clload 10#5 11#5 12#5) ∧ decode 0xC8891001#32 = some (.clquery 4#5 2#5 9#5)
      ∧ decode 0xC94B0002#32 = some (.clrun 10#5 11#5 0#5) := by decide +kernel

/-- A bit that no field uses makes a word no instruction (R34): a function code of major 0x01 that is not assigned, and majors that the map does not list. -/
theorem test_decode_reserved :
    decode 0x06313420#32 = none ∧ decode 0x8C000000#32 = none ∧ decode 0x00000000#32 = none := by decide +kernel

/-! WellFormed: for each check a term that it refuses. -/

theorem test_wf_scalar :
    (Instr.fenceQ 0#5 1#2).wf = false ∧ (Instr.ftof 1#5 2#5 1#2 0#1).wf = false ∧ (Instr.pfx 1#3 0#1 0#1 4#5).wf = false
      ∧ (Instr.chsendv 1#5 2#5 28#5).wf = false ∧ (Instr.chrecvv 28#5 2#5 3#5).wf = false := by decide +kernel

/-- The V-form arms: a destination above m3, a source 30, a vector source 31 where X = 0. -/
def badV (f : VReg → VReg → XReg → BitVec 1 → VMask → Instr) : Bool :=
  !(f 28#5 1#5 2#5 0#1 none).wf && !(f 1#5 30#5 2#5 0#1 none).wf && !(f 1#5 2#5 31#5 0#1 none).wf && (f 1#5 2#5 31#5 1#1 none).wf

theorem test_wf_integer_vector :
    (badV .vadd && badV .vsub && badV .vrsub && badV .vand && badV .vor && badV .vxor && badV .vsll && badV .vsrl && badV .vsra && badV .vmin
      && badV .vmax && badV .vminu && badV .vmaxu && badV .vmul && badV .vmulh && badV .vmulhu && badV .vsadd && badV .vsaddu && badV .vssub
      && badV .vssubu && badV .vmacc) = true := by decide +kernel

theorem test_wf_float_vector :
    (badV .vfadd && badV .vfsub && badV .vfmul && badV .vfdiv && badV .vfmin && badV .vfmax && badV .vfmacc
      && badV (fun d a c x _ => .vmerge d a c x 0#2)) = true := by decide +kernel

/-- The compares: a source 30, a vector source 31 where X = 0. -/
def badC (f : MReg → VReg → XReg → BitVec 1 → VMask → Instr) : Bool :=
  !(f 1#2 30#5 2#5 0#1 none).wf && !(f 1#2 2#5 31#5 0#1 none).wf

theorem test_wf_compare :
    (badC .vcmpeq && badC .vcmpne && badC .vcmplt && badC .vcmple && badC .vcmpltu && badC .vcmpleu && badC .vfcmpeq && badC .vfcmplt
      && badC .vfcmple) = true := by decide +kernel

/-- The arms with a destination and a source. -/
def bad2 (f : VReg → VReg → Instr) : Bool := !(f 28#5 1#5).wf && !(f 1#5 30#5).wf

theorem test_wf_two_registers :
    (bad2 (.vabs · · none) && bad2 (.vneg · · none) && bad2 (.vfsqrt · · none) && bad2 (.vfabs · · none) && bad2 (.vfneg · · none)
      && bad2 (.vfcvt · · 0#5 none) && bad2 (.vquant · · 0#5 none) && bad2 (.vdequant · · 0#5 none) && bad2 (.vslideup · · 0#5 none)
      && bad2 (.vslidedn · · 0#5 none) && bad2 (.vcompress · · 0#2) && bad2 (.vexpand · · 0#2) && bad2 (.vdense · · 0#5 0#1 none)
      && bad2 (.vmv · · none) && bad2 (.vshuf · · 1#5 none) && !(Instr.vshuf 1#5 2#5 30#5 none).wf && !(Instr.vdense 2#5 4#5 1#5 0#1 none).wf) = true := by
  decide +kernel

/-- The reductions: a vector destination above m3 where X = 0, a source 30. -/
def badR (f : XReg → VReg → BitVec 1 → VMask → Instr) : Bool :=
  !(f 28#5 1#5 0#1 none).wf && !(f 1#5 30#5 1#1 none).wf && (f 28#5 1#5 1#1 none).wf

theorem test_wf_reductions :
    (badR .vredSum && badR .vredMin && badR .vredMax && badR .vredMinu && badR .vredMaxu && badR .vredAnd && badR .vredOr && badR .vredXor
      && badR .vredFsum && badR .vredFmin && badR .vredFmax && bad2 (.vscanSum · · none) && bad2 (.vscanMin · · none)
      && bad2 (.vscanMax · · none) && bad2 (.vscanMinu · · none) && bad2 (.vscanMaxu · · none) && bad2 (.vscanAnd · · none)
      && bad2 (.vscanOr · · none) && bad2 (.vscanXor · · none) && bad2 (.vscanFsum · · none)) = true := by decide +kernel

theorem test_wf_one_register :
    (Instr.vbcast 28#5 1#5 none).wf = false ∧ (Instr.vmvxs 1#5 30#5).wf = false ∧ (Instr.vmvsx 28#5 1#5).wf = false ∧ (Instr.vid 28#5 none).wf = false
      ∧ (Instr.vld 28#5 1#5 none).wf = false ∧ (Instr.vlds 28#5 1#5 2#5 none).wf = false ∧ (Instr.vst 30#5 1#5 none).wf = false
      ∧ (Instr.vsts 30#5 1#5 2#5 none).wf = false ∧ (Instr.mtmv 28#5 0#2 1#5 none).wf = false ∧ (Instr.mvtm 0#2 28#5 1#5 none).wf = false := by
  decide +kernel

/-- The indexed accesses: data register, index register, index width 3. -/
theorem test_wf_indexed :
    (Instr.vldx 28#5 1#5 2#5 0#2 none).wf = false ∧ (Instr.vldx 1#5 1#5 30#5 0#2 none).wf = false ∧ (Instr.vldx 1#5 1#5 2#5 3#2 none).wf = false
      ∧ (Instr.vstx 30#5 1#5 2#5 0#2 none).wf = false ∧ (Instr.vstx 1#5 1#5 30#5 0#2 none).wf = false ∧ (Instr.vstx 1#5 1#5 2#5 3#2 none).wf = false
      ∧ (Instr.vldl 28#5 1#5 2#5 0#2 none).wf = false ∧ (Instr.vldl 1#5 1#5 30#5 0#2 none).wf = false ∧ (Instr.vldl 1#5 1#5 2#5 3#2 none).wf = false
      ∧ (Instr.vstc 28#5 1#5 2#5 0#2 0#2).wf = false ∧ (Instr.vstc 1#5 1#5 30#5 0#2 0#2).wf = false ∧ (Instr.vstc 1#5 1#5 2#5 3#2 0#2).wf = false
      ∧ (Instr.clquery 28#5 1#5 2#5).wf = false ∧ (Instr.clquery 1#5 28#5 2#5).wf = false := by decide +kernel

theorem test_wf_vamo :
    ([Instr.vamoAdd 28#5 1#5 2#5 none, .vamoAdd 1#5 1#5 28#5 none, .vamoMin 28#5 1#5 2#5 none, .vamoMin 1#5 1#5 28#5 none,
      .vamoMax 28#5 1#5 2#5 none, .vamoMax 1#5 1#5 28#5 none, .vamoFadd 28#5 1#5 2#5 none, .vamoFadd 1#5 1#5 28#5 none].all fun i => !i.wf) = true := by
  decide +kernel

/-- A word whose fields are ill formed is no instruction (R34): FTOF from BF16 with a rounding mode. -/
theorem test_decode_ill_formed : (encode (.ftof 1#5 2#5 1#2 0#1)).bind decode = none := by decide +kernel


/-! Single steps. Expected values are worked out by hand from the tables of the rules named. -/

/-- R69: addition is modulo 2^64. -/
theorem test_add_wraps : nextIs (exec (.add 7#5 5#5 6#5) (st (cx [(5, -1#64), (6, 2#64)]))) (fun t => t.x 7#5 == Reg.clean 1#64 && t.me.pc == 0x10004#64) = true := by
  decide +kernel

/-- R16: x0 stays zero, also as a destination. -/
theorem test_x0_discards : nextIs (exec (.addi 0#5 5#5 1#16) (st (cx [(5, 9#64)]))) (fun t => t.x 0#5 == Reg.zero && t.me.pc == 0x10004#64) = true := by
  decide +kernel

/-- R69: an arithmetic shift copies the sign; the amount is taken modulo 64. -/
theorem test_sra_sign : nextIs (exec (.sra 7#5 5#5 6#5) (st (cx [(5, 0x8000000000000000#64), (6, 127#64)]))) (fun t => t.x 7#5 == Reg.clean (-1#64)) = true := by
  decide +kernel

/-- R69: the high half of (2^64 - 1) * -1. -/
theorem test_mulh_us : nextIs (exec (.mulhUs 7#5 5#5 6#5) (st (cx [(5, -1#64), (6, -1#64)]))) (fun t => t.x 7#5 == Reg.clean (-1#64)) = true := by
  decide +kernel

/-- R70: division by zero gives 0, and the remainder is the dividend. -/
theorem test_divide_by_zero :
    (nextIs (exec (.divu 7#5 5#5 0#5) (st (cx [(5, 9#64)]))) (fun t => t.x 7#5 == Reg.zero)
      && nextIs (exec (.rems 7#5 5#5 0#5) (st (cx [(5, -9#64)]))) (fun t => t.x 7#5 == Reg.clean (-9#64))) = true := by
  decide +kernel

/-- R70: -2^63 / -1 wraps to itself, and -7 / 2 goes towards zero. -/
theorem test_divs_corner :
    (nextIs (exec (.divs 7#5 5#5 6#5) (st (cx [(5, 0x8000000000000000#64), (6, -1#64)]))) (fun t => t.x 7#5 == Reg.clean 0x8000000000000000#64)
      && nextIs (exec (.divs 7#5 5#5 6#5) (st (cx [(5, -7#64), (6, 2#64)]))) (fun t => t.x 7#5 == Reg.clean (-3#64))) = true := by
  decide +kernel

/-- R69: no bit set gives 64. -/
theorem test_clz_zero : nextIs (exec (.clz 7#5 0#5) (st (cx []))) (fun t => t.x 7#5 == Reg.clean 64#64) = true := by decide +kernel

/-- R73: LIH replaces one half-word and keeps the others. -/
theorem test_lih_keeps : nextIs (exec (.lih 5#5 2#2 1#16) (st (cx [(5, 0x1111222233334444#64)]))) (fun t => t.x 5#5 == Reg.clean 0x1111000133334444#64) = true := by
  decide +kernel

/-- R71: the immediate of SLTIU is sign-extended and then compared unsigned. -/
theorem test_sltiu_extends : nextIs (exec (.sltiu 7#5 5#5 0xFFFF#16) (st (cx [(5, 0xFFFF#64)]))) (fun t => t.x 7#5 == Reg.clean 1#64) = true := by
  decide +kernel

/-- R76: a taken branch one word back. -/
theorem test_branch_back : nextIs (exec (.blt 5#5 0#5 0xFFFF#16) (st (cx [(5, -1#64)]))) (fun t => t.me.pc == 0xFFFC#64) = true := by decide +kernel

/-- R79: JALR reads its base before it writes the link. -/
theorem test_jalr_same_register : nextIs (exec (.jalr 5#5 5#5 8#16) (st (cx [(5, 0x20000#64)]))) (fun t => t.me.pc == 0x20008#64 && t.x 5#5 == Reg.clean 0x10004#64) = true := by
  decide +kernel

/-- R7, R84: little-endian bytes, lowest first; a signed byte load extends its sign. -/
theorem test_load_bytes :
    (nextIs (exec (.ld 7#5 5#5 0#1 8#12) (stMem (cx [(5, 0x10000#64)]) (List.replicate 8 0#8 ++ [1#8, 2#8, 3#8, 4#8, 5#8, 6#8, 7#8, 0x80#8])))
        (fun t => t.x 7#5 == Reg.clean 0x8007060504030201#64)
      && nextIs (exec (.lb 7#5 5#5 0#1 0#12) (stMem (cx [(5, 0x10000#64)]) [0x80#8])) (fun t => t.x 7#5 == Reg.clean 0xFFFFFFFFFFFFFF80#64)) = true := by
  decide +kernel

/-- R84: SH stores the low two bytes, and no other. -/
theorem test_store_half : nextIs (exec (.sh 6#5 5#5 0#1 2#12) (stMem (cx [(5, 0x10000#64), (6, 0xAABBCC#64)]) [1#8, 1#8, 1#8, 1#8, 1#8]))
    (fun t => (t.tile 0).mem.bytes 0x20000 5 == [1#8, 1#8, 0xCC#8, 0xBB#8, 1#8]) = true := by
  decide +kernel

/-- R89: AMAX on a word compares signed, and returns the old value sign-extended. -/
theorem test_amax_word : nextIs (exec (.amax 7#5 5#5 6#5 0#1 0#1 2#2) (stMem (cx [(5, 0x10000#64), (6, 3#64)]) [0xFE#8, 0xFF#8, 0xFF#8, 0xFF#8, 9#8]))
    (fun t => t.x 7#5 == Reg.clean (-2#64) && (t.tile 0).mem.bytes 0x20000 5 == [3#8, 0#8, 0#8, 0#8, 9#8]) = true := by
  decide +kernel

/-- R101, R24: ECALL at U saves its own address and the privilege, and enters at S. -/
theorem test_ecall_entry : nextIs (exec .ecall (st { cx [] with priv := 0#2, ie := true, trapvec := 0x5000#64 }))
    (fun t => t.me.pc == 0x5000#64 && t.me.trappc == 0x10000#64 && t.me.trapcause == 8#8 && t.me.ppriv == 0#2 && t.me.priv == 1#2 && t.me.pie && !t.me.ie && t.me.intrap) = true := by
  decide +kernel

/-- R26: TRET restores the pending prefix from PFXSAVE when PFX is set. -/
theorem test_tret_prefix : nextIs (exec .tret (st { cx [] with pfxBit := true, pfxsave := 0xFD690000#32, trappc := 0x700#64, intrap := true, ppriv := 0#2 }))
    (fun t => t.me.pc == 0x700#64 && t.me.pfx == some 0xFD690000#32 && !t.me.pfxBit && !t.me.intrap && t.me.priv == 0#2) = true := by
  decide +kernel

/-- R51: a result goes to rd and to the copy register of the prefix: PFX with copy to x9. -/
theorem test_prefix_copy : nextIs (exec (.add 7#5 5#5 6#5) (st { cx [(5, 2#64), (6, 3#64)] with pfx := some 0xFD690000#32 }))
    (fun t => t.x 7#5 == Reg.clean 5#64 && t.x 9#5 == Reg.clean 5#64 && t.me.pfx == none) = true := by
  decide +kernel

/-- R97: 1 + 2^-24 is a tie, and goes to the even code; up, it is 1 + 2^-23. -/
theorem test_fadd_rounding :
    (nextIs (exec (.fadd 7#5 5#5 6#5 0#2 0#1) (st (cx [(5, 0x3F800000#64), (6, 0x33800000#64)]))) (fun t => t.x 7#5 == Reg.clean 0x3F800000#64)
      && nextIs (exec (.fadd 7#5 5#5 6#5 2#2 0#1) (st (cx [(5, 0x3F800000#64), (6, 0x33800000#64)]))) (fun t => t.x 7#5 == Reg.clean 0x3F800001#64)) = true := by
  decide +kernel

/-- R97: 1 / 3 in BF16, to nearest even: 0x3EAB. -/
theorem test_fdiv_bf16 : nextIs (exec (.fdiv 7#5 5#5 6#5 0#2 1#1) (st (cx [(5, 0x3F80#64), (6, 0x4040#64)]))) (fun t => t.x 7#5 == Reg.clean 0x3EAB#64) = true := by
  decide +kernel

/-- R104: CSET returns the value before and sets bits. -/
theorem test_cset : nextIs (exec (.cset 7#5 5#5 7#11) (st { cx [(5, 6#64)] with trapscr := 3#64 })) (fun t => t.x 7#5 == Reg.clean 3#64 && t.me.trapscr == 7#64) = true := by
  decide +kernel

/-- R116, R117: a MOVH is seen six i-cycles later and not five. -/
theorem test_movh_age : nextIs (exec (.movh 2#3 5#5) (st (cx [(5, 9#64)]))) (fun t => (t.myCore.hreg 2#3).seen 5 == Reg.zero && (t.myCore.hreg 2#3).seen 6 == Reg.clean 9#64) = true := by
  decide +kernel

/-- R29, R31: the instruction that withFetchWord places is the next to run: ADDI x1, x0, 5. -/
theorem test_step_runs_placed_word : nextIs (step (State.reset.withFetchWord 32 0x08200005)) (fun t => t.x 1#5 == Reg.clean 5#64 && t.me.pc == 0x10004#64) = true := by
  decide +kernel


/-! Witnesses: for each statement with hypotheses, states and operands that meet them, clause by clause. -/

theorem canFall_st (c : Ctx) (h : c.pc ≠ 0x00007FFFFFFFFFFC#64) : CanFall (st c) := h

theorem canFall_stMem (c : Ctx) (bs : List Byte) (h : c.pc ≠ 0x00007FFFFFFFFFFC#64) : CanFall (stMem c bs) := h

theorem witness_IntegerResults :
    (∃ i rd a b f, ∃ s : State, intTwo i = some (rd, a, b, f) ∧ CanFall s) ∧ ∃ i rd a f, ∃ s : State, intOne i = some (rd, a, f) ∧ CanFall s :=
  ⟨⟨.add 0#5 31#5 31#5, _, _, _, _, st (cx [(31, -1#64)]), rfl, canFall_st _ (by decide +kernel)⟩,
   ⟨.slli 31#5 0#5 63#6, _, _, _, st (cx []), rfl, canFall_st _ (by decide +kernel)⟩⟩

theorem witness_DivideResults :
    ∃ i rd a b f, ∃ s : State, divTwo i = some (rd, a, b, f) ∧ CanFall s ∧ (s.x b).val = 0#64 :=
  ⟨.divs 1#5 2#5 0#5, _, _, _, _, st (cx [(2, 0x8000000000000000#64)]), rfl, canFall_st _ (by decide +kernel), by decide +kernel⟩

theorem witness_PredicateResults :
    (∃ i pd a b f, ∃ s : State, compareTwo i = some (pd, a, b, f) ∧ CanFall s ∧ (s.x a).psn = none ∧ (s.x b).psn = none)
      ∧ ∃ i pd a b f, ∃ s : State, predTwo i = some (pd, a, b, f) ∧ CanFall s :=
  ⟨⟨.cmplt 7#3 5#5 6#5, _, _, _, _, st (cx [(5, 0x8000000000000000#64)]), rfl, canFall_st _ (by decide +kernel), by decide +kernel, by decide +kernel⟩,
   ⟨.pandn 0#3 0#3 7#3, _, _, _, _, st (cx []), rfl, canFall_st _ (by decide +kernel)⟩⟩

/-- A branch taken back, one not taken, BP both ways, a jump of the greatest distance, a link, a jump through a register to the last word of the lower half. -/
theorem witness_ControlTransfers :
    (∃ i a b off f, ∃ s : State, branchTwo i = some (a, b, off, f) ∧ (s.x a).psn = none ∧ (s.x b).psn = none ∧ f (s.x a).val (s.x b).val = true
        ∧ GoodTarget (targetOf s.me.pc off.toInt))
      ∧ (∃ i a b off f, ∃ s : State, branchTwo i = some (a, b, off, f) ∧ (s.x a).psn = none ∧ (s.x b).psn = none ∧ f (s.x a).val (s.x b).val = false ∧ CanFall s)
      ∧ (∃ (q : PReg) (sense : BitVec 1) (off : BitVec 16) (s : State), Bool.xor (s.p q) (decide (sense = 1#1)) = true ∧ GoodTarget (targetOf s.me.pc off.toInt))
      ∧ (∃ (q : PReg) (sense : BitVec 1) (s : State), Bool.xor (s.p q) (decide (sense = 1#1)) = false ∧ CanFall s)
      ∧ (∃ (off : BitVec 26) (s : State), GoodTarget (targetOf s.me.pc off.toInt))
      ∧ ∃ (base : XReg) (imm : BitVec 16) (s : State), (s.x base).psn = none ∧ GoodTarget (BitVec.ofInt 64 ((s.x base).val.toNat + imm.toInt)) := by
  refine ⟨⟨.beq 0#5 0#5 0xFFFF#16, _, _, _, _, st (cx []), rfl, ?_, ?_, ?_, ?_⟩, ⟨.bne 0#5 0#5 1#16, _, _, _, _, st (cx []), rfl, ?_, ?_, ?_, ?_⟩,
    ⟨0#3, 0#1, 0x7FFF#16, st (cx []), ?_, ?_⟩, ⟨0#3, 1#1, st (cx []), ?_, ?_⟩, ⟨0x1FFFFFF#26, st (cx []), ?_⟩, ⟨5#5, 0#16, st (cx [(5, 0x00007FFFFFFFFFFC#64)]), ?_, ?_⟩⟩
    <;> first | decide +kernel | (unfold CanFall; decide +kernel) | (unfold GoodTarget Canonical; decide +kernel)

/-- A context at the last word of the lower canonical half. -/
def atEnd (rs : List (Nat × Word)) : Ctx := { cx rs with pc := 0x00007FFFFFFFFFFC#64 }

/-- A context whose register x5 is poisoned. -/
def poisoned : Ctx := (cx []).setX 5#5 { val := 7#64, psn := some 0x20000#64 }

theorem witness_ControlTraps :
    (∃ i a b off f, ∃ s : State, s.me.intrap = false ∧ branchTwo i = some (a, b, off, f) ∧ (s.x a).psn = none ∧ (s.x b).psn = none
        ∧ f (s.x a).val (s.x b).val = true ∧ ¬ Canonical (targetOf s.me.pc off.toInt))
      ∧ (∃ (off : BitVec 26) (s : State), s.me.intrap = false ∧ ¬ Canonical (targetOf s.me.pc off.toInt))
      ∧ (∃ (base : XReg) (imm : BitVec 16) (s : State), s.me.intrap = false ∧ (s.x base).psn = none
          ∧ ¬ Canonical (BitVec.ofInt 64 ((s.x base).val.toNat + imm.toInt)))
      ∧ (∃ i pd a b f o, ∃ s : State, s.me.intrap = false ∧ compareTwo i = some (pd, a, b, f) ∧ origin2 (s.x a) (s.x b) = some o)
      ∧ (∃ i a b off f o, ∃ s : State, s.me.intrap = false ∧ branchTwo i = some (a, b, off, f) ∧ origin2 (s.x a) (s.x b) = some o)
      ∧ (∃ (base : XReg) (o : Word) (s : State), s.me.intrap = false ∧ (s.x base).psn = some o)
      ∧ (∃ (i : Instr) (s : State), s.me.pc = 0x00007FFFFFFFFFFC#64 ∧ s.me.intrap = false ∧ (intTwo i).isSome = true)
      ∧ ∃ i pd a b f, ∃ s : State, s.me.pc = 0x00007FFFFFFFFFFC#64 ∧ s.me.intrap = false ∧ compareTwo i = some (pd, a, b, f) ∧ (s.x a).psn = none ∧ (s.x b).psn = none := by
  refine ⟨⟨.beq 0#5 0#5 1#16, _, _, _, _, st (atEnd []), ?_, rfl, ?_, ?_, ?_, ?_⟩, ⟨1#26, st (atEnd []), ?_, ?_⟩, ⟨5#5, 4#16, st (cx [(5, 0x00007FFFFFFFFFFC#64)]), ?_, ?_, ?_⟩,
    ⟨.cmpeq 1#3 0#5 5#5, _, _, _, _, 0x20000#64, st poisoned, ?_, rfl, ?_⟩, ⟨.beq 5#5 0#5 1#16, _, _, _, _, 0x20000#64, st poisoned, ?_, rfl, ?_⟩,
    ⟨5#5, 0x20000#64, st poisoned, ?_, ?_⟩, ⟨.add 1#5 2#5 3#5, st (atEnd []), ?_, ?_, ?_⟩, ⟨.cmpeq 1#3 0#5 5#5, _, _, _, _, st (atEnd []), ?_, ?_, rfl, ?_, ?_⟩⟩
    <;> first | decide +kernel | (unfold Canonical; decide +kernel)

theorem witness_TrapsAreTaken :
    (∃ s : State, s.me.intrap = false)
      ∧ (∃ s : State, s.me.intrap = true ∧ 32768 ≤ s.cur ∧ s.me.chan = none ∧ s.myPart = none)
      ∧ (∃ s : State, s.me.intrap = false ∧ ¬ Canonical s.me.pc)
      ∧ (∃ (s u : State) (lvl r : Nat), s.me.intrap = false ∧ Canonical s.me.pc ∧ s.cur < 32768 ∧ s.translate (myCoreKey s) s.me.priv s.me.pc .fetch = (u, .fault lvl r))
      ∧ ∃ s : State, s.me.intrap = false ∧ ∃ u w, s.fetch = .word u w := by
  refine ⟨⟨st (cx []), ?_⟩, ⟨stKeeper { cx [] with intrap := true }, ?_, ?_, ?_, ?_⟩, ⟨st { cx [] with pc := 0x0000800000000000#64 }, ?_, ?_⟩,
    ⟨st { cx [] with pc := 0x20000#64 }, _, 4, 1, ?_, ?_, ?_, Prod.ext rfl ?_⟩, ⟨st (cx []), ?_, fetch_of ?_⟩⟩
    <;> first | decide +kernel | (unfold Canonical; decide +kernel)

theorem witness_TrapReturnRestores :
    (∃ s : State, s.me.priv ≠ 0#2) ∧ ∃ s : State, s.me.priv = 0#2 ∧ s.me.intrap = false :=
  ⟨⟨st (cx []), by decide +kernel⟩, ⟨st { cx [] with priv := 0#2 }, by decide +kernel, by decide +kernel⟩⟩

/-- Interrupts of every number at a boundary; a completion to deliver; SAVE_FULL due; a counter short of its compare value; SLEEP with and without an interrupt. -/
theorem witness_InterruptsAreTaken :
    (∃ (s : State) (n : Nat), AtBoundary s ∧ s.saveFullDue = false ∧ s.deliverable = false ∧ s.me.ie = true ∧ 1 ≤ n ∧ n ≤ 4 ∧ (s.enabledPending s.cur).getLsbD n = true
        ∧ (∀ j, 1 ≤ j → j < n → (s.enabledPending s.cur).getLsbD j = false))
      ∧ (∃ (s : State) (e : JobEnd) (rest : List JobEnd), AtBoundary s ∧ s.saveFullDue = false ∧ s.deliverable = true ∧ s.me.wait ≠ .sleep ∧ s.me.clist = e :: rest)
      ∧ (∃ s : State, s.me.uiActive = true) ∧ (∃ s : State, s.me.uiActive = false ∧ s.me.intrap = false)
      ∧ (∃ (s : State) (v : Word), AtBoundary s ∧ s.me.saveFull = some v ∧ s.me.intrap = false)
      ∧ (∃ s : State, ClockFree s ∧ s.myCore.cyc < 2 ^ 64) ∧ (∃ s : State, ¬ ClockFree s)
      ∧ (∃ s : State, CanFall s ∧ s.enabledPending s.cur = 0#5) ∧ (∃ s : State, CanFall s ∧ s.enabledPending s.cur ≠ 0#5)
      ∧ ∃ s : State, s.me.wait = .sleep ∧ s.enabledPending s.cur ≠ 0#5 := by
  refine ⟨⟨st { cx [] with ie := true, ien := 0x1F#5, ipend := 4#3 }, 4, ?_, ?_, ?_, ?_, ?_, ?_, ?_, ?_⟩,
    ⟨st { cx [] with clist := [{ id := 1, status := 0 }], places := 1, uivec := 0x700#64, ien := 1#5, ie := true, priv := 0#2 }, _, _, ?_, ?_, ?_, ?_, rfl⟩,
    ⟨st { cx [] with uiActive := true }, ?_⟩, ⟨st (cx []), ?_, ?_⟩, ⟨st { cx [] with saveFull := some 1#64 }, 1#64, ?_, ?_, ?_⟩, ⟨st { cx [] with wait := .sleep, ccmp := 100#64 }, ?_, ?_⟩, ⟨st (cx []), ?_⟩,
    ⟨st (cx []), ?_, ?_⟩, ⟨st { cx [] with ien := 4#5, ipend := 1#3 }, ?_, ?_⟩, ⟨st { cx [] with ien := 4#5, ipend := 1#3, wait := .sleep }, ?_, ?_⟩⟩
    <;> first | decide +kernel | (unfold CanFall; decide +kernel) | (unfold AtBoundary; decide +kernel) | (unfold ClockFree; decide +kernel)

theorem witness_ControlRegistersRead :
    (∃ (cr : BitVec 11) (s : State), CanFall s ∧ cr.toNat ∈ crReadAny ∧ cr.toNat ∈ crDraining ∧ Drained s)
      ∧ (∃ (cr : BitVec 11) (s : State), CanFall s ∧ cr.toNat ∈ crNotUser ∧ s.me.priv ≠ 0#2 ∧ cr.toNat ∉ crDraining)
      ∧ (∃ (cr : BitVec 11) (s : State), CanFall s ∧ 32768 ≤ s.cur ∧ crMachine cr.toNat ∧ s.me.priv = 3#2)
      ∧ (∃ (cr : BitVec 11) (s : State), s.me.intrap = false ∧ cr.toNat ∉ crReadAny ∧ cr.toNat ∉ crNotUser ∧ s.cur < 32768)
      ∧ (∃ (cr : BitVec 11) (s : State), s.me.intrap = false ∧ cr.toNat ∈ crNotUser ∧ s.me.priv = 0#2)
      ∧ (∃ (cr : BitVec 11) (s : State), s.me.intrap = false ∧ cr.toNat ∈ crUserReadOnly ∧ s.me.priv = 0#2)
      ∧ ∃ (cr : BitVec 11) (s : State), s.me.intrap = false ∧ 32768 ≤ s.cur ∧ crMachine cr.toNat ∧ s.me.priv ≠ 3#2 := by
  refine ⟨⟨0x027#11, st (cx []), ?_, ?_, ?_, ?_⟩, ⟨0x042#11, st (cx []), ?_, ?_, ?_, ?_⟩, ⟨0x440#11, stKeeper (cx []), ?_, ?_, ?_, ?_⟩, ⟨0x7FF#11, st (cx []), ?_, ?_, ?_, ?_⟩,
    ⟨0x073#11, st { cx [] with priv := 0#2 }, ?_, ?_, ?_⟩, ⟨0x081#11, st { cx [] with priv := 0#2 }, ?_, ?_, ?_⟩,
    ⟨0x430#11, { stKeeper (cx []) with ctxs := [(32768, cx [])] }, ?_, ?_, ?_, ?_⟩⟩
    <;> first | decide +kernel | (unfold CanFall; decide +kernel) | (unfold crMachine; decide +kernel)
              | (intro p hp; have h : (st (cx [])).myPart = none := by decide +kernel
                 rw [h] at hp; cases hp)

theorem witness_ControlRegistersWritten :
    ∃ (rs1 : XReg) (cr : BitVec 11) (f : Word → Ctx → Ctx) (s : State), ctxWrite cr.toNat = some f ∧ CanFall s ∧ s.me.priv ≠ 0#2 ∧ (s.x rs1).psn = none :=
  ⟨5#5, 0x006#11, _, st (cx [(5, -1#64)]), rfl, canFall_st _ (by decide +kernel), by decide +kernel, by decide +kernel⟩

/-- PFX p2, sense 1, with copy to x9, before ADDI: suppressed while p2 holds, since its sense bit is 1. -/
theorem witness_PrefixPendingAndSuppression :
    (∃ (s : State) (w p : Insn) (i : Instr), s.iw = w ∧ decode w = some i ∧ s.cur < 32768 ∧ s.me.pfx = some p ∧ pfxIllegal p w = false
        ∧ s.p (p.extractLsb' 23 3) = p.getLsbD 22 ∧ CanFall s)
      ∧ ∃ (s : State) (w p : Insn) (i : Instr), s.iw = w ∧ decode w = some i ∧ s.cur < 32768 ∧ s.me.pfx = some p ∧ pfxIllegal p w = false
        ∧ s.p (p.extractLsb' 23 3) ≠ p.getLsbD 22 := by
  refine ⟨⟨{ st { cx [] with pfx := some 0xFD690000#32, p := Vector.replicate 8 true } with iw := 0x08E70001#32 }, 0x08E70001#32, 0xFD690000#32, .addi 7#5 7#5 1#16, ?_, ?_, ?_, ?_, ?_, ?_, ?_⟩,
    ⟨{ st { cx [] with pfx := some 0xFD690000#32 } with iw := 0x08E70001#32 }, 0x08E70001#32, 0xFD690000#32, .addi 7#5 7#5 1#16, ?_, ?_, ?_, ?_, ?_, ?_⟩⟩
    <;> first | decide +kernel | (unfold CanFall; decide +kernel)


/-- BP to an address that is not canonical, JALR to the middle of a word, and a branch and BP not taken at the end of the lower half. -/
theorem witness_ControlTraps_more :
    (∃ (q : PReg) (sense : BitVec 1) (off : BitVec 16) (s : State), s.me.intrap = false ∧ Bool.xor (s.p q) (decide (sense = 1#1)) = true
        ∧ ¬ Canonical (targetOf s.me.pc off.toInt))
      ∧ (∃ (base : XReg) (imm : BitVec 16) (s : State), s.me.intrap = false ∧ (s.x base).psn = none
          ∧ Canonical (BitVec.ofInt 64 ((s.x base).val.toNat + imm.toInt)) ∧ (BitVec.ofInt 64 ((s.x base).val.toNat + imm.toInt)).toNat % 4 ≠ 0)
      ∧ (∃ i a b off f, ∃ s : State, s.me.pc = 0x00007FFFFFFFFFFC#64 ∧ s.me.intrap = false ∧ branchTwo i = some (a, b, off, f) ∧ (s.x a).psn = none
          ∧ (s.x b).psn = none ∧ f (s.x a).val (s.x b).val = false)
      ∧ ∃ (q : PReg) (sense : BitVec 1) (s : State), s.me.pc = 0x00007FFFFFFFFFFC#64 ∧ s.me.intrap = false ∧ Bool.xor (s.p q) (decide (sense = 1#1)) = false := by
  refine ⟨⟨0#3, 0#1, 1#16, st (atEnd []), ?_, ?_, ?_⟩, ⟨5#5, 0#16, st (cx [(5, 0x10002#64)]), ?_, ?_, ?_, ?_⟩,
    ⟨.bne 0#5 0#5 1#16, _, _, _, _, st (atEnd []), ?_, ?_, rfl, ?_, ?_, ?_⟩, ⟨0#3, 1#1, st (atEnd []), ?_, ?_, ?_⟩⟩
    <;> first | decide +kernel | (unfold Canonical; decide +kernel)

/-- A fetch that gives poison, with the state after it left to the model. -/
theorem fetch_poison_of {s : State} (h : (match s.fetch with | .poison _ => true | _ => false) = true) : ∃ u, s.fetch = .poison u := by
  cases hf : s.fetch with
  | poison u => exact ⟨u, rfl⟩
  | word _ _ => rw [hf] at h; cases h
  | accessFault => rw [hf] at h; cases h
  | pageFault _ _ _ => rw [hf] at h; cases h
  | halted => rw [hf] at h; cases h

/-- A fetch of a poisoned word; a fetch of keeper core 0 through the SYSTEM window of a tile whose stack is in HALT. -/
theorem witness_TrapsAreTaken_more :
    (∃ s : State, s.me.intrap = false ∧ ∃ u, s.fetch = .poison u)
      ∧ ∃ s : State, s.me.intrap = false ∧ (match s.fetch with | .halted => true | _ => false) = true := by
  refine ⟨⟨{ st (cx []) with tiles := [(0, { tile0 with mem := mapped.setMark 0x20000 true })] }, ?_, fetch_poison_of ?_⟩,
    ⟨{ stKeeper { cx [] with pc := 0x8000000000#64 } with dies := [(0, { st := .halt })] }, ?_, ?_⟩⟩
    <;> decide +kernel

/-- CSET of CTXSTAT; a poisoned rs1 above U and at U; a register of the context that U may write, of the partition, with one and without, of the core and of the tile. -/
theorem witness_ControlRegistersWritten_more :
    (∃ i rd rs1 v, ∃ s : State, crForm s i = some (rd, rs1, 0x001#11, v) ∧ CanFall s ∧ s.me.priv ≠ 0#2 ∧ (s.x rs1).psn = none)
      ∧ (∃ i rd rs1 cr v o, ∃ s : State, crForm s i = some (rd, rs1, cr, v) ∧ (s.x rs1).psn = some o ∧ s.me.intrap = false ∧ (cr = 0x010#11 → s.cur % 16 = 0)
          ∧ ((cr.toNat ∈ crReadAny ∨ cr.toNat ∈ crNotUser) ∧ s.me.priv ≠ 0#2))
      ∧ (∃ i rd rs1 cr v o, ∃ s : State, crForm s i = some (rd, rs1, cr, v) ∧ (s.x rs1).psn = some o ∧ s.me.intrap = false ∧ (cr = 0x010#11 → s.cur % 16 = 0)
          ∧ (cr.toNat ∈ crReadAny ∧ cr.toNat ∉ crUserReadOnly) ∧ s.me.priv = 0#2)
      ∧ (∃ i rd rs1 cr v f, ∃ s : State, crForm s i = some (rd, rs1, cr, v) ∧ CanFall s ∧ (s.x rs1).psn = none ∧ s.cur < 32768 ∧ cr.toNat ∉ crDraining
          ∧ userWrite cr.toNat = some f)
      ∧ (∃ i rd rs1 cr v f, ∃ s : State, crForm s i = some (rd, rs1, cr, v) ∧ CanFall s ∧ (s.x rs1).psn = none ∧ s.cur < 32768 ∧ cr.toNat ∈ crDraining ∧ Drained s
          ∧ partWrite cr.toNat = some f ∧ s.myPart = none)
      ∧ (∃ i rd rs1 cr v f, ∃ s : State, crForm s i = some (rd, rs1, cr, v) ∧ CanFall s ∧ (s.x rs1).psn = none ∧ s.cur < 32768 ∧ cr.toNat ∉ crDraining
          ∧ coreWrite cr.toNat = some f ∧ (cr = 0x010#11 → s.cur % 16 = 0) ∧ (cr = 0x080#11 → s.me.priv ≠ 0#2))
      ∧ (∀ cr ∈ ([0x040#11, 0x053#11, 0x073#11, 0x000#11] : List (BitVec 11)), ∃ i rd rs1 v, ∃ s : State, crForm s i = some (rd, rs1, cr, v) ∧ CanFall s
          ∧ (s.x rs1).psn = none ∧ s.cur < 32768 ∧ s.me.priv ≠ 0#2)
      ∧ ∀ cr ∈ ([0x400#11, 0x410#11, 0x418#11, 0x421#11, 0x430#11, 0x43F#11, 0x081#11] : List (BitVec 11)), ∃ i rd rs1 v, ∃ s : State,
          crForm s i = some (rd, rs1, cr, v) ∧ CanFall s ∧ (s.x rs1).psn = none ∧ 32768 ≤ s.cur ∧ s.me.priv = 3#2 := by
  refine ⟨⟨.cset 7#5 5#5 0x001#11, _, _, _, st (cx []), rfl, ?_, ?_, ?_⟩,
    ⟨.cwr 5#5 0x002#11, _, _, _, _, 0x20000#64, st poisoned, rfl, ?_, ?_, ?_, ?_, ?_⟩,
    ⟨.cclr 5#5 5#5 0x060#11, _, _, _, _, 0x20000#64, st { poisoned with priv := 0#2 }, rfl, ?_, ?_, ?_, ?_, ?_⟩,
    ⟨.cclr 7#5 5#5 0x030#11, _, _, _, _, _, st (cx []), rfl, ?_, ?_, ?_, ?_, rfl⟩,
    ⟨.cwr 5#5 0x070#11, _, _, _, _, _, st (cx []), rfl, ?_, ?_, ?_, ?_, drained_of ?_, rfl, ?_⟩,
    ⟨.cwr 5#5 0x010#11, _, _, _, _, _, st (cx []), rfl, ?_, ?_, ?_, ?_, rfl, ?_, ?_⟩,
    fun cr _ => ⟨.cset 0#5 5#5 cr, _, _, _, st (cx []), rfl, canFall_st _ (by decide +kernel), by decide +kernel, by decide +kernel, by decide +kernel⟩,
    fun cr _ => ⟨.cwr 5#5 cr, _, _, _, stKeeper (cx []), rfl, ?_, ?_, ?_, ?_⟩⟩
  all_goals first | decide +kernel | (unfold CanFall; decide +kernel) | (left; decide +kernel) | (right; decide +kernel)

/-- A byte load at the last byte of a page of the tile's memory; a doubleword store at its first; both with a held write of the core in between. -/
theorem witness_LoadsAndStores :
    (∃ (i : Instr) (n : Nat) (signed : Bool) (rd base : XReg) (aq : BitVec 1) (off : BitVec 12) (s s1 : State) (pa : Nat),
        loadForm i = some (n, signed, rd, base, aq, off) ∧ MemOk s ∧ CanFall s ∧ (s.x base).psn = none ∧ Translates s (addressOf (s.x base).val off) n .load s1 pa
          ∧ s.vectorConflict pa n = false ∧ (s.tile (myTileKey s)).latent = [] ∧ aq = 0#1)
      ∧ ∃ (i : Instr) (n : Nat) (rs base : XReg) (rl : BitVec 1) (off : BitVec 12) (s s1 : State) (pa : Nat),
        storeForm i = some (n, rs, base, rl, off) ∧ MemOk s ∧ CanFall s ∧ (s.x base).psn = none ∧ Translates s (addressOf (s.x base).val off) n .store s1 pa
          ∧ s.vectorConflict pa n = false ∧ (rl = 1#1 → s.vectorAccessesDone s.cur = true) ∧ (s.tile (myTileKey s)).latent = [] ∧ pa % n = 0 := by
  refine ⟨⟨.lb 7#5 5#5 0#1 0xFFF#12, 1, true, 7#5, 5#5, 0#1, 0xFFF#12, st (cx [(5, 0x20000#64)]), _, 0x2FFFF, rfl, ?_, ?_, ?_, translates_of ?_ ?_ ?_ ?_, ?_, ?_, ?_⟩,
    ⟨.sd 6#5 5#5 1#1 0#12, 8, 6#5, 5#5, 1#1, 0#12, st (cx [(5, 0x10000#64)]), _, 0x20000, rfl, ?_, ?_, ?_, translates_of ?_ ?_ ?_ ?_, ?_, ?_, ?_, ?_⟩⟩
    <;> first | decide +kernel | exact memOk_of (by decide +kernel) (by decide +kernel) | (unfold CanFall; decide +kernel) | (unfold Canonical; decide +kernel)

theorem witness_AtomicResults :
    (∃ (i : Instr) (rd rs1 rs2 : XReg) (rl : BitVec 1) (z : BitVec 2) (sg : Bool) (f : Nat → Nat → Nat → Nat) (s s1 : State) (pa : Nat),
        atomicForm i = some (rd, rs1, rs2, rl, z, sg, f) ∧ MemOk s ∧ CanFall s ∧ (s.x rs1).psn = none ∧ Translates s (s.x rs1).val (2 ^ z.toNat) .store s1 pa
          ∧ s.vectorConflict pa (2 ^ z.toNat) = false ∧ (rl = 1#1 → s.vectorAccessesDone s.cur = true))
      ∧ ∃ (rd rs1 rs2 : XReg) (rl : BitVec 1) (z : BitVec 2) (s s1 : State) (pa : Nat), MemOk s ∧ CanFall s ∧ (s.x rs1).psn = none ∧ (s.x rd).psn = none
          ∧ (s.x rs2).psn = none ∧ Translates s (s.x rs1).val (2 ^ z.toNat) .store s1 pa ∧ s.vectorConflict pa (2 ^ z.toNat) = false
          ∧ (rl = 1#1 → s.vectorAccessesDone s.cur = true) ∧ (s.tile (myTileKey s)).latent = []
          ∧ ∀ i, i < 2 ^ z.toNat → (((if rl = 1#1 then s.drainCore (myCoreKey s) else s).drainBytes (myTileKey s) (bytesAt pa (2 ^ z.toNat))).tile (myTileKey s)).mem.marked (pa + i) = false := by
  refine ⟨⟨.aminu 7#5 5#5 6#5 0#1 1#1 0#2, 7#5, 5#5, 6#5, 1#1, 0#2, _, _, st (cx [(5, 0x1FFFF#64)]), _, 0x2FFFF, rfl, ?_, ?_, ?_, translates_of ?_ ?_ ?_ ?_, ?_, ?_⟩,
    ⟨7#5, 5#5, 6#5, 1#1, 3#2, st (cx [(5, 0x1FFF8#64)]), _, 0x2FFF8, ?_, ?_, ?_, ?_, ?_, translates_of ?_ ?_ ?_ ?_, ?_, ?_, ?_, ?_⟩⟩
    <;> first | decide +kernel | exact memOk_of (by decide +kernel) (by decide +kernel) | (unfold CanFall; decide +kernel) | (unfold Canonical; decide +kernel)

/-- A keeper context at M whose x5 holds an address. -/
def keeperAt (a : Word) : State := stKeeper (cx [(5, a)])

/-- The checks in order on one load; the checks of ACAS; a keeper context at the last bytes of keeper memory, in the flash, and at the first address above keeper memory. -/
theorem witness_MemoryAccessTraps :
    (∃ s : State, ∃ i b va n kind o, memForm s i = some (b, va, n, kind) ∧ s.me.intrap = false ∧ (s.x b).psn = some o)
      ∧ (∃ s : State, ∃ i b va n kind, memForm s i = some (b, va, n, kind) ∧ s.me.intrap = false ∧ (s.x b).psn = none ∧ ¬ Canonical va)
      ∧ (∃ s : State, ∃ i b va n kind, memForm s i = some (b, va, n, kind) ∧ s.me.intrap = false ∧ (s.x b).psn = none ∧ Canonical va ∧ va.toNat % n ≠ 0)
      ∧ (∃ s : State, ∃ i b va n kind lvl r, memForm s i = some (b, va, n, kind) ∧ s.me.intrap = false ∧ (s.x b).psn = none ∧ Canonical va ∧ va.toNat % n = 0
          ∧ s.cur < 32768 ∧ s.translate (s.cur / 16) s.me.priv va kind = (s, .fault lvl r))
      ∧ (∃ (s : State) (rd a b : XReg) (o : Word), s.me.intrap = false ∧ firstOrigin s [a, rd, b] = some o)
      ∧ (∃ (s : State) (rd a b : XReg), s.me.intrap = false ∧ firstOrigin s [a, rd, b] = none ∧ ¬ Canonical (s.x a).val)
      ∧ (∃ (s : State) (rd a b : XReg) (z : BitVec 2), s.me.intrap = false ∧ firstOrigin s [a, rd, b] = none ∧ Canonical (s.x a).val ∧ (s.x a).val.toNat % 2 ^ z.toNat ≠ 0) := by
  refine ⟨⟨st poisoned, .lw 7#5 5#5 0#1 0#12, 5#5, _, _, _, 0x20000#64, rfl, ?_, ?_⟩, ⟨st (cx [(5, 0x00007FFFFFFFFFFF#64)]), .lb 7#5 5#5 0#1 1#12, 5#5, _, _, _, rfl, ?_, ?_, ?_⟩,
    ⟨st (cx [(5, 0x10000#64)]), .sd 7#5 5#5 0#1 1#12, 5#5, _, _, _, rfl, ?_, ?_, ?_, ?_⟩,
    ⟨st (cx [(5, 0x20000#64)]), .aadd 7#5 5#5 6#5 0#1 0#1 3#2, 5#5, _, _, _, 4, 1, rfl, ?_, ?_, ?_, ?_, ?_, Prod.ext ?_ ?_⟩,
    ⟨st poisoned, 6#5, 7#5, 5#5, 0x20000#64, ?_, ?_⟩, ⟨st (cx [(5, 0x0000800000000000#64)]), 6#5, 5#5, 7#5, ?_, ?_, ?_⟩,
    ⟨st (cx [(5, 0x10004#64)]), 6#5, 5#5, 7#5, 3#2, ?_, ?_, ?_, ?_⟩⟩
    <;> first | decide +kernel | (unfold Canonical; decide +kernel)

theorem witness_MemoryAccessTraps_keeper :
    (∃ s : State, ∃ i n signed rd base aq off, 32768 ≤ s.cur ∧ s.me.priv = 3#2 ∧ CanFall s ∧ MemOk s ∧ loadForm i = some (n, signed, rd, base, aq, off)
        ∧ (s.x base).psn = none ∧ (addressOf (s.x base).val off).toNat < 0x10000000 ∧ (addressOf (s.x base).val off).toNat % n = 0)
      ∧ (∃ s : State, ∃ i n rs base rl off, 32768 ≤ s.cur ∧ s.me.priv = 3#2 ∧ CanFall s ∧ MemOk s ∧ storeForm i = some (n, rs, base, rl, off)
        ∧ (s.x base).psn = none ∧ (addressOf (s.x base).val off).toNat % n = 0 ∧ (addressOf (s.x base).val off).toNat < 0x10000000)
      ∧ (∃ s : State, ∃ i n rs base rl off, 32768 ≤ s.cur ∧ s.me.priv = 3#2 ∧ CanFall s ∧ MemOk s ∧ storeForm i = some (n, rs, base, rl, off)
        ∧ (s.x base).psn = none ∧ (addressOf (s.x base).val off).toNat % n = 0 ∧ 0x2000000000 ≤ (addressOf (s.x base).val off).toNat
        ∧ (addressOf (s.x base).val off).toNat < 0x2004000000 ∧ s.me.intrap = false)
      ∧ ∃ s : State, ∃ i n rs base rl off, 32768 ≤ s.cur ∧ s.me.priv = 3#2 ∧ CanFall s ∧ MemOk s ∧ storeForm i = some (n, rs, base, rl, off)
        ∧ (s.x base).psn = none ∧ (addressOf (s.x base).val off).toNat % n = 0 ∧ 0x10000000 ≤ (addressOf (s.x base).val off).toNat
        ∧ (addressOf (s.x base).val off).toNat < 0x1000000000 ∧ s.me.intrap = false := by
  refine ⟨⟨keeperAt 0x0FFFFFF8#64, .ld 7#5 5#5 0#1 0#12, _, _, _, _, _, _, ?_, ?_, ?_, ?_, rfl, ?_, ?_, ?_⟩, ⟨keeperAt 0#64, .sb 7#5 5#5 0#1 0#12, _, _, _, _, _, ?_, ?_, ?_, ?_, rfl, ?_, ?_, ?_⟩,
    ⟨keeperAt 0x2003FFFFFC#64, .sw 7#5 5#5 0#1 0#12, _, _, _, _, _, ?_, ?_, ?_, ?_, rfl, ?_, ?_, ?_, ?_, ?_⟩, ⟨keeperAt 0x10000000#64, .sh 7#5 5#5 0#1 0#12, _, _, _, _, _, ?_, ?_, ?_, ?_, rfl, ?_, ?_, ?_, ?_, ?_⟩⟩
    <;> first | decide +kernel | exact memOk_of (by decide +kernel) (by decide +kernel) | (unfold CanFall; decide +kernel)

theorem witness_Translation :
    (∃ (s s1 : State) (k : Nat) (priv : BitVec 2) (va : Word) (kind : AccKind) (pa : Nat), s.translate k priv va kind = (s1, .ok pa) ∧ priv = 0#2 ∧ kind = .store)
      ∧ ∃ (s s1 : State) (k : Nat) (priv : BitVec 2) (va : Word) (kind : AccKind), s.translate k priv va kind = (s1, .fault 1 1) :=
  ⟨⟨st (cx []), _, 0, 0#2, 0x1FFFF#64, .store, 0x2FFFF, Prod.ext rfl (by decide +kernel), rfl, rfl⟩,
   ⟨st (cx []), _, 0, 0#2, 0xFFFF800000000000#64, .load, Prod.ext rfl (by decide +kernel)⟩⟩

/-- A partition of two way pairs at base 0, with 16-bit integers and a queue. -/
def part (q : List VEntry) : Part := { base := 0, pairs := 2, owner := some 0, vtype := 0x00C#18, vl := 8, vlmax := 8, svc := [0], lanes := 128, queue := q }

/-- A queued load of one element at tile address 0x20000. -/
def loadEntry : VEntry := { op := .load 0#5 [{ e := 0, va := 0x10000#64, pa := 0x20000 }], vl := 1, vtype := 0x00C#18, vsbase := 0#64, vseed := 0#64, bank := 0#1, stamp := 0, by_ := 0 }

/-- A context that owns a partition with a queue. -/
def stPart (c : Ctx) (q : List VEntry) : State := { st c with cores := [(0, { parts := [part q] })] }

theorem witness_FencesAndCacheOperations :
    (∃ (scope : BitVec 2) (s : State), CanFall s ∧ (scope = 0#2 ∨ s.vectorAccessesDone s.cur = true))
      ∧ (∃ (scope : BitVec 2) (s : State), scope ≠ 0#2 ∧ s.vectorAccessesDone s.cur = false)
      ∧ (∃ (m : BitVec 5) (s : State), CanFall s ∧ m.getLsbD 0 = false)
      ∧ (∃ (m : BitVec 5) (scope : BitVec 2) (s : State), CanFall s ∧ m.getLsbD 0 = true ∧ s.fenceQDone m scope = true)
      ∧ (∃ (m : BitVec 5) (scope : BitVec 2) (s : State), CanFall s ∧ m.getLsbD 0 = true ∧ s.fenceQDone m scope = false)
      ∧ (∃ (b : XReg) (s s1 : State) (pa : Nat), CanFall s ∧ (s.x b).psn = none ∧ s.vectorConflict pa 1 = false ∧ Translates s (s.x b).val 1 .load s1 pa)
      ∧ (∃ (b : XReg) (s s1 : State) (pa : Nat), CanFall s ∧ (s.x b).psn = none ∧ s.vectorConflict pa 1 = false ∧ Translates s (s.x b).val 1 .store s1 pa
          ∧ s.me.priv ≠ 0#2 ∧ MemOk s ∧ LinesOk s)
      ∧ (∃ (b : XReg) (s s1 : State) (pa : Nat), CanFall s ∧ (s.x b).psn = none ∧ s.vectorConflict pa 1 = false ∧ Translates s (s.x b).val 1 .icinv s1 pa)
      ∧ ∃ s : State, s.me.priv = 0#2 ∧ s.me.intrap = false := by
  refine ⟨⟨3#2, st (cx []), ?_, ?_⟩, ⟨1#2, stPart (cx []) [loadEntry], ?_, ?_⟩, ⟨0x1E#5, st (cx []), ?_, ?_⟩, ⟨0x1F#5, 3#2, st (cx []), ?_, ?_, ?_⟩, ⟨0x03#5, 1#2, stPart (cx []) [loadEntry], ?_, ?_, ?_⟩,
    ⟨5#5, st (cx [(5, 0x10001#64)]), _, 0x20001, ?_, ?_, ?_, translates_of ?_ ?_ ?_ ?_⟩, ⟨5#5, st (cx [(5, 0x10001#64)]), _, 0x20001, ?_, ?_, ?_, translates_of ?_ ?_ ?_ ?_, ?_, ?_, ?_⟩,
    ⟨5#5, st (cx [(5, 0x10001#64)]), _, 0x20001, ?_, ?_, ?_, translates_of ?_ ?_ ?_ ?_⟩, ⟨st { cx [] with priv := 0#2 }, ?_, ?_⟩⟩
    <;> first | decide +kernel | exact memOk_of (by decide +kernel) (by decide +kernel) | exact linesOk_of (by decide +kernel) | (unfold CanFall; decide +kernel) | (unfold Canonical; decide +kernel)

theorem witness_ScalarFloat :
    (∃ s : State, ∃ i rd srcs v slow, fpForm s i = some (rd, srcs, v, slow) ∧ CanFall s ∧ slow = true)
      ∧ (∃ (i : Instr) (pd : PReg) (a b : XReg) (fmt : BitVec 1) (f : Ordering → Bool) (s : State), fpCompareForm i = some (pd, a, b, fmt, f) ∧ CanFall s
          ∧ (s.x a).psn = none ∧ (s.x b).psn = none)
      ∧ (∃ (i : Instr) (pd : PReg) (a b : XReg) (fmt : BitVec 1) (f : Ordering → Bool) (s : State) (o : Word), fpCompareForm i = some (pd, a, b, fmt, f)
          ∧ s.me.intrap = false ∧ origin2 (s.x a) (s.x b) = some o)
      ∧ ∃ (s : State) (rd a b : XReg) (fmt : BitVec 1), CanFall s ∧ rd ≠ 0#5 ∧ fpIsNan fmt (fpCode s fmt a) ∧ ¬ fpIsNan fmt (fpCode s fmt b) := by
  refine ⟨⟨st (cx []), .fsqrt 7#5 0#5 3#2 0#1, _, _, _, _, rfl, ?_, rfl⟩, ⟨.fcmple 1#3 5#5 6#5 0#1, _, _, _, _, _, st (cx [(5, 0x7F800001#64)]), rfl, ?_, ?_, ?_⟩,
    ⟨.fcmpeq 1#3 6#5 5#5 1#1, _, _, _, _, _, st poisoned, 0x20000#64, rfl, ?_, ?_⟩, ⟨st (cx [(5, 0x7F81#64)]), 7#5, 5#5, 6#5, 1#1, ?_, ?_, ?_, ?_⟩⟩
    <;> first | decide +kernel | (unfold CanFall; decide +kernel) | (unfold fpIsNan; decide +kernel)


/-- What a translation finds, with the state after it left to the model. -/
theorem page_fault_of {s : State} {k : Nat} {priv : BitVec 2} {va : Word} {kind : AccKind} {lvl r : Nat} (h : (s.translate k priv va kind).2 = .fault lvl r) :
    ∃ s1, s.translate k priv va kind = (s1, .fault lvl r) := ⟨_, Prod.ext rfl h⟩

/-- A context at S whose tables' last entry is poisoned. -/
def poisonedTable : State := { st (cx [(5, 0x10000#64)]) with tiles := [(0, { tile0 with mem := mapped.setMark 0x13008 true })] }

/-- ACAS on an unmapped page; a poisoned page-table entry; a keeper context above M whose root lies where nothing is mapped. -/
theorem witness_MemoryAccessTraps_more :
    (∃ (s : State) (rd a b : XReg) (z : BitVec 2) (lvl r : Nat), s.me.intrap = false ∧ firstOrigin s [a, rd, b] = none ∧ Canonical (s.x a).val
        ∧ (s.x a).val.toNat % 2 ^ z.toNat = 0 ∧ s.cur < 32768 ∧ (s.translate (s.cur / 16) s.me.priv (s.x a).val .store).2 = .fault lvl r)
      ∧ (∃ (s : State) (i : Instr) (b : XReg) (va : Word) (n : Nat) (kind : AccKind), memForm s i = some (b, va, n, kind) ∧ s.me.intrap = false ∧ (s.x b).psn = none
        ∧ Canonical va ∧ va.toNat % n = 0 ∧ s.cur < 32768 ∧ (s.translate (s.cur / 16) s.me.priv va kind).2 = .poison)
      ∧ ∃ (s : State) (i : Instr) (b : XReg) (va : Word) (n : Nat) (kind : AccKind), memForm s i = some (b, va, n, kind) ∧ s.me.intrap = false ∧ (s.x b).psn = none
        ∧ Canonical va ∧ va.toNat % n = 0 ∧ s.me.priv ≠ 3#2 ∧ (s.translate (s.cur / 16) s.me.priv va kind).2 = .absent := by
  refine ⟨⟨st (cx [(5, 0x20000#64)]), 6#5, 5#5, 7#5, 3#2, 4, 1, ?_, ?_, ?_, ?_, ?_, ?_⟩, ⟨poisonedTable, .ld 7#5 5#5 0#1 0#12, _, _, _, _, rfl, ?_, ?_, ?_, ?_, ?_, ?_⟩,
    ⟨{ stKeeper (cx [(5, 0x10000#64)]) with ctxs := [(32768, cx [(5, 0x10000#64)])], cores := [(2048, { kroot := 0x10000#19 })] }, .ld 7#5 5#5 0#1 0#12, _, _, _, _, rfl, ?_, ?_, ?_, ?_, ?_, ?_⟩⟩
    <;> first | decide +kernel | (unfold Canonical; decide +kernel)

/-- The keeper-physical map, each part at its first or last address: loads. -/
theorem witness_KeeperRegionLoads :
    (∀ a ∈ ([0x1000000000#64, 0x2003FFFFF8#64] : List Word), ∃ (s : State) (i : Instr) (n : Nat) (signed : Bool) (rd base : XReg) (aq : BitVec 1) (off : BitVec 12),
        32768 ≤ s.cur ∧ s.me.priv = 3#2 ∧ CanFall s ∧ MemInv s ∧ s.me.intrap = false ∧ loadForm i = some (n, signed, rd, base, aq, off) ∧ (s.x base).psn = none
          ∧ addressOf (s.x base).val off = a ∧ Canonical a ∧ a.toNat % n = 0)
      ∧ (∀ a ∈ ([0x3000000FF8#64, 0x4000000008#64, 0x4000000028#64, 0x8000000000#64, 0xFFFFFFFFF8#64, 0x10000000#64, 0x3000001000#64] : List Word),
        ∃ s : State, 32768 ≤ s.cur ∧ s.me.priv = 3#2 ∧ CanFall s ∧ MemInv s ∧ s.me.intrap = false ∧ (s.x 5#5).psn = none ∧ addressOf (s.x 5#5).val 0#12 = a
          ∧ Canonical a ∧ a.toNat % 8 = 0 ∧ loadForm (.ld 7#5 5#5 0#1 0#12) = some (8, false, 7#5, 5#5, 0#1, 0#12)
          ∧ (∃ w, powerWord (s.pwr 0) 0x08 = some w) ∧ powerWord (s.pwr 0) 0x28 = none ∧ WindowOpen s 0 ∧ WindowOpen s 255
          ∧ ¬ KeeperMapped 0x10000000 ∧ ¬ KeeperMapped 0x3000001000)
      ∧ (∃ s : State, (s.pwr 0).st ≠ .on ∧ (s.x 5#5).val = 0x8000000000#64 ∧ s.me.priv = 3#2 ∧ CanFall s ∧ MemInv s)
      ∧ ∃ s : State, (s.pwr 0).st = .on ∧ s.stackState (stackOf 0) = 3 ∧ (s.x 5#5).val = 0x8000000000#64 ∧ s.me.priv = 3#2 ∧ CanFall s ∧ MemInv s := by
  have hm (a : Word) : MemInv (keeperAt a) := ⟨memOk_of rfl rfl, linesOk_of (fun _ h => nomatch h)⟩
  refine ⟨?_, ?_, ⟨{ keeperAt 0x8000000000#64 with power := [(0, { st := .gated })] }, ?_, ?_, ?_, ?_, memOk_of rfl rfl, linesOk_of (by decide)⟩,
    ⟨{ keeperAt 0x8000000000#64 with dies := [(0, { st := .halt })] }, ?_, ?_, ?_, ?_, ?_, memOk_of rfl rfl, linesOk_of (by decide)⟩⟩
  · intro a ha
    refine ⟨keeperAt a, .ld 7#5 5#5 1#1 0#12, 8, false, 7#5, 5#5, 1#1, 0#12, ?_, ?_, ?_, hm a, ?_, rfl, ?_, ?_, ?_, ?_⟩ <;>
      simp only [List.mem_cons, List.not_mem_nil, or_false] at ha <;> rcases ha with rfl | rfl <;>
      first | decide +kernel | (unfold CanFall; decide +kernel) | (unfold Canonical; decide +kernel)
  · intro a ha
    refine ⟨keeperAt a, ?_, ?_, ?_, hm a, ?_, ?_, ?_, ?_, ?_, rfl, ⟨_, rfl⟩, rfl, ?_, ?_, ?_, ?_⟩ <;>
      simp only [List.mem_cons, List.not_mem_nil, or_false] at ha <;> rcases ha with rfl | rfl | rfl | rfl | rfl | rfl | rfl <;>
      first | decide +kernel | (unfold CanFall; decide +kernel) | (unfold Canonical; decide +kernel) | (unfold WindowOpen; decide +kernel) | (unfold KeeperMapped; decide +kernel)
  all_goals first | decide +kernel | (unfold CanFall; decide +kernel)

/-- The same map for stores and atomics. -/
theorem witness_KeeperRegionStores :
    (∀ a ∈ ([0x103FFFFFF8#64, 0x3000000000#64, 0x4000000000#64, 0x4000000028#64, 0x8000000000#64, 0x10000000000#64] : List Word), ∃ s : State, 32768 ≤ s.cur
        ∧ s.me.priv = 3#2 ∧ CanFall s ∧ MemOk s ∧ s.me.intrap = false ∧ (s.x 5#5).psn = none ∧ addressOf (s.x 5#5).val 0#12 = a ∧ Canonical a ∧ a.toNat % 8 = 0
          ∧ storeForm (.sd 7#5 5#5 0#1 0#12) = some (8, 7#5, 5#5, 0#1, 0#12) ∧ (powerStored s 0 (s.x 7#5).val 0).isSome ∧ powerStored s 0 (s.x 7#5).val 0x28 = none
          ∧ WindowOpen s 0 ∧ ¬ KeeperMapped 0x10000000000)
      ∧ (∃ (s : State) (i : Instr) (rd rs1 rs2 : XReg) (rl : BitVec 1) (z : BitVec 2) (sg : Bool) (f : Nat → Nat → Nat → Nat),
          atomicForm i = some (rd, rs1, rs2, rl, z, sg, f) ∧ (s.x rs1).psn = none ∧ Canonical (s.x rs1).val ∧ (s.x rs1).val.toNat % 2 ^ z.toNat = 0
            ∧ KeeperPlain (s.x rs1).val.toNat ∧ 32768 ≤ s.cur ∧ s.me.priv = 3#2 ∧ CanFall s ∧ MemOk s)
      ∧ ∃ (s : State) (i : Instr) (rd rs1 rs2 : XReg) (rl : BitVec 1) (z : BitVec 2) (sg : Bool) (f : Nat → Nat → Nat → Nat),
          atomicForm i = some (rd, rs1, rs2, rl, z, sg, f) ∧ (s.x rs1).psn = none ∧ Canonical (s.x rs1).val ∧ (s.x rs1).val.toNat % 2 ^ z.toNat = 0
            ∧ ¬ KeeperPlain (s.x rs1).val.toNat ∧ (s.x rs1).val.toNat < 2 ^ 39 ∧ 32768 ≤ s.cur ∧ s.me.priv = 3#2 ∧ CanFall s ∧ MemOk s := by
  refine ⟨?_, ⟨keeperAt 0x1000000000#64, .aminu 7#5 5#5 6#5 0#1 0#1 3#2, _, _, _, _, _, _, _, rfl, ?_, ?_, ?_, ?_, ?_, ?_, ?_, memOk_of rfl rfl⟩,
    ⟨keeperAt 0x2000000000#64, .aadd 7#5 5#5 6#5 0#1 0#1 2#2, _, _, _, _, _, _, _, rfl, ?_, ?_, ?_, ?_, ?_, ?_, ?_, ?_, memOk_of rfl rfl⟩⟩
  · intro a ha
    refine ⟨keeperAt a, ?_, ?_, ?_, memOk_of rfl rfl, ?_, ?_, ?_, ?_, ?_, rfl, ?_, ?_, ?_, ?_⟩ <;>
      simp only [List.mem_cons, List.not_mem_nil, or_false] at ha <;> rcases ha with rfl | rfl | rfl | rfl | rfl | rfl <;>
      first | decide +kernel | (unfold CanFall; decide +kernel) | (unfold Canonical; decide +kernel) | (unfold WindowOpen; decide +kernel) | (unfold KeeperMapped; decide +kernel)
  all_goals first | decide +kernel | (unfold CanFall; decide +kernel) | (unfold Canonical; decide +kernel) | (unfold KeeperPlain; decide +kernel)

/-- Dirty lines of this and of another context, and a held write, before FENCE SYSTEM; FENCE.Q with a queued store named and with held writes; a line dirty before DCINV. -/
def stDirty (c : Ctx) : State :=
  { st c with tiles := [(0, { tile0 with mem := mapped, old := [(0x800, { hbm := { bytes := List.replicate 64 0#8, marks := 0#8 }, by_ := [0] }), (0x801, { hbm := { bytes := List.replicate 64 0#8, marks := 0#8 }, by_ := [1] })] })]
              cores := [(0, { buf := [{ bytes := [(0x20000, 7#8, false)], by_ := 0 }] })] }

theorem witness_FencesAndCacheOperations_more :
    (∃ s : State, CanFall s ∧ s.vectorAccessesDone s.cur = true ∧ MemOk s ∧ s.cur < 32768 ∧ (s.core (myCoreKey s)).buf ≠ []
        ∧ (∃ d, ((s.drainCore (myCoreKey s)).tile (myTileKey s)).old.find 0x800 = some d ∧ s.cur ∈ d.by_)
        ∧ (∃ d, ((s.drainCore (myCoreKey s)).tile (myTileKey s)).old.find 0x801 = some d ∧ s.cur ∉ d.by_))
      ∧ (∃ (m : BitVec 5) (s : State), CanFall s ∧ m.getLsbD 0 = false ∧ m.getLsbD 1 = true ∧ s.named m ≠ [])
      ∧ (∃ (m : BitVec 5) (scope : BitVec 2) (s : State), CanFall s ∧ m.getLsbD 0 = true ∧ s.fenceQDone m scope = true ∧ s.cur < 32768 ∧ namesEngine m = true
        ∧ (s.core (myCoreKey s)).buf ≠ [])
      ∧ ∃ (b : XReg) (s s1 : State) (pa : Nat), CanFall s ∧ (s.x b).psn = none ∧ s.vectorConflict pa 1 = false ∧ Translates s (s.x b).val 1 .store s1 pa
        ∧ s.me.priv ≠ 0#2 ∧ MemOk s ∧ LinesOk s ∧ (s.tile (myTileKey s)).old.find (pa / 64) ≠ none := by
  refine ⟨⟨stDirty (cx []), ?_, ?_, ?_, ?_, ?_, ⟨_, rfl, ?_⟩, ⟨_, rfl, ?_⟩⟩, ⟨0x02#5, stPart (cx []) [loadEntry], ?_, ?_, ?_, ?_⟩, ⟨0x05#5, 0#2, stDirty (cx []), ?_, ?_, ?_, ?_, ?_, ?_⟩,
    ⟨5#5, stDirty (cx [(5, 0x1003F#64)]), _, 0x2003F, ?_, ?_, ?_, translates_of ?_ ?_ ?_ ?_, ?_, ?_, linesOk_of' (by decide +kernel), ?_⟩⟩
    <;> first | decide +kernel | exact memOk_of (by decide +kernel) (by decide +kernel) | (unfold CanFall; decide +kernel) | (unfold Canonical; decide +kernel)

/-- A translation that the TLB holds and one that the walk gives. -/
theorem witness_Translation_more :
    (∃ (s : State) (k : Nat) (va : Word), (tlbFind (s.core k).tlb va).isSome = true ∧ (s.translate k 1#2 va .load).2 = .ok 0x20000)
      ∧ ∃ (s : State) (k : Nat) (va : Word), tlbFind (s.core k).tlb va = none ∧ (s.translate k 1#2 va .load).2 = .ok 0x20000
          ∧ (match (walkLevels (State.readPte k) va .load 1#2 [1, 2, 3, 4] (s.rootOf k) [] s).2 with | .leaf l _ _ => l == 4 | _ => false) = true := by
  refine ⟨⟨((st (cx [])).translate 0 1#2 0x10000#64 .load).1, 0, 0x10000#64, ?_, ?_⟩, ⟨st (cx []), 0, 0x10000#64, ?_, ?_, ?_⟩⟩
    <;> decide +kernel

/-- A machine with a context in slot 0 and another in slot 3 of core 0. -/
def st2 (c d : Ctx) : State := { ctxs := [(0, c), (3, d)], tiles := [(0, tile0)], sec := { up := true } }

/-- A machine whose context owns a partition of some way pairs, with FORKMASK allowing slot 5 alone. -/
def stFork (c : Ctx) (n : Nat) : State := { st c with cores := [(0, { forkmask := 0x20#16, vmode := 2#2, parts := [{ part [] with pairs := n }] })] }

/-- The slots that FORKL may give. -/
def forkAllowed (s : State) (i : Nat) : Prop := 1 ≤ i ∧ i < 16 ∧ s.myCore.forkmask.getLsbD i = true ∧ (s.ctx (slotAt s i)).slot = .free

theorem witness_ContextsStart :
    (∃ (rs1 rs2 : XReg) (s : State), CanFall s ∧ s.cur % 16 = 0 ∧ (s.x rs1).psn = none ∧ (s.x rs2).psn = none ∧ (s.x rs1).val.toNat % 16 ≠ 0
        ∧ (s.ctx (slotAt s ((s.x rs1).val.toNat % 16))).slot = .free ∧ (s.x rs1).val.toNat / 256 % 4 = 1 ∧ s.me.priv ≠ 0#2 ∧ GoodTarget (s.x rs2).val)
      ∧ (∃ (rs1 : XReg) (s : State), CanFall s ∧ s.cur % 16 = 0 ∧ (s.x rs1).psn = none ∧ (s.x rs1).val.toNat % 16 = 0)
      ∧ (∃ (rs1 : XReg) (s : State), CanFall s ∧ s.cur % 16 = 0 ∧ (s.x rs1).psn = none ∧ (s.x rs1).val.toNat % 16 ≠ 0
          ∧ (s.ctx (slotAt s ((s.x rs1).val.toNat % 16))).slot ≠ .free)
      ∧ (∃ (rs1 : XReg) (s : State), CanFall s ∧ s.cur % 16 = 0 ∧ (s.x rs1).psn = none ∧ (s.x rs1).val.toNat % 16 ≠ 0
          ∧ (s.ctx (slotAt s ((s.x rs1).val.toNat % 16))).slot = .free ∧ (s.x rs1).val.toNat / 256 % 4 = 1 ∧ s.me.priv = 0#2)
      ∧ (∃ (rs1 rs2 : XReg) (s : State), CanFall s ∧ s.cur % 16 = 0 ∧ (s.x rs1).psn = none ∧ (s.x rs2).psn = none ∧ (s.x rs1).val.toNat % 16 ≠ 0
          ∧ (s.ctx (slotAt s ((s.x rs1).val.toNat % 16))).slot = .free ∧ (s.x rs1).val.toNat / 256 % 4 = 0 ∧ ¬ GoodTarget (s.x rs2).val)
      ∧ ∃ s : State, CanFall s ∧ s.cur % 16 ≠ 0 ∧ s.me.intrap = false := by
  refine ⟨⟨5#5, 6#5, st (cx [(5, 0x10F#64), (6, 0x10000#64)]), ?_, ?_, ?_, ?_, ?_, ?_, ?_, ?_, ?_⟩, ⟨5#5, st (cx [(5, 0x110#64)]), ?_, ?_, ?_, ?_⟩,
    ⟨5#5, st2 (cx [(5, 3#64)]) (cx []), ?_, ?_, ?_, ?_, ?_⟩, ⟨5#5, st { cx [(5, 0x103#64)] with priv := 0#2 }, ?_, ?_, ?_, ?_, ?_, ?_, ?_⟩,
    ⟨5#5, 6#5, st (cx [(5, 1#64), (6, 0x10002#64)]), ?_, ?_, ?_, ?_, ?_, ?_, ?_, ?_⟩, ⟨{ st2 (cx []) (cx []) with cur := 3 }, ?_, ?_, ?_⟩⟩
    <;> first | decide +kernel | (unfold CanFall; decide +kernel) | (unfold GoodTarget Canonical; decide +kernel)

theorem witness_ContextsStart_fork :
    (∃ (rs1 : XReg) (s : State) (p : Part) (i : Nat), CanFall s ∧ s.me.slot = .running ∧ (s.x rs1).psn = none ∧ Drained s ∧ s.myPart = some p ∧ p.pairs ≠ 1
        ∧ GoodTarget (s.x rs1).val ∧ forkAllowed s i ∧ ∀ j, j < i → ¬ forkAllowed s j)
      ∧ (∃ (rs1 : XReg) (s : State), CanFall s ∧ s.me.slot = .running ∧ (s.x rs1).psn = none ∧ Drained s ∧ s.myPart = none)
      ∧ (∃ (rs1 : XReg) (s : State) (p : Part), CanFall s ∧ s.me.slot = .running ∧ (s.x rs1).psn = none ∧ Drained s ∧ s.myPart = some p ∧ p.pairs = 1)
      ∧ (∃ (rs1 : XReg) (s : State) (p : Part), CanFall s ∧ s.me.slot = .running ∧ (s.x rs1).psn = none ∧ Drained s ∧ s.myPart = some p ∧ p.pairs ≠ 1 ∧ ¬ GoodTarget (s.x rs1).val)
      ∧ ∃ (rs1 : XReg) (s : State) (p : Part), CanFall s ∧ s.me.slot = .running ∧ (s.x rs1).psn = none ∧ Drained s ∧ s.myPart = some p ∧ p.pairs ≠ 1 ∧ GoodTarget (s.x rs1).val
          ∧ s.myCore.forkmask = 0#16 := by
  refine ⟨⟨5#5, stFork (cx [(5, 0x10000#64)]) 2, { part [] with pairs := 2 }, 5, ?_, ?_, ?_, drained_of ?_, ?_, ?_, ?_, ?_, ?_⟩, ⟨5#5, st (cx []), ?_, ?_, ?_, drained_of ?_, ?_⟩,
    ⟨5#5, stFork (cx []) 1, { part [] with pairs := 1 }, ?_, ?_, ?_, drained_of ?_, ?_, ?_⟩, ⟨5#5, stFork (cx [(5, 1#64)]) 4, { part [] with pairs := 4 }, ?_, ?_, ?_, drained_of ?_, ?_, ?_, ?_⟩,
    ⟨5#5, stPart (cx [(5, 0x10000#64)]) [], part [], ?_, ?_, ?_, drained_of ?_, ?_, ?_, ?_, ?_⟩⟩
    <;> first | decide +kernel | (unfold CanFall; decide +kernel) | (unfold GoodTarget Canonical; decide +kernel) | (unfold forkAllowed; decide +kernel)

theorem stopsAtOnce_st2 (c : Ctx) : StopsAtOnce (st2 c (cx [])) 3 := by unfold StopsAtOnce; refine ⟨?_, ?_, ?_, ?_⟩ <;> rfl

theorem witness_ContextsEnd :
    (∃ (rs1 : XReg) (s : State), CanFall s ∧ s.cur % 16 = 0 ∧ (s.x rs1).psn = none ∧ (s.x rs1).val.toNat % 16 ≠ 0
        ∧ StopsAtOnce s (slotAt s ((s.x rs1).val.toNat % 16)) ∧ GoesOn s (slotAt s ((s.x rs1).val.toNat % 16)))
      ∧ (∃ (rs1 : XReg) (s : State) (why : StopReason), CanFall s ∧ s.cur % 16 = 0 ∧ (s.x rs1).psn = none ∧ (s.x rs1).val.toNat % 16 ≠ 0
          ∧ (s.ctx (slotAt s ((s.x rs1).val.toNat % 16))).slot = .stopped why ∧ s.heldBy (slotAt s ((s.x rs1).val.toNat % 16)) = [])
      ∧ (∃ (rs1 : XReg) (s : State), CanFall s ∧ s.cur % 16 = 0 ∧ (s.x rs1).psn = none ∧ (s.x rs1).val.toNat % 16 ≠ 0
          ∧ (s.ctx (slotAt s ((s.x rs1).val.toNat % 16))).slot = .running ∧ (s.ctx (slotAt s ((s.x rs1).val.toNat % 16))).atBoundary = false
          ∧ (s.ctx (slotAt s ((s.x rs1).val.toNat % 16))).chan = none ∧ (s.x rs1).val.getLsbD 8 = true)
      ∧ (∃ (s : State) (n : Nat), CanFall s ∧ s.me.wait = .cstop n ∧ 0 < n ∧ n < 16 ∧ s.cur % 16 = 0 ∧ StopsAtOnce s (slotAt s n) ∧ GoesOn s (slotAt s n))
      ∧ (∃ (rs1 : XReg) (s : State) (why : StopReason), CanFall s ∧ s.cur % 16 = 0 ∧ (s.x rs1).psn = none ∧ s.me.wait = .creap ((s.x rs1).val.toNat % 16)
          ∧ (s.x rs1).val.toNat % 16 ≠ 0 ∧ (s.ctx (slotAt s ((s.x rs1).val.toNat % 16))).slot = .stopped why ∧ s.heldBy (slotAt s ((s.x rs1).val.toNat % 16)) = [])
      ∧ (∃ s : State, s.me.chan = none ∧ s.cur % 16 ≠ 0 ∧ Drained s ∧ GoesOn s s.cur)
      ∧ (∃ (s : State) (p : Part), s.me.chan = none ∧ s.myPart = some p ∧ p.queue ≠ []) := by
  refine ⟨⟨5#5, st2 (cx [(5, 3#64)]) (cx []), ?_, ?_, ?_, ?_, stopsAtOnce_st2 _, goesOn_of ?_⟩, ⟨5#5, st2 (cx [(5, 3#64)]) { cx [] with slot := .stopped .exited }, .exited, ?_, ?_, ?_, ?_, ?_, ?_⟩,
    ⟨5#5, st2 (cx [(5, 0x103#64)]) { cx [] with wait := .memReply }, ?_, ?_, ?_, ?_, ?_, ?_, ?_, ?_⟩, ⟨st2 { cx [] with wait := .cstop 3 } (cx []), 3, ?_, ?_, ?_, ?_, ?_, stopsAtOnce_st2 _, goesOn_of ?_⟩,
    ⟨5#5, st2 { cx [(5, 3#64)] with wait := .creap 3 } { cx [] with slot := .stopped .double }, .double, ?_, ?_, ?_, ?_, ?_, ?_, ?_⟩,
    ⟨{ st2 (cx []) (cx []) with cur := 3 }, ?_, ?_, drained_of ?_, goesOn_of ?_⟩, ⟨stPart (cx []) [loadEntry], part [loadEntry], ?_, ?_, ?_⟩⟩
    <;> first | decide +kernel | (unfold CanFall; decide +kernel)

/-- Two partitions of two way pairs side by side, the lower of slot 0, the upper with an owner or none. -/
def stJoin (c d : Ctx) (o : Option Nat) : State :=
  { st2 c d with cores := [(0, { vmode := 2#2, parts := [part [], { part [] with base := 2, owner := o }] })] }

theorem witness_ContextsEnd_join :
    (∃ (s : State) (p : Part), CanFall s ∧ s.myPart = some p ∧ p.pairs = modePairs s.myCore.vmode)
      ∧ (∃ (s : State) (p q : Part), CanFall s ∧ s.myPart = some p ∧ p.pairs ≠ modePairs s.myCore.vmode ∧ s.myCore.buddy p = some q ∧ p.queue = [] ∧ q.owner = none ∧ s.me.wait = .joinl)
      ∧ (∃ (s : State) (p q : Part) (o : Nat) (why : StopReason), CanFall s ∧ s.myPart = some p ∧ p.pairs ≠ modePairs s.myCore.vmode ∧ s.myCore.buddy p = some q ∧ p.queue = []
          ∧ q.owner = some o ∧ (s.ctx (slotAt s o)).slot = .stopped why)
      ∧ (∃ (s : State) (p q : Part) (o : Nat), CanFall s ∧ s.myPart = some p ∧ p.pairs ≠ modePairs s.myCore.vmode ∧ s.myCore.buddy p = some q ∧ p.queue = []
          ∧ q.owner = some o ∧ 0 < o ∧ o < 16 ∧ o ≠ s.cur % 16 ∧ (s.ctx (slotAt s o)).slot = .running ∧ (s.ctx (slotAt s o)).wait = .joinl ∧ (s.ctx (slotAt s o)).chan = none
          ∧ GoesOn s (slotAt s o) ∧ p.base < q.base)
      ∧ ∃ (s : State) (p q : Part) (o : Nat), CanFall s ∧ s.myPart = some p ∧ p.pairs ≠ modePairs s.myCore.vmode ∧ s.myCore.buddy p = some q ∧ p.queue = []
          ∧ q.owner = some o ∧ (s.ctx (slotAt s o)).slot = .running ∧ (s.ctx (slotAt s o)).wait ≠ .joinl := by
  refine ⟨⟨stFork (cx []) 4, { part [] with pairs := 4 }, ?_, ?_, ?_⟩, ⟨stJoin { cx [] with wait := .joinl } (cx []) none, part [], { part [] with base := 2, owner := none }, ?_, ?_, ?_, ?_, ?_, ?_, ?_⟩,
    ⟨stJoin (cx []) { cx [] with slot := .stopped .halted } (some 3), part [], { part [] with base := 2, owner := some 3 }, 3, .halted, ?_, ?_, ?_, ?_, ?_, ?_, ?_⟩,
    ⟨stJoin (cx []) { cx [] with wait := .joinl } (some 3), part [], { part [] with base := 2, owner := some 3 }, 3, ?_, ?_, ?_, ?_, ?_, ?_, ?_, ?_, ?_, ?_, ?_, ?_, goesOn_of ?_, ?_⟩,
    ⟨stJoin (cx []) (cx []) (some 3), part [], { part [] with base := 2, owner := some 3 }, 3, ?_, ?_, ?_, ?_, ?_, ?_, ?_, ?_⟩⟩
    <;> first | decide +kernel | (unfold CanFall; decide +kernel)

theorem witness_SharedRegisters :
    ∃ (s : State) (hd : Sys2Proof.HReg), CanFall s ∧ ((s.myCore.hreg hd).recent.map Prod.fst).Pairwise (· ≥ ·) ∧ (s.myCore.hreg hd).recent ≠ [] :=
  ⟨{ st (cx []) with cores := [(0, { cyc := 20, h := Vector.replicate 8 { recent := [(16, Reg.clean 1#64), (12, Reg.zero)] } })] }, 7#3,
    by unfold CanFall; decide +kernel, by decide +kernel, by decide +kernel⟩

/-- A machine with barrier 1 of core 0, and x5 naming it. -/
def stBar (c : Ctx) (b : Barrier) : State := { st c with cores := [(0, { barriers := [(1, b)] })] }

/-- An open barrier that awaits two arrivals. -/
def bar : Barrier := { init := true, scope := 1#2, target := 2 }

theorem witness_Barriers :
    (∃ (rs1 rs2 : XReg) (s : State), CanFall s ∧ (s.x rs1).psn = none ∧ (s.x rs2).psn = none ∧ (s.x rs1).val.toNat / 4096 % 4 = 2 ∧ 0 < (s.x rs2).val.toNat
        ∧ (s.x rs2).val.toNat < 2 ^ 40 ∧ (s.x rs1).val.getLsbD 7 = false ∧ (barrierOf s (s.x rs1).val).pending = 0 ∧ s.barrierWaiters (s.cur / 16) ((s.x rs1).val.toNat % 128) = false)
      ∧ (∃ (rs1 rs2 : XReg) (s : State), CanFall s ∧ (s.x rs1).psn = none ∧ (s.x rs2).psn = none ∧ (barrierOf s (s.x rs1).val).pending + (s.x rs2).val.toNat < 2 ^ 40
          ∧ BarrierOpen s (s.x rs1).val ∧ (barrierOf s (s.x rs1).val).phase ≠ 2 ^ 32 - 1 ∧ s.vectorAccessesDone s.cur = true ∧ Drained s ∧ s.scatters = 0)
      ∧ (∃ (rs1 rs2 : XReg) (s : State), CanFall s ∧ (s.x rs1).psn = none ∧ (s.x rs2).psn = none ∧ 2 ^ 40 ≤ (barrierOf s (s.x rs1).val).pending + (s.x rs2).val.toNat)
      ∧ (∃ (rs1 : XReg) (s : State), CanFall s ∧ (s.x rs1).psn = none ∧ BarrierFails s (s.x rs1).val 2)
      ∧ (∃ (rs1 : XReg) (s : State), CanFall s ∧ (s.x rs1).psn = none ∧ BarrierFails s (s.x rs1).val 1)
      ∧ (∃ (rs1 : XReg) (s : State), CanFall s ∧ (s.x rs1).psn = none ∧ BarrierFails s (s.x rs1).val 4)
      ∧ (∃ (rs1 rs2 : XReg) (s : State), CanFall s ∧ (s.x rs1).psn = none ∧ (s.x rs2).psn = none ∧ (s.x rs2).val.toNat < 2 ^ 32 - 1 ∧ BarrierOpen s (s.x rs1).val
          ∧ (s.x rs2).val.toNat < (barrierOf s (s.x rs1).val).phase)
      ∧ (∃ (rs1 rs2 : XReg) (s : State), CanFall s ∧ (s.x rs1).psn = none ∧ (s.x rs2).psn = none ∧ (s.x rs2).val.toNat < 2 ^ 32 - 1 ∧ BarrierOpen s (s.x rs1).val
          ∧ (barrierOf s (s.x rs1).val).phase ≤ (s.x rs2).val.toNat)
      ∧ (∃ s : State, CanFall s ∧ s.me.wait = .barrier ∧ (s.x (s.me.uword.extractLsb' 11 5)).val.toNat < (barrierOf s (s.x (s.me.uword.extractLsb' 16 5)).val).phase)
      ∧ ∃ s : State, CanFall s ∧ s.me.wait = .barrier ∧ (barrierOf s (s.x (s.me.uword.extractLsb' 16 5)).val).phase ≤ (s.x (s.me.uword.extractLsb' 11 5)).val.toNat
          ∧ (barrierOf s (s.x (s.me.uword.extractLsb' 16 5)).val).err = true := by
  refine ⟨⟨5#5, 6#5, stBar (cx [(5, 0x207F#64), (6, 0xFFFFFFFFFF#64)]) {}, ?_, ?_, ?_, ?_, ?_, ?_, ?_, ?_, ?_⟩, ⟨5#5, 6#5, stBar (cx [(5, 1#64), (6, 1#64)]) bar, ?_, ?_, ?_, ?_, ?_, ?_, ?_, drained_of ?_, ?_⟩,
    ⟨5#5, 6#5, stBar (cx [(5, 1#64), (6, 1#64)]) { bar with pending := 2 ^ 40 - 1 }, ?_, ?_, ?_, ?_⟩,
    ⟨5#5, { stBar (cx [(5, 0x181#64)]) bar with cores := [(1, { barriers := [(1, bar)] })] }, ?_, ?_, ?_⟩, ⟨5#5, st (cx []), ?_, ?_, ?_⟩, ⟨5#5, stBar (cx [(5, 1#64)]) { bar with err := true }, ?_, ?_, ?_⟩,
    ⟨5#5, 6#5, stBar (cx [(5, 1#64)]) { bar with phase := 1 }, ?_, ?_, ?_, ?_, ?_, ?_⟩, ⟨5#5, 6#5, stBar (cx [(5, 1#64), (6, 0xFFFFFFFE#64)]) { bar with phase := 1 }, ?_, ?_, ?_, ?_, ?_, ?_⟩,
    ⟨stBar { cx [(11, 1#64)] with wait := .barrier, uword := 0x85EB5003#32 } { bar with phase := 1 }, ?_, ?_, ?_⟩,
    ⟨stBar { cx [(11, 1#64), (10, 1#64)] with wait := .barrier, uword := 0x85EB5003#32 } { bar with phase := 1, err := true }, ?_, ?_, ?_, ?_⟩⟩
    <;> first | decide +kernel | (unfold CanFall; decide +kernel) | (unfold BarrierOpen; decide +kernel) | (unfold BarrierFails; decide +kernel)


/-- A barrier at its last phase. -/
theorem witness_Barriers_last :
    (∃ (rs1 : XReg) (s : State), CanFall s ∧ (s.x rs1).psn = none ∧ BarrierOpen s (s.x rs1).val ∧ (barrierOf s (s.x rs1).val).phase = 2 ^ 32 - 1)
      ∧ ∃ (rs1 rs2 : XReg) (s : State), CanFall s ∧ (s.x rs1).psn = none ∧ (s.x rs2).psn = none ∧ (barrierOf s (s.x rs1).val).pending + (s.x rs2).val.toNat < 2 ^ 40 ∧ BarrierFails s (s.x rs1).val 4 := by
  refine ⟨⟨5#5, stBar (cx [(5, 1#64)]) { bar with phase := 2 ^ 32 - 1 }, ?_, ?_, ?_, ?_⟩, ⟨5#5, 6#5, stBar (cx [(5, 1#64), (6, 1#64)]) { bar with err := true }, ?_, ?_, ?_, ?_, ?_⟩⟩
    <;> first | decide +kernel | (unfold CanFall; decide +kernel) | (unfold BarrierOpen; decide +kernel) | (unfold BarrierFails; decide +kernel)

/-- A region whose former owner had a stream endpoint. -/
theorem witness_ContextsEnd_stream :
    ∃ (s : State) (p q : Part) (o : Nat) (why : StopReason) (l : Word) (x : Endpoint), CanFall s ∧ s.myPart = some p ∧ p.pairs ≠ modePairs s.myCore.vmode ∧ s.myCore.buddy p = some q ∧ p.pending = []
      ∧ q.owner = some o ∧ (s.ctx (slotAt s o)).slot = .stopped why ∧ s.procOf (slotAt s o) = some l ∧ (q.stream true).bound = true ∧ s.ep l (q.stream true).ep.toNat = some x := by
  let qq : Part := { part [] with base := 2, owner := some 3, str1 := { bound := true, ep := 9#10 } }
  refine ⟨{ stJoin (cx []) { cx [] with slot := .stopped .halted } (some 3) with
      cores := [(0, { vmode := 2#2, parts := [part [], qq] })]
      tiles := [(0, { tile0 with place := some { ltag := 7#64, cores := 1, tiles := 1, index := 0, va := 0x20000#64 } })]
      entries := [{ lseq := 4, rec_ := { prio := 1, mode := 0#2, ltag := 7#64, entry := 0x20000#64, ccb := 0#64, layers := 7#3, spriv := true, levels := [(3, 4, 1), (4, 6, 1)], preds := [], segs := [], chans := [] }, bytes := [], imgOff := 0, imgLen := 0, region := 0, st := .running, resident := true, tiles := [0], eps := [(9, { st := .stream 3 true, ptag := 7#64, pep := 2 })] }] },
    part [], qq, 3, .halted, 7#64, _, ?_, ?_, ?_, ?_, ?_, ?_, ?_, ?_, ?_, rfl⟩
    <;> first | decide +kernel | (unfold CanFall; decide +kernel)

/-- A VTYPE without blocks or pairs is legal for a class that its format allows. -/
theorem vlegal_of {v : BitVec 18} {cls : Nat} {data : List VReg} (h2 : vtSew v ≤ 5 ∧ vtFmt v ≤ 8 ∧ vtBlk v ≤ 2 ∧ vtRm v ≤ 4)
    (h3 : (vtFmt v = 2 ∨ vtFmt v = 3 → vtSew v = 4) ∧ (vtFmt v = 4 → vtSew v = 5) ∧ (vtFmt v = 5 ∨ vtFmt v = 6 ∨ vtFmt v = 8 → vtSew v = 3) ∧ (vtFmt v = 7 → vtSew v = 2))
    (h4 : vtBlk v = 0) (h5 : ¬ ((cls = 1 ∧ 1 < vtFmt v) ∨ (cls = 2 ∧ vtFmt v ≠ 2 ∧ vtFmt v ≠ 3 ∧ vtFmt v ≠ 4)))
    (h6 : ¬ (vtSew v = 5 ∧ ∃ r ∈ data, r.toNat % 2 = 1 ∨ (24 ≤ r.toNat ∧ r.toNat ≤ 27))) : VLegal v cls data := by
  intro r h
  unfold VReason at h
  split at h
  · exact h h2
  · exact h h3
  · exact h.1 h4
  · exact h5 h
  · exact h6 h
  · exact h

/-- A malformed VTYPE gives reason 2. -/
theorem vreason_two {v : BitVec 18} {cls : Nat} {data : List VReg} (h : ¬ (vtSew v ≤ 5 ∧ vtFmt v ≤ 8 ∧ vtBlk v ≤ 2 ∧ vtRm v ≤ 4)) : VReason v cls data 2 := h

theorem streamsReady_of {p : Part} {srcs : List VReg} (h : 28#5 ∉ srcs ∧ 29#5 ∉ srcs) : StreamsReady p srcs := by
  intro w hw
  cases w
  · exact absurd hw h.1
  · exact absurd hw h.2

theorem streamsFull_of {p : Part} {srcs : List VReg} (h : 28#5 ∉ srcs ∧ 29#5 ∉ srcs) : StreamsFull p srcs := by
  intro w hw
  cases w
  · exact absurd hw h.1
  · exact absurd hw h.2

/-- VTYPE for 16-bit signed integers, for BF16, and a malformed one. -/
def vtInt : BitVec 18 := 0x00C#18
def vtBf : BitVec 18 := 0x014#18
def vtBad : BitVec 18 := 0x007#18

/-- A context whose partition has a VTYPE. -/
def stType (c : Ctx) (v : BitVec 18) : State := { st c with cores := [(0, { parts := [{ part [] with vtype := v }] })] }

theorem witness_VectorEnqueue :
    (∃ (s : State) (i : Instr) (cls : Nat) (data srcs : List VReg) (op : VOp) (p : Part), vecForm s i = some (cls, data, srcs, op) ∧ s.myPart = some p ∧ VLegal p.vtype cls data
        ∧ StreamsReady p srcs ∧ p.pending.length < 32 ∧ CanFall s ∧ cls = 1)
      ∧ (∃ (s : State) (i : Instr) (cls : Nat) (data srcs : List VReg) (op : VOp) (p : Part), vecForm s i = some (cls, data, srcs, op) ∧ s.myPart = some p ∧ VLegal p.vtype cls data
        ∧ StreamsReady p srcs ∧ p.pending.length < 32 ∧ CanFall s ∧ cls = 2)
      ∧ (∃ (s : State) (k : Cvt) (d a : VReg) (tag : BitVec 5) (p : Part), s.myPart = some p ∧ VLegal p.vtype 0 [d, a] ∧ (∀ r ∈ cvtReasons s.myCore k d a tag p, r.2 = false)
          ∧ StreamsReady p [a] ∧ p.pending.length < 32 ∧ (cvtReads k p.vtype tag = true → s.ctwrWaits p.bank = false) ∧ CanFall s)
      ∧ (∃ (s : State) (i : Instr) (cls : Nat) (data srcs : List VReg) (op : VOp), s.me.intrap = false ∧ s.me.wait ≠ .resume ∧ vecForm s i = some (cls, data, srcs, op) ∧ s.myPart = none)
      ∧ (∃ (s : State) (i : Instr) (cls : Nat) (data srcs : List VReg) (op : VOp) (p : Part), s.me.intrap = false ∧ s.me.wait ≠ .resume ∧ vecForm s i = some (cls, data, srcs, op) ∧ s.myPart = some p
          ∧ VReason p.vtype cls data 2 ∧ ∀ q, q < 2 → ¬ VReason p.vtype cls data q)
      ∧ (∃ (s : State) (i : Instr) (cls : Nat) (data srcs : List VReg) (op : VOp) (p : Part), s.me.intrap = false ∧ s.me.wait ≠ .resume ∧ vecForm s i = some (cls, data, srcs, op) ∧ s.myPart = some p
          ∧ VLegal p.vtype cls data ∧ 28#5 ∈ srcs ∧ ¬ StreamReady p false)
      ∧ ∃ (s : State) (i : Instr) (cls : Nat) (data srcs : List VReg) (op : VOp) (p : Part), s.me.intrap = false ∧ s.me.wait ≠ .resume ∧ vecForm s i = some (cls, data, srcs, op) ∧ s.myPart = some p
          ∧ VLegal p.vtype cls data ∧ 28#5 ∉ srcs ∧ 29#5 ∈ srcs ∧ ¬ StreamReady p true := by
  refine ⟨⟨stType (cx []) vtInt, .vadd 27#5 0#5 5#5 1#1 (some 3#2), _, _, _, _, { part [] with vtype := vtInt }, rfl, ?_, vlegal_of ?_ ?_ ?_ ?_ ?_, streamsReady_of ?_, ?_, ?_, rfl⟩,
    ⟨stType (cx []) vtBf, .vfadd 27#5 0#5 5#5 0#1 none, _, _, _, _, { part [] with vtype := vtBf }, rfl, ?_, vlegal_of ?_ ?_ ?_ ?_ ?_, streamsReady_of ?_, ?_, ?_, rfl⟩,
    ⟨stType (cx []) vtBf, .fcvt, 1#5, 2#5, 3#5, { part [] with vtype := vtBf }, ?_, vlegal_of ?_ ?_ ?_ ?_ ?_, ?_, streamsReady_of ?_, ?_, ?_, ?_⟩,
    ⟨st (cx []), .vid 1#5 none, _, _, _, _, ?_, ?_, rfl, ?_⟩, ⟨stType (cx []) vtBad, .vid 1#5 none, _, _, _, _, { part [] with vtype := vtBad }, ?_, ?_, rfl, ?_, ?_, ?_⟩,
    ⟨stType (cx []) vtInt, .vmv 1#5 28#5 none, _, _, _, _, { part [] with vtype := vtInt }, ?_, ?_, rfl, ?_, vlegal_of ?_ ?_ ?_ ?_ ?_, ?_, ?_⟩,
    ⟨stType (cx []) vtInt, .vmv 1#5 29#5 none, _, _, _, _, { part [] with vtype := vtInt }, ?_, ?_, rfl, ?_, vlegal_of ?_ ?_ ?_ ?_ ?_, ?_, ?_, ?_⟩⟩
    <;> first | decide +kernel | (unfold CanFall; decide +kernel) | (unfold StreamReady; decide +kernel)
              | (intro q hq; interval_cases q <;> simp [VReason]) | exact vreason_two (by decide +kernel)

/-- A core whose array holds 3 in every element of v1, 5 in v2, 1 in the mask m0, in the first segment's lanes 0 and 1. -/
def coreArr (q : List VEntry) (v : BitVec 18) (vl : Nat) : Core :=
  { parts := [{ part q with vtype := v, vl := vl }]
    arr := [(1, [(0, { bits := 3#16 }), (1, { bits := 3#16 })]), (2, [(0, { bits := 5#16 }), (1, { bits := 5#16 })]), (3, [(0, { bits := 0#16 }), (1, { bits := 0#16 })]),
            (24, [(0, { bits := 1#16 }), (1, { bits := 1#16 })])] }

def stArr (c : Ctx) (q : List VEntry) (v : BitVec 18) (vl : Nat) : State := { st c with cores := [(0, coreArr q v vl)] }

theorem witness_VectorToScalar :
    (∃ (s : State) (p : Part), s.myPart = some p ∧ ArrayStill s p ∧ CanFall s ∧ VLegal p.vtype 0 [])
      ∧ (∃ (s : State) (p : Part) (a : VReg), s.myPart = some p ∧ ArrayStill s p ∧ CanFall s ∧ VLegal p.vtype 0 [a] ∧ StreamsFull p [a] ∧ StreamsReady p [a])
      ∧ ∃ (s : State) (p : Part) (i : Instr) (cls : Nat) (rd : XReg) (a : VReg) (mk : VMask) (op : RedOp) (signed : Bool), s.myPart = some p ∧ ArrayStill s p ∧ CanFall s
          ∧ redForm i = some (cls, rd, a, mk, op, signed) ∧ VLegal p.vtype cls [a] ∧ StreamsFull p [a] ∧ StreamsReady p [a] := by
  refine ⟨⟨stArr (cx []) [] vtInt 2, { part [] with vl := 2, vtype := vtInt }, ?_, ?_, ?_, vlegal_of ?_ ?_ ?_ ?_ ?_⟩,
    ⟨stArr (cx []) [] vtInt 2, { part [] with vl := 2, vtype := vtInt }, 1#5, ?_, ?_, ?_, vlegal_of ?_ ?_ ?_ ?_ ?_, streamsFull_of ?_, streamsReady_of ?_⟩,
    ⟨stArr (cx []) [] vtInt 2, { part [] with vl := 2, vtype := vtInt }, .vredSum 7#5 1#5 1#1 none, _, _, _, _, _, _, ?_, ?_, ?_, rfl, vlegal_of ?_ ?_ ?_ ?_ ?_, streamsFull_of ?_, streamsReady_of ?_⟩⟩
    <;> first | decide +kernel | (unfold CanFall; decide +kernel) | (unfold ArrayStill; decide +kernel)

theorem test_vred_sum : nextIs (exec (.vredSum 7#5 1#5 1#1 none) (stArr (cx []) [] vtInt 2)) (fun t => t.x 7#5 == Reg.clean 6#64) = true := by decide +kernel

/-- A context with 65 pages in its core's TLB, from 0x10000 up, each at a frame of its own. -/
def stPages (c : Ctx) (vl : Nat) : State :=
  { st c with cores := [(0, { coreArr [] vtInt vl with tlb := (List.range 65).map fun i => { page := 1 + i, big := false, entry := BitVec.ofNat 64 (0x10000 * (2 + i) + 63) } })] }

/-- The partition of `stArr`. -/
def partArr (vl : Nat) : Part := { part [] with vl := vl, vtype := vtInt }

theorem vlegal_int (data : List VReg) : VLegal vtInt 0 data := vlegal_of (by decide) (by decide) (by decide) (by decide) (by intro h; exact absurd h.1 (by decide))

theorem vtranslates_of {s : State} {v : VMem} {p : Part} (h : (VChecks s v p).2.2.isNone = true) : VTranslates s v p (VChecks s v p).1 (VChecks s v p).2.1 :=
  Prod.ext rfl (Prod.ext rfl (Option.isNone_iff_eq_none.mp h))

theorem vfails_of {s : State} {v : VMem} {p : Part} {f : Nat × VFault} (h : (VChecks s v p).2.2 = some f) :
    VChecks s v p = ((VChecks s v p).1, (VChecks s v p).2.1, some f) := Prod.ext rfl (Prod.ext rfl h)

theorem vfailsFirst_of {s : State} {v : VMem} {p : Part} {f : Nat × VFault} (he : (VChecks s v p).2.1.isEmpty = true) (h : (VChecks s v p).2.2 = some f) :
    VChecks s v p = ((VChecks s v p).1, [], some f) := Prod.ext rfl (Prod.ext (List.isEmpty_iff.mp he) h)

theorem memClear_of {s : State} {v : VMem} {p : Part} (hv : p.vtype = vtInt) (h2 : ((v.reasons p).all fun r => !r.2) = true) (h3 : v.base.psn = none)
    (h4 : ∀ x, v.addr = .strided x → x.psn = none) (h5 : 28#5 ∉ v.srcs ∧ 29#5 ∉ v.srcs) (h6 : (v.mk_.isSome || v.index.isSome) = false) : VMemClear s v p :=
  ⟨hv ▸ vlegal_int _, by simpa using h2, h3, h4, streamsReady_of h5, fun h => by
    rcases h with h | h <;> simp [h] at h6⟩

/-- A unit load of two 16-bit elements at the end of the mapped page; one whose first element has no page; one whose second has none. -/
theorem witness_VectorMemoryEnqueue :
    (∃ (s s1 : State) (i : Instr) (v : VMem) (p : Part) (els : List EAddr) (ops : List VOp), vmemForm s i = some v ∧ s.myPart = some p ∧ VMemClear s v p ∧ VTranslates s v p s1 els
        ∧ ops = v.entries true (piecesAt s1 v els) ∧ p.pending.length + ops.length ≤ 32 ∧ CanFall s ∧ els.length = 2)
      ∧ (∃ (s s1 : State) (i : Instr) (v : VMem) (p : Part) (f : Nat) (x : VFault), vmemForm s i = some v ∧ s.myPart = some p ∧ VMemClear s v p ∧ VChecks s v p = (s1, [], some (f, x))
        ∧ s.me.intrap = false)
      ∧ ∃ (s s1 : State) (i : Instr) (v : VMem) (p : Part) (els : List EAddr) (ops : List VOp) (f : Nat) (x : VFault), vmemForm s i = some v ∧ s.myPart = some p ∧ VMemClear s v p
        ∧ VChecks s v p = (s1, els, some (f, x)) ∧ els ≠ [] ∧ ops = v.entries false (piecesAt s1 v els) ∧ p.pending.length + ops.length ≤ 32 := by
  refine ⟨⟨stArr (cx [(5, 0x1FFFC#64)]) [] vtInt 2, _, .vld 4#5 5#5 none, _, partArr 2, _, _, rfl, ?_, memClear_of rfl ?_ ?_ (fun x hx => nomatch hx) ?_ ?_, vtranslates_of ?_, rfl, ?_, ?_, ?_⟩,
    ⟨stArr (cx [(5, 0x20000#64)]) [] vtInt 2, _, .vst 4#5 5#5 none, _, partArr 2, 0, ⟨.pageFaultStore, 0x20000#64, some (4, 1)⟩, rfl, ?_, memClear_of rfl ?_ ?_ (fun x hx => nomatch hx) ?_ ?_, vfailsFirst_of ?_ ?_, ?_⟩,
    ⟨stArr (cx [(5, 0x1FFFE#64)]) [] vtInt 2, _, .vld 4#5 5#5 none, _, partArr 2, _, _, 1, ⟨.pageFaultLoad, 0x20000#64, some (4, 1)⟩, rfl, ?_, memClear_of rfl ?_ ?_ (fun x hx => nomatch hx) ?_ ?_, vfails_of ?_, ?_, rfl, ?_⟩⟩
    <;> first | decide +kernel | (unfold CanFall; decide +kernel)

/-- A strided load of 65 elements, each on a page of its own, takes two entries. -/
theorem test_vlds_pieces :
    let s := stPages (cx [(5, 0x10000#64), (6, 0x10000#64)]) 65
    ((vmemForm s (.vlds 4#5 5#5 6#5 none)).map fun v => (piecesAt s v (VChecks s v (partArr 65)).2.1).map List.length) = some [64, 1] := by decide +kernel

/-- An entry that adds v1 and v2 into v3 under m0. -/
def addEntry : VEntry := { op := .int .add 3#5 1#5 (.vec 2#5) (some 0#2), vl := 2, vtype := vtInt, vsbase := 0#64, vseed := 0#64, bank := 0#1, stamp := 0, by_ := 0 }

theorem witness_VectorQueueRuns :
    (∃ (s : State) (k base : Nat) (p : Part) (e : VEntry), HeadIs s k base p e ∧ s.clocked k = true ∧ s.entryReady k p e = true)
      ∧ (∃ (s : State) (k base : Nat) (p : Part) (e : VEntry) (op : VInt) (d a : VReg) (b : VSrc) (mk : VMask), HeadIs s k base p e ∧ s.clocked k = true ∧ e.op = .int op d a b mk
          ∧ e.after = [] ∧ e.uses = [] ∧ (s.core k).parity = [] ∧ p.svc.Nodup ∧ vtSew e.vtype ≤ 5 ∧ (vtSew e.vtype = 5 → d.toNat % 2 = 0)
          ∧ e.vl ≤ 128 * p.svc.length * slotsOf (sewBits (vtSew e.vtype)) ∧ entryActive (s.core k) p e mk 1)
      ∧ ∃ (s : State) (p : Part) (d a : VReg) (c : XReg) (x : BitVec 1), s.myPart = some p ∧ p.queue = [] ∧ VLegal p.vtype 0 [d, a] ∧ d.toNat % 2 = 0 ∧ a.toNat % 2 = 0
          ∧ a ≠ 28#5 ∧ d ≠ a ∧ (vtSew p.vtype = 4 ∨ vtSew p.vtype = 5) ∧ p.held ≤ p.vlmax ∧ (x = 1#1 → (s.x c).psn = none) ∧ CanFall s := by
  refine ⟨⟨stArr (cx []) [addEntry] vtInt 2, 0, 0, { part [addEntry] with vl := 2, vtype := vtInt }, addEntry, ⟨?_, rfl⟩, ?_, ?_⟩,
    ⟨stArr (cx []) [addEntry] vtInt 2, 0, 0, { part [addEntry] with vl := 2, vtype := vtInt }, addEntry, .add, 3#5, 1#5, .vec 2#5, some 0#2, ⟨?_, rfl⟩, ?_, rfl, rfl, rfl, ?_, ?_, ?_, ?_, ?_,
      ⟨?_, fun m hm => ?_⟩⟩,
    ⟨stArr (cx []) [] vtInt 2, { part [] with vl := 2, vtype := vtInt }, 2#5, 4#5, 0#5, 1#1, ?_, ?_, vlegal_of ?_ ?_ ?_ ?_ ?_, ?_, ?_, ?_, ?_, ?_, ?_, ?_, ?_⟩⟩
    <;> first | decide +kernel | (unfold CanFall; decide +kernel) | (cases hm; decide +kernel)

theorem test_vadd_entry : nextIs (exec (.vectorQueueEntry 0 0) (stArr (cx []) [addEntry] vtInt 2))
    (fun t => (t.core 0).elem (part []) 3 16 0 == (8, false) && (t.core 0).elem (part []) 3 16 1 == (8, false) && (t.core 0).parts.all fun p => p.queue.isEmpty) = true := by
  decide +kernel

theorem witness_VectorConfiguration :
    (∃ (s : State) (r1 : XReg) (o : Word), s.me.intrap = false ∧ (s.x r1).psn = some o) ∧ (∃ (s : State) (r1 : XReg), s.me.intrap = false ∧ (s.x r1).psn = none ∧ s.myPart = none)
      ∧ (∃ (s : State) (p : Part) (r1 : XReg), s.myPart = some p ∧ CanFall s ∧ (s.x r1).psn = none ∧ vtSew p.vtype ≤ 5 ∧ p.hwmEn = false)
      ∧ (∃ (s : State) (p : Part) (r1 : XReg), s.myPart = some p ∧ CanFall s ∧ (s.x r1).psn = none ∧ vtSew p.vtype ≤ 5 ∧ p.hwmEn = true ∧ ((s.myCore.hreg p.hwmH).seen s.now).psn = none
          ∧ 0 < ((s.myCore.hreg p.hwmH).seen s.now).val.toNat % 2 ^ 48 - (p.vsbase + BitVec.ofNat 64 p.vl).toNat)
      ∧ (∃ (s : State) (p : Part) (r1 : XReg), s.myPart = some p ∧ CanFall s ∧ (s.x r1).psn = none ∧ vtSew p.vtype ≤ 5 ∧ p.hwmEn = true ∧ ((s.myCore.hreg p.hwmH).seen s.now).psn = none
          ∧ ¬ (0 < ((s.myCore.hreg p.hwmH).seen s.now).val.toNat % 2 ^ 48 - (p.vsbase + BitVec.ofNat 64 p.vl).toNat ∨ ((s.myCore.hreg p.hwmH).seen s.now).val.getLsbD 63 = true)) := by
  refine ⟨⟨st poisoned, 5#5, 0x20000#64, ?_, ?_⟩, ⟨st (cx []), 5#5, ?_, ?_, ?_⟩, ⟨stType (cx [(5, -1#64)]) vtInt, { part [] with vtype := vtInt }, 5#5, ?_, ?_, ?_, ?_, ?_⟩,
    ⟨{ st (cx [(5, 9#64)]) with cores := [(0, { parts := [{ part [] with hwmEn := true }], h := Vector.replicate 8 { val := Reg.clean 9#64 } })] }, { part [] with hwmEn := true }, 5#5, ?_, ?_, ?_, ?_, ?_, ?_, ?_⟩,
    ⟨{ st (cx []) with cores := [(0, { parts := [{ part [] with hwmEn := true }] })] }, { part [] with hwmEn := true }, 5#5, ?_, ?_, ?_, ?_, ?_, ?_, ?_⟩⟩
    <;> first | decide +kernel | (unfold CanFall; decide +kernel)

/-- VMODE from mode 0 in slot 0, from mode 2 by the owner of all four way pairs; CTWR with and without a queued reader of its bank. -/
theorem witness_VectorConfiguration_mode :
    (∃ (s : State) (r1 : XReg), CanFall s ∧ (s.x r1).psn = none ∧ Drained s ∧ s.myCore.vmode = 0#2 ∧ s.cur % 16 = 0 ∧ 3 < (s.x r1).val.toNat)
      ∧ (∃ (s : State) (r1 : XReg) (p : Part), CanFall s ∧ (s.x r1).psn = none ∧ Drained s ∧ s.myCore.vmode ≠ 0#2 ∧ s.myPart = some p ∧ p.pairs = 2 ^ s.myCore.vmode.toNat
          ∧ (s.x r1).val.toNat = s.myCore.vmode.toNat ∧ s.myTile.top = false)
      ∧ (∃ (s : State) (r1 : XReg), CanFall s ∧ (s.x r1).psn = none ∧ Drained s ∧ s.myCore.vmode = 0#2 ∧ s.cur % 16 = 0 ∧ (s.x r1).val.toNat = 3 ∧ s.myTile.top = false)
      ∧ (∃ (s : State) (a b : XReg), CanFall s ∧ (s.x a).psn = none ∧ (s.x b).psn = none ∧ s.myCore.bankBusy (BitVec.ofNat 1 ((s.x a).val.toNat / 256)) = false)
      ∧ ∃ (s : State) (a b : XReg), CanFall s ∧ (s.x a).psn = none ∧ (s.x b).psn = none ∧ s.myCore.bankBusy (BitVec.ofNat 1 ((s.x a).val.toNat / 256)) = true := by
  refine ⟨⟨st (cx [(5, 4#64)]), 5#5, ?_, ?_, drained_of ?_, ?_, ?_, ?_⟩, ⟨stFork (cx [(5, 2#64)]) 4, 5#5, { part [] with pairs := 4 }, ?_, ?_, drained_of ?_, ?_, ?_, ?_, ?_, ?_⟩,
    ⟨st (cx [(5, 3#64)]), 5#5, ?_, ?_, drained_of ?_, ?_, ?_, ?_, ?_⟩, ⟨st (cx [(5, 0x1FF#64)]), 5#5, 6#5, ?_, ?_, ?_, ?_⟩,
    ⟨stPart (cx [(5, 0x1FF#64)]) [{ loadEntry with op := .cvt .fcvt 1#5 2#5 8#5 none, bank := 1#1 }], 5#5, 6#5, ?_, ?_, ?_, ?_⟩⟩
    <;> first | decide +kernel | (unfold CanFall; decide +kernel)


/-- An entry of two elements under `vtInt`, or under another VTYPE. -/
def entryT (op : VOp) (v : BitVec 18) : VEntry := { op := op, vl := 2, vtype := v, vsbase := 0#64, vseed := 0#64, bank := 0#1, stamp := 0, by_ := 0 }
def entry2 (op : VOp) : VEntry := entryT op vtInt

theorem stillHead_of {s : State} {k base : Nat} {p : Part} {e : VEntry} (h1 : (s.core k).parts.find? (fun q => q.base == base) = some p) (h2 : p.queue.head? = some e)
    (h3 : s.clocked k = true) (h4 : (decide (e.after = []) && decide (e.uses = []) && decide (p.fly = []) && decide ((s.core k).parity = []) && decide p.svc.Nodup
      && decide (vtSew e.vtype ≤ 5)) = true) : StillHead s k base p e := by
  simp only [Bool.and_eq_true, decide_eq_true_eq] at h4
  exact ⟨⟨h1, h2⟩, h3, h4.1.1.1.1.1, h4.1.1.1.1.2, h4.1.1.1.2, h4.1.1.2, h4.1.2, h4.2⟩

/-- A memory entry that may perform, and one whose first element is in flight. -/
theorem witness_VectorQueueRuns_more :
    (∃ (s : State) (k base : Nat) (p : Part) (e : VEntry) (r : List VEntry), s.partAt k base = some p ∧ s.clocked k = true ∧ p.queue = e :: r ∧ s.entryReady k p e = true ∧ e.op.isMem = false)
      ∧ (∃ (s : State) (k base : Nat) (p : Part) (e : VEntry) (r : List VEntry), s.partAt k base = some p ∧ s.clocked k = true ∧ p.queue = e :: r ∧ s.entryReady k p e = true
        ∧ e.op.isMem = true ∧ p.fly = [])
      ∧ (∃ (s : State) (k base : Nat) (p : Part) (f : VEntry) (r : List VEntry), s.partAt k base = some p ∧ s.clocked k = true ∧ p.fly = f :: r ∧ f.op.accesses ≠ []
        ∧ (∀ g ∈ r, g.stamp ≠ f.stamp) ∧ (f.op.accesses.map fun a => a.e).Nodup ∧ ∀ d m els z, f.op ≠ .storeCond d m els z)
      ∧ (∃ (s : State) (k base : Nat) (p : Part) (e : VEntry) (op : VInt) (d a : VReg) (b : VSrc) (mk : VMask), StillHead s k base p e ∧ e.op = .int op d a b mk
        ∧ (vtSew e.vtype = 5 → d.toNat % 2 = 0) ∧ e.vl ≤ roomAt p (sewBits (vtSew e.vtype)) ∧ entryActive (s.core k) p e mk 1 ∧ ¬ entryActive (s.core k) p e mk 2)
      ∧ ∃ (s : State) (p : Part), s.myPart = some p ∧ ArrayStill s p ∧ p.svc.Nodup ∧ p.vlmax ≤ roomAt p 32 ∧ p.vl ≤ roomAt p 32 := by
  refine ⟨⟨stArr (cx []) [addEntry] vtInt 2, 0, 0, { part [addEntry] with vl := 2, vtype := vtInt }, addEntry, [], ?_, ?_, rfl, ?_, rfl⟩,
    ⟨stPart (cx []) [loadEntry], 0, 0, part [loadEntry], loadEntry, [], ?_, ?_, rfl, ?_, rfl, rfl⟩,
    ⟨{ st (cx []) with cores := [(0, { parts := [{ part [] with fly := [loadEntry] }] })] }, 0, 0, { part [] with fly := [loadEntry] }, loadEntry, [], ?_, ?_, rfl, ?_, ?_, ?_, (fun _ _ _ _ h => nomatch h)⟩,
    ⟨stArr (cx []) [addEntry] vtInt 2, 0, 0, { part [addEntry] with vl := 2, vtype := vtInt }, addEntry, .add, 3#5, 1#5, .vec 2#5, some 0#2, stillHead_of ?_ rfl ?_ ?_, rfl, ?_, ?_, ⟨?_, ?_⟩, fun h => absurd h.1 ?_⟩,
    ⟨stArr (cx []) [] vtInt 2, partArr 2, ?_, ⟨?_, ?_⟩, ?_, ?_, ?_⟩⟩
    <;> first | decide +kernel | (intro m hm; cases hm; decide +kernel)

/-- One queued entry of each shape that `VectorElementOperations` speaks of, with its premises. -/
theorem witness_VectorOperations :
    (∀ op ∈ ([.mv 3#5 1#5 (some 0#2), .bcast 3#5 (Reg.clean 9#64) none, .vid 3#5 none, .shuf 3#5 1#5 2#5 none, .slidedn 3#5 1#5 (Reg.clean 1#64) none, .scan .sum 3#5 1#5 none] : List VOp),
        ∃ (s : State) (p : Part) (d : VReg) (mk : VMask) (f : Nat → Nat × Bool), StillHead s 0 0 p (entry2 op) ∧ 2 ≤ roomAt p 16 ∧ elementForm (s.core 0) p (entry2 op) = some (d, mk, f))
      ∧ (∀ op ∈ ([.icmp .lt 1#2 1#5 (.vec 2#5) none, .mask .andn 1#2 0#2 2#2 (some 0#2), .mask .set 1#2 1#2 1#2 none] : List VOp),
        ∃ (s : State) (p : Part) (d : MReg) (mk : VMask) (f : Nat → Bool × Bool), StillHead s 0 0 p (entry2 op) ∧ bitForm (s.core 0) p (entry2 op) = some (d, mk, f))
      ∧ (∀ op ∈ ([.merge 3#5 1#5 (.vec 2#5) 0#2, .slideup 3#5 1#5 (Reg.clean 1#64) none, .slideup 3#5 1#5 ⟨1#64, some 8#64⟩ none, .mvsx 3#5 (Reg.clean 1#64), .red .max 3#5 1#5 none,
          .compress 3#5 1#5 0#2, .expand 3#5 1#5 0#2] : List VOp), ∃ (s : State) (p : Part), StillHead s 0 0 p (entry2 op) ∧ 2 ≤ roomAt p 16)
      ∧ (∃ (s : State) (p : Part) (e : VEntry) (op : VFp) (d a : VReg) (b : VSrc) (mk : VMask), StillHead s 0 0 p e ∧ e.op = .fp op d a b mk ∧ VLegal e.vtype 2 [] ∧ entryActive (s.core 0) p e mk 0)
      ∧ ∃ (s : State) (p : Part) (e : VEntry) (op : FCond) (m : MReg) (a : VReg) (b : VSrc) (mk : VMask), StillHead s 0 0 p e ∧ e.op = .fcmp op m a b mk ∧ VLegal e.vtype 2 [] := by
  have h (op : VOp) (v : BitVec 18) (hv : vtSew v ≤ 5) : StillHead (stArr (cx []) [entryT op v] v 2) 0 0 { part [entryT op v] with vl := 2, vtype := v } (entryT op v) :=
    stillHead_of rfl rfl rfl (by simp [entryT, part, stArr, coreArr, hv, State.core, AMap.get, AMap.find])
  have hb : VLegal vtBf 2 [] := vlegal_of (by decide) (by decide) (by decide) (by decide) (by intro h; exact absurd h.1 (by decide))
  refine ⟨?_, ?_, ?_, ⟨_, _, _, .mul, 3#5, 1#5, .vec 2#5, none, h (.fp .mul 3#5 1#5 (.vec 2#5) none) vtBf (by decide), rfl, hb, ⟨by decide, fun m hm => nomatch hm⟩⟩,
    ⟨_, _, _, .le, 1#2, 1#5, .vec 2#5, none, h (.fcmp .le 1#2 1#5 (.vec 2#5) none) vtBf (by decide), rfl, hb⟩⟩
  · intro op ho
    simp only [List.mem_cons, List.not_mem_nil, or_false] at ho
    rcases ho with rfl | rfl | rfl | rfl | rfl | rfl <;> exact ⟨_, _, _, _, _, h _ vtInt (by decide), by decide +kernel, rfl⟩
  · intro op ho
    simp only [List.mem_cons, List.not_mem_nil, or_false] at ho
    rcases ho with rfl | rfl | rfl <;> exact ⟨_, _, _, _, _, h _ vtInt (by decide), rfl⟩
  · exact fun op _ => ⟨_, _, h op vtInt (by decide), (by decide : 2 ≤ 128 * 1 * slotsOf 16)⟩

/-- VTYPE for FP8 (E4M3) of 8 bits in blocks of 16 elements with scale codes in v0; and without blocks. -/
def vtBlk8 : BitVec 18 := 0x12B#18
def vtFlat8 : BitVec 18 := 0x02B#18

theorem witness_VectorConversions :
    ∀ x ∈ ([(.fcvt, vtFlat8), (.quant, vtFlat8), (.dequant, vtBlk8), (.quant, vtBlk8)] : List (Cvt × BitVec 18)),
      ∃ (s : State) (p : Part) (e : VEntry) (fs ft : EltFmt), StillHead s 0 0 p e ∧ e.op = .cvt x.1 4#5 6#5 4#5 none ∧ e.vtype = x.2 ∧ (fs, ft) = cvtPair x.1 e 4#5
        ∧ e.vl ≤ roomAt p (ft.width (sewBits (vtSew e.vtype))) ∧ e.vl ≤ roomAt p (sewBits (vtSew e.vtype)) ∧ ft.width (sewBits (vtSew e.vtype)) ≤ 32
        ∧ vtSreg e.vtype ∉ [4, 5] ∧ (e.vl + 15) / 16 ≤ roomAt p 8 := by
  have h (op : VOp) (v : BitVec 18) (hv : vtSew v ≤ 5) : StillHead (stArr (cx []) [entryT op v] v 2) 0 0 { part [entryT op v] with vl := 2, vtype := v } (entryT op v) :=
    stillHead_of rfl rfl rfl (by simp [entryT, part, stArr, coreArr, hv, State.core, AMap.get, AMap.find])
  intro x hx
  simp only [List.mem_cons, List.not_mem_nil, or_false] at hx
  rcases hx with rfl | rfl | rfl | rfl <;>
    exact ⟨_, _, _, _, _, h _ _ (by decide), rfl, rfl, rfl, by decide +kernel, by decide +kernel, by decide +kernel, by decide +kernel, by decide +kernel⟩

/-- Two element accesses of 16 bits, side by side in different lines, and two of 4 bits in one byte. -/
def els16 : List EAddr := [⟨0, 0x1003E#64, 0x2003E, false⟩, ⟨1, 0x10040#64, 0x20040, false⟩]
def els4 : List EAddr := [⟨0, 0x10000#64, 0x20000, false⟩, ⟨1, 0x10000#64, 0x20000, false⟩]
def vtInt4 : BitVec 18 := 0x00A#18

theorem apart_els16 : Apart 16 els16 := by
  unfold Apart els16
  simp only [List.pairwise_cons, List.mem_singleton, forall_eq, List.not_mem_nil, false_imp_iff, implies_true, List.Pairwise.nil, and_true]
  intro x h1 h2
  have a := h1.2
  have b := h2.1
  simp at a b
  omega

theorem witness_VectorMemoryPerforms :
    (∀ op ∈ ([.load 4#5 els16, .loadLinked 4#5 els16, .store 1#5 els16, .storeCond 1#5 0#2 els16 true, .amo .add 1#5 els16] : List VOp),
        ∃ (s : State) (p : Part), StillHead s 0 0 p (entry2 op) ∧ MemOk s ∧ (s.tile 0).latent = [] ∧ InOrder p 16 els16 ∧ Apart 16 els16 ∧ OthersHoldNothing s 0 ∧ p.links = []
          ∧ els16.length ≤ 2048 ∧ VLegal vtInt 1 [])
      ∧ (∃ (s : State) (p : Part), StillHead s 0 0 p (entryT (.store 1#5 els4) vtInt4) ∧ MemOk s ∧ (s.tile 0).latent = [] ∧ InOrder p 4 els4
          ∧ (els4.Pairwise fun a b => a.pa ≠ b.pa ∨ a.e * 4 % 8 ≠ b.e * 4 % 8) ∧ OthersHoldNothing s 0)
      ∧ (∃ (s : State) (p : Part), StillHead s 0 0 p (entry2 (.storeCond 1#5 0#2 els16 true)) ∧ (∃ a ∈ els16, (a.pa / 64, true) ∈ p.links) ∧ ∃ a ∈ els16, (a.pa / 64, true) ∉ p.links)
      ∧ ∃ (s : State) (p : Part), StillHead s 0 0 p (entryT (.amo .fadd 1#5 els16) vtBf) ∧ VLegal vtBf 2 [] := by
  have h (op : VOp) (v : BitVec 18) (hv : vtSew v ≤ 5) : StillHead (stArr (cx []) [entryT op v] v 2) 0 0 { part [entryT op v] with vl := 2, vtype := v } (entryT op v) :=
    stillHead_of rfl rfl rfl (by simp [entryT, part, stArr, coreArr, hv, State.core, AMap.get, AMap.find])
  have hm (op : VOp) (v : BitVec 18) : MemOk (stArr (cx []) [entryT op v] v 2) := memOk_of (show (([(0, tile0)] : AMap Tile).all fun kv => kv.2.mem.wf) = true by decide +kernel) rfl
  have ho (op : VOp) (v : BitVec 18) : OthersHoldNothing (stArr (cx []) [entryT op v] v 2) 0 := by
    intro j _ hj
    simp [stArr, State.core, AMap.get, AMap.find, Ne.symm hj]
  have hb : VLegal vtBf 2 [] := vlegal_of (by decide) (by decide) (by decide) (by decide) (by intro h; exact absurd h.1 (by decide))
  have hi : VLegal vtInt 1 [] := vlegal_of (by decide) (by decide) (by decide) (by decide) (by intro h; exact absurd h.1 (by decide))
  refine ⟨fun op _ => ⟨_, _, h op vtInt (by decide), hm op vtInt, rfl, ⟨by decide, show ∀ a ∈ els16, a.e < 128 * 1 * slotsOf 16 by decide⟩, apart_els16, ho op vtInt, rfl, by decide, hi⟩,
    ⟨_, _, h _ vtInt4 (by decide), hm _ _, rfl, ⟨by decide, show ∀ a ∈ els4, a.e < 128 * 1 * slotsOf 4 by decide⟩, by decide, ho _ _⟩,
    ⟨{ st (cx []) with cores := [(0, { parts := [{ part [entry2 (.storeCond 1#5 0#2 els16 true)] with links := [(0x800, true)] }] })] }, _, stillHead_of rfl rfl rfl rfl,
      ⟨els16[0], by decide, by decide +kernel⟩, ⟨els16[1], by decide, by decide +kernel⟩⟩,
    ⟨_, _, h (.amo .fadd 1#5 els16) vtBf (by decide), hb⟩⟩

/-- A process on tile 0 with endpoints 1 and 2 connected to each other, under launch tag 1, and contexts 0 and 1 of core 0. -/
def stChan (c d : Ctx) (e1 e2 : EpState) (cores : AMap Core := []) (bs : List Byte := []) : State :=
  { ctxs := [(0, c), (1, d)], cores := cores, sec := { up := true }
    tiles := [(0, { tile0 with mem := mapped.setBytes (wbytes 0x20000 bs false), place := some { ltag := 1#64, cores := 1, tiles := 1, index := 0, va := 0x20000#64 } })]
    entries := [{ lseq := 1, rec_ := { prio := 0, mode := 1#2, ltag := 1#64, entry := 0x10000#64, ccb := 0#64, layers := 7#3, spriv := true, levels := [], preds := [], segs := [], chans := [] }
                  bytes := [], imgOff := 0, imgLen := 0, region := 0, st := .running, resident := true, tiles := [0]
                  eps := [(1, { st := e1, ptag := 1#64, pep := 2 }), (2, { st := e2, ptag := 1#64, pep := 1 })] }] }

/-- Endpoint 1 of that process. -/
def ep1 (e : EpState) : Endpoint := { st := e, ptag := 1#64, pep := 2 }

/-- Each state of an endpoint, with what CHBIND, CHUNBIND, CHCLOSE and a transfer meet there. -/
theorem witness_ChannelHolding :
    (∃ (s : State) (r1 : XReg) (l : Word), s.procOf s.cur = some l ∧ CanFall s ∧ (s.x r1).psn = none ∧ s.ep l (epNum (s.x r1).val) = none)
      ∧ (∃ (s : State) (r1 : XReg) (l : Word) (p : Endpoint), s.procOf s.cur = some l ∧ CanFall s ∧ (s.x r1).psn = none ∧ s.ep l (epNum (s.x r1).val) = some p
          ∧ (∃ c, p.st.holder = some c ∧ c ≠ s.cur) ∧ s.me.intrap = false ∧ EpReason s (epNum (s.x r1).val) 2)
      ∧ (∃ (s : State) (r1 : XReg) (l : Word) (p : Endpoint), s.procOf s.cur = some l ∧ CanFall s ∧ (s.x r1).psn = none ∧ s.ep l (epNum (s.x r1).val) = some p
          ∧ p.st = .closed (some s.cur))
      ∧ (∃ (s : State) (r1 : XReg) (l : Word) (p : Endpoint), s.procOf s.cur = some l ∧ CanFall s ∧ (s.x r1).psn = none ∧ s.ep l (epNum (s.x r1).val) = some p
          ∧ p.st = .unbound ∧ (s.x r1).val.getLsbD 16 = true ∧ s.myPart = none ∧ s.me.intrap = false ∧ EpReason s (epNum (s.x r1).val) 1)
      ∧ (∃ (s : State) (r1 : XReg) (l : Word) (p : Endpoint), s.procOf s.cur = some l ∧ CanFall s ∧ (s.x r1).psn = none ∧ s.ep l (epNum (s.x r1).val) = some p
          ∧ p.st = .bound s.cur ∧ (s.x r1).val.getLsbD 16 = false ∧ p.st.holder = some s.cur ∧ (∀ x, (s.cur, x) ∈ s.ctxs → x.chan = none))
      ∧ (∃ (s : State) (r1 : XReg) (l : Word) (p : Endpoint), s.procOf s.cur = some l ∧ CanFall s ∧ (s.x r1).psn = none ∧ s.ep l (epNum (s.x r1).val) = some p
          ∧ p.st = .unbound ∧ (s.x r1).val.getLsbD 16 = false ∧ p.st.holder ≠ some s.cur)
      ∧ (∃ (s : State) (r1 : XReg) (l : Word) (p : Endpoint) (q : Part), s.procOf s.cur = some l ∧ CanFall s ∧ (s.x r1).psn = none ∧ s.ep l (epNum (s.x r1).val) = some p
          ∧ p.st = .unbound ∧ (s.x r1).val.getLsbD 16 = true ∧ s.myPart = some q ∧ (q.stream ((s.x r1).val.getLsbD 17)).bound = false)
      ∧ ∃ (s : State) (e : Nat), s.me.intrap = false ∧ EpReason s e 4 := by
  refine ⟨⟨stChan (cx [(5, 0x3FF#64)]) (cx []) .unbound .unbound, 5#5, 1#64, ?_, ?_, ?_, ?_⟩,
    ⟨stChan (cx [(5, 1#64)]) (cx []) (.bound 1) .unbound, 5#5, 1#64, ep1 (.bound 1), ?_, ?_, ?_, ?_, ⟨1, rfl, by decide⟩, ?_, ⟨ep1 (.bound 1), ?_, Or.inr ⟨1, by decide, rfl⟩⟩⟩,
    ⟨stChan (cx [(5, 1#64)]) (cx []) (.closed (some 0)) .unbound, 5#5, 1#64, ep1 (.closed (some 0)), ?_, ?_, ?_, ?_, rfl⟩,
    ⟨stChan (cx [(5, 0x30001#64)]) (cx []) .unbound .unbound, 5#5, 1#64, ep1 .unbound, ?_, ?_, ?_, ?_, rfl, ?_, ?_, ?_, Or.inr ⟨ep1 .unbound, ?_, rfl, Or.inl rfl⟩⟩,
    ⟨stChan (cx [(5, 1#64)]) (cx []) (.bound 0) .unbound, 5#5, 1#64, ep1 (.bound 0), ?_, ?_, ?_, ?_, rfl, ?_, rfl, ?_⟩,
    ⟨stChan (cx [(5, 1#64)]) (cx []) .unbound .unbound, 5#5, 1#64, ep1 .unbound, ?_, ?_, ?_, ?_, rfl, ?_, ?_⟩,
    ⟨stChan (cx [(5, 0x20001#64 ||| 0x10000#64)]) (cx []) .unbound .unbound [(0, { parts := [part []] })], 5#5, 1#64, ep1 .unbound, part [], ?_, ?_, ?_, ?_, rfl, ?_, ?_, ?_⟩,
    ⟨stChan (cx []) (cx []) (.stream 0 true) .unbound, 1, ?_, ⟨ep1 (.stream 0 true), true, ?_, rfl, rfl⟩⟩⟩
    <;> first | decide +kernel | (unfold CanFall; decide +kernel)
              | (intro x hx; simp [stChan] at hx; subst hx; rfl)

/-- Context 1 waits with one offer on endpoint 2. -/
def waiting (op : ChOp) (o : Offer) : Ctx := { cx [] with wait := .channel, chan := some { op := op, offers := [o], word := 0#32 } }

theorem connected_stChan (c d : Ctx) (k : AMap Core) (bs : List Byte) : Connected (stChan c d (.bound 0) (.bound 1) k bs) 1 (ep1 (.bound 0)) 1 := by
  refine ⟨1#64, _, { st := .bound 1, ptag := 1#64, pep := 1 }, ?_, ?_, rfl, rfl, rfl, rfl, rfl, rfl, rfl, ?_, fun _ h => (nomatch h), ?_, ?_⟩ <;> first | exact clocked_of rfl rfl (by simp [stChan]; decide) | skip
  all_goals first | rfl | exact (by decide : (1 : Nat) ≠ 0) | simp [stChan, State.procOf, State.tile, AMap.get, AMap.find, tileOf]

theorem waits_stChan (c : Ctx) (op : ChOp) (o : Offer) (e1 e2 : EpState) (k : AMap Core) (bs : List Byte) (h : o.guard = 0) : WaitsIn (stChan c (waiting op o) e1 e2 k bs) 1 op o :=
  ⟨0#32, rfl, h⟩

/-- Two partitions of one core, one for each context, with registers v1 of the first and v2 of the second written in every lane that a transfer moves. -/
def twoParts : AMap Core := [(0, { parts := [part [], { part [] with base := 2, owner := some 1, svc := [1] }] })]

theorem clean_rows (s : State) (w : VReg) (h : (List.range 128).all (fun x => (s.myCore.rows w.toNat ((part []).phys x)).psn == 0#16) = true) :
    ∀ x, x < 128 * (part []).svc.length → (s.myCore.rows w.toNat ((part []).phys x)).psn = 0#16 := by
  intro x hx
  have := List.all_eq_true.mp h x (List.mem_range.mpr hx)
  simpa using this

theorem witness_Rendezvous :
    (∃ (s : State) (r1 : XReg) (p : Endpoint) (b : Nat) (r2 bd bt : XReg), MemOk s ∧ CanFall s ∧ (s.x r1).psn = none ∧ Connected s (epNum (s.x r1).val) p b
        ∧ WaitsIn s b (.recv bd bt) { ep := p.pep, send := false, kind := .word, reg := bd } ∧ (s.x r2).psn = none ∧ s.vectorAccessesDone s.cur = true)
      ∧ (∃ (s : State) (r1 : XReg) (p : Endpoint) (b : Nat) (bd : XReg) (o : Offer), MemOk s ∧ CanFall s ∧ (s.x r1).psn = none ∧ Connected s (epNum (s.x r1).val) p b
        ∧ WaitsIn s b (.send bd) o ∧ o.ep = p.pep ∧ o.send = true ∧ o.kind = .word)
      ∧ (∃ (s : State) (r1 : XReg) (p : Endpoint) (b : Nat) (q qb : Part) (w : VReg) (bt : XReg) (o : Offer), MemOk s ∧ CanFall s ∧ (s.x r1).psn = none ∧ Connected s (epNum (s.x r1).val) p b
        ∧ s.myPart = some q ∧ ArrayStill s q ∧ (s.core (b / 16)).partOf (b % 16) = some qb ∧ WaitsIn s b (.recvv bt) o ∧ o.ep = p.pep ∧ o.send = false ∧ o.kind = .vector ∧ qb.svc.Nodup
        ∧ ∀ x, x < 128 * q.svc.length → (s.myCore.rows w.toNat (q.phys x)).psn = 0#16)
      ∧ ∃ (s : State) (r1 : XReg) (p : Endpoint) (b : Nat) (q qb : Part) (bd : XReg) (o : Offer), MemOk s ∧ CanFall s ∧ (s.x r1).psn = none ∧ Connected s (epNum (s.x r1).val) p b
        ∧ s.myPart = some q ∧ ArrayStill s q ∧ (s.core (b / 16)).partOf (b % 16) = some qb ∧ WaitsIn s b (.sendv bd) o ∧ o.ep = p.pep ∧ o.send = true ∧ o.kind = .vector ∧ q.svc.Nodup := by
  refine ⟨⟨stChan (cx [(5, 1#64)]) (waiting (.recv 7#5 8#5) { ep := 2, send := false, kind := .word, reg := 7#5 }) (.bound 0) (.bound 1), 5#5, ep1 (.bound 0), 1, 6#5, 7#5, 8#5,
      ?_, ?_, ?_, connected_stChan _ _ _ _, waits_stChan _ _ _ _ _ _ _ rfl, ?_, ?_⟩,
    ⟨stChan (cx [(5, 1#64)]) (waiting (.send 7#5) { ep := 2, send := true, kind := .word, data := 9#64 }) (.bound 0) (.bound 1), 5#5, ep1 (.bound 0), 1, 7#5, _,
      ?_, ?_, ?_, connected_stChan _ _ _ _, waits_stChan _ _ _ _ _ _ _ rfl, rfl, rfl, rfl⟩,
    ⟨stChan (cx [(5, 1#64)]) (waiting (.recvv 7#5) { ep := 2, send := false, kind := .vector, reg := 2#5 }) (.bound 0) (.bound 1) twoParts, 5#5, ep1 (.bound 0), 1, part [],
      { part [] with base := 2, owner := some 1, svc := [1] }, 1#5, 7#5, _, ?_, ?_, ?_, connected_stChan _ _ _ _, ?_, ?_, ?_, waits_stChan _ _ _ _ _ _ _ rfl, rfl, rfl, rfl, ?_, clean_rows _ _ ?_⟩,
    ⟨stChan (cx [(5, 1#64)]) (waiting (.sendv 7#5) { ep := 2, send := true, kind := .vector, reg := 2#5 }) (.bound 0) (.bound 1) twoParts, 5#5, ep1 (.bound 0), 1, part [],
      { part [] with base := 2, owner := some 1, svc := [1] }, 7#5, _, ?_, ?_, ?_, connected_stChan _ _ _ _, ?_, ?_, ?_, waits_stChan _ _ _ _ _ _ _ rfl, rfl, rfl, rfl, ?_⟩⟩
    <;> first | decide +kernel | exact memOk_of (by decide +kernel) (by decide +kernel) | (unfold CanFall; decide +kernel) | (unfold ArrayStill; decide +kernel)

/-- A word read by SELECT, with the state after it. -/
theorem readsWord_of {s : State} {va : Word} {pa w : Nat} (ht : Translates s va 4 .load (s.translate (s.cur / 16) s.me.priv va .load).1 pa) (hv : s.vectorConflict pa 4 = false)
    (hl : (s.tile (myTileKey s)).latent = []) (hm : ∀ i, i < 4 → (s.coreMem (myCoreKey s)).marked (pa + i) = false) (hw : numberAt (s.coreMem (myCoreKey s)) pa 4 = w) :
    ReadsWord s va w ((s.translate (s.cur / 16) s.me.priv va .load).1.readOwn pa 4).1 :=
  ⟨_, pa, ht, hv, hl, hm, hw, rfl⟩

/-- A list of one guard: predicate p1, endpoint 1, a word into x9. -/
def guardWord : Nat := 2 ^ 20 + 9 * 2 ^ 15 + 1

def stSelect (p1 : Bool) : State :=
  stChan { cx [(5, 0x10000#64)] with p := (Vector.replicate 8 false).set 1 p1 } (waiting (.send 7#5) { ep := 2, send := true, kind := .word, data := 9#64 }) (.bound 0) (.bound 1) [] (leBytes 4 1 ++ leBytes 4 guardWord)

theorem witness_Rendezvous_select :
    (∃ (s s1 s2 : State) (r1 : XReg) (w : Nat), CanFall s ∧ (s.x r1).psn = none ∧ ReadsWord s (s.x r1).val 1 s1 ∧ ReadsWord s1 ((s.x r1).val + 4#64) w s2 ∧ w / 2 ^ 26 = 0
        ∧ w / 2 ^ 10 % 32 = 0 ∧ s.p (BitVec.ofNat 3 (w / 2 ^ 20)) = decide (w / 2 ^ 23 % 2 = 1))
      ∧ ∃ (s s1 s2 : State) (r1 : XReg) (w : Nat) (p : Endpoint) (b : Nat) (bd : XReg) (o : Offer), CanFall s ∧ (s.x r1).psn = none ∧ ReadsWord s (s.x r1).val 1 s1
        ∧ ReadsWord s1 ((s.x r1).val + 4#64) w s2 ∧ w / 2 ^ 26 = 0 ∧ w / 2 ^ 10 % 32 = 0 ∧ s.p (BitVec.ofNat 3 (w / 2 ^ 20)) ≠ decide (w / 2 ^ 23 % 2 = 1) ∧ w / 2 ^ 24 % 4 = 0
        ∧ Connected s (w % 1024) p b ∧ WaitsIn s b (.send bd) o ∧ o.ep = p.pep ∧ o.send = true ∧ o.kind = .word := by
  refine ⟨⟨stSelect false, _, _, 5#5, guardWord, ?_, ?_, readsWord_of (pa := 0x20000) (translates_of ?_ ?_ ?_ ?_) ?_ ?_ ?_ ?_, readsWord_of (pa := 0x20004) (translates_of ?_ ?_ ?_ ?_) ?_ ?_ ?_ ?_, ?_, ?_, ?_⟩,
    ⟨stSelect true, _, _, 5#5, guardWord, ep1 (.bound 0), 1, 7#5, _, ?_, ?_, readsWord_of (pa := 0x20000) (translates_of ?_ ?_ ?_ ?_) ?_ ?_ ?_ ?_,
      readsWord_of (pa := 0x20004) (translates_of ?_ ?_ ?_ ?_) ?_ ?_ ?_ ?_, ?_, ?_, ?_, ?_, connected_stChan _ _ _ _, waits_stChan _ _ _ _ _ _ _ rfl, rfl, rfl, rfl⟩⟩
    <;> first | decide +kernel | (unfold CanFall; decide +kernel) | (unfold Canonical; decide +kernel)

/-- A line read as a plain load, with the state after it. -/
theorem readsLine_of {s : State} {va : Word} {n pa : Nat} (ht : Translates s va 1 .load (s.translate (s.cur / 16) s.me.priv va .load).1 pa)
    (hv : (s.translate (s.cur / 16) s.me.priv va .load).1.vectorConflict pa n = false)
    (hm : ∀ i, i < n → ((((s.translate (s.cur / 16) s.me.priv va .load).1.touchScalar (myCoreKey s) [pa]).coreMem (myCoreKey s)).marked (pa + i) = false)) :
    ReadsLine s va n ((((s.translate (s.cur / 16) s.me.priv va .load).1.touchScalar (myCoreKey s) [pa]).coreMem (myCoreKey s)).bytes pa n)
      ((s.translate (s.cur / 16) s.me.priv va .load).1.touchScalar (myCoreKey s) [pa]) :=
  ⟨_, pa, ht, hv, rfl, hm, rfl⟩

/-- A descriptor of one dimension: its first line and 24 bytes of the next. -/
theorem readsDesc_of {s s1 s2 : State} {a : Word} {b1 b2 : List Byte} (ha : a.toNat % 64 = 0) (h1 : ReadsLine s a 64 b1 s1) (hd : field b1 0 4 = 88) (h2 : ReadsLine s1 (a + 64#64) 24 b2 s2) :
    ReadsDesc s a (b1 ++ b2) s2 := by
  refine ⟨ha, s1, b1, b2, h1, rfl, ?_⟩
  rw [hd, if_pos (by decide)]
  refine (if_neg (by decide)).mpr ⟨s2, b2, [], h2, (if_pos (by decide)).mpr ⟨rfl, rfl⟩, by simp⟩

/-- The bytes of a descriptor of one dimension: source, destination, pattern and its length, size. -/
def descBytes (src dst pat len size : Nat) : List Byte :=
  leBytes 4 88 ++ [1#8, 0#8, 0#8, 0#8] ++ leBytes 8 src ++ leBytes 8 dst ++ leBytes 8 pat ++ leBytes 8 len ++ leBytes 24 0 ++ leBytes 8 size ++ leBytes 16 0

/-- The same, read back from a state with the descriptor at 0x10000. -/
theorem descAt {s : State} (va : Word) (hva : va = 0x10000#64)
    (h : s.cur < 32768 ∧ (s.translate (s.cur / 16) s.me.priv 0x10000#64 .load).2 = .ok 0x20000) (hv : (s.translate (s.cur / 16) s.me.priv 0x10000#64 .load).1.vectorConflict 0x20000 64 = false)
    (hm : ∀ i, i < 64 → ((((s.translate (s.cur / 16) s.me.priv 0x10000#64 .load).1.touchScalar (myCoreKey s) [0x20000]).coreMem (myCoreKey s)).marked (0x20000 + i) = false))
    {s1 : State} (hs1 : s1 = ((s.translate (s.cur / 16) s.me.priv 0x10000#64 .load).1.touchScalar (myCoreKey s) [0x20000]))
    (hd : field ((s1.coreMem (myCoreKey s)).bytes 0x20000 64) 0 4 = 88)
    (h' : s1.cur < 32768 ∧ (s1.translate (s1.cur / 16) s1.me.priv (0x10000#64 + 64#64) .load).2 = .ok 0x20040)
    (hv' : (s1.translate (s1.cur / 16) s1.me.priv (0x10000#64 + 64#64) .load).1.vectorConflict 0x20040 24 = false)
    (hm' : ∀ i, i < 24 → ((((s1.translate (s1.cur / 16) s1.me.priv (0x10000#64 + 64#64) .load).1.touchScalar (myCoreKey s1) [0x20040]).coreMem (myCoreKey s1)).marked (0x20040 + i) = false))
    {bs : List Byte} (hb : (s1.coreMem (myCoreKey s)).bytes 0x20000 64
      ++ ((((s1.translate (s1.cur / 16) s1.me.priv (0x10000#64 + 64#64) .load).1.touchScalar (myCoreKey s1) [0x20040]).coreMem (myCoreKey s1)).bytes 0x20040 24) = bs) :
    ∃ t, ReadsDesc s va bs t ∧ t = ((s1.translate (s1.cur / 16) s1.me.priv (0x10000#64 + 64#64) .load).1.touchScalar (myCoreKey s1) [0x20040]) := by
  subst hva hs1 hb
  exact ⟨_, readsDesc_of (by decide) (readsLine_of (translates_of (Or.inl (by decide)) (Nat.mod_one _) h.1 h.2) hv hm) hd
    (readsLine_of (translates_of (Or.inl (by decide)) (Nat.mod_one _) h'.1 h'.2) hv' hm'), rfl⟩


/-- An endpoint with a sink; one held by its caller, whose far end is another endpoint of this module; a stream that its partition cannot take. -/
theorem witness_ChannelHolding_more :
    (∃ (s : State) (r1 : XReg) (l : Word) (p : Endpoint), s.procOf s.cur = some l ∧ CanFall s ∧ (s.x r1).psn = none ∧ s.ep l (epNum (s.x r1).val) = some p
        ∧ p.sink.isSome = true ∧ s.me.intrap = false ∧ EpReason s (epNum (s.x r1).val) 2)
      ∧ (∃ (s : State) (r1 : XReg) (l : Word) (p f : Endpoint), s.procOf s.cur = some l ∧ CanFall s ∧ (s.x r1).psn = none ∧ s.ep l (epNum (s.x r1).val) = some p
        ∧ p.st.holder = some s.cur ∧ (∀ x, (s.cur, x) ∈ s.ctxs → x.chan = none) ∧ (p.ptag, p.pep) ≠ (l, epNum (s.x r1).val) ∧ s.remote p.ptag = false
        ∧ (∀ h, p.st ≠ .closed h) ∧ s.ep p.ptag p.pep = some f ∧ f.st = .bound 1)
      ∧ ∃ (s : State) (r1 : XReg) (l : Word) (p : Endpoint) (q : Part), s.procOf s.cur = some l ∧ CanFall s ∧ (s.x r1).psn = none ∧ s.ep l (epNum (s.x r1).val) = some p
        ∧ p.sink = none ∧ p.st = .bound s.cur ∧ (s.x r1).val.getLsbD 16 = true ∧ s.myPart = some q ∧ (q.stream ((s.x r1).val.getLsbD 17)).bound = true := by
  refine ⟨⟨{ stChan (cx [(5, 1#64)]) (cx []) .unbound .unbound with
        entries := (stChan (cx []) (cx []) .unbound .unbound).entries.map fun e => { e with eps := [(1, { ep1 .unbound with sink := some (0, 0) })] } },
      5#5, 1#64, { ep1 .unbound with sink := some (0, 0) }, ?_, ?_, ?_, ?_, ?_, ?_, ⟨{ ep1 .unbound with sink := some (0, 0) }, ?_, Or.inl rfl⟩⟩,
    ⟨stChan (cx [(5, 1#64)]) (cx []) (.stream 0 false) (.bound 1), 5#5, 1#64, ep1 (.stream 0 false), { st := .bound 1, ptag := 1#64, pep := 1 }, ?_, ?_, ?_, ?_, ?_, ?_, ?_, ?_, ?_, ?_, rfl⟩,
    ⟨stChan (cx [(5, 0x10001#64)]) (cx []) (.bound 0) .unbound [(0, { parts := [{ part [] with str0 := { bound := true } }] })], 5#5, 1#64, ep1 (.bound 0), { part [] with str0 := { bound := true } },
      ?_, ?_, ?_, ?_, rfl, rfl, ?_, ?_, ?_⟩⟩
    <;> first | decide +kernel | (unfold CanFall; decide +kernel) | (intro x hx; simp [stChan] at hx; subst hx; rfl) | (intro h hh; cases hh)

/-- A process that sends 8 bytes from 0x11000, described at 0x10000, with context 1 ready to receive some number of bytes. -/
def stBlock (n : Nat) : State :=
  stChan (cx [(5, 1#64), (6, 0x10000#64)]) (waiting (.block 7#5 false { size := [n], ss := [0#64], ds := [0#64], dst := 0x12000#64 } 1#2) { ep := 2, send := false, kind := .block }) (.bound 0) (.bound 1) []
    (descBytes 0x11000 0 0 0 8)

theorem reads_stBlock (n : Nat) (hn : n = 8 ∨ n = 9) : ∃ t, ReadsDesc (stBlock n) 0x10000#64 (descBytes 0x11000 0 0 0 8) t ∧ t.descStatus { src := true, dst := false, fill := false, bar := false } (descBytes 0x11000 0 0 0 8) = none := by
  rcases hn with rfl | rfl
  · obtain ⟨t, h, ht⟩ := descAt (s := stBlock 8) 0x10000#64 rfl (by decide +kernel) (by decide +kernel) (by decide +kernel) rfl (by decide +kernel) (by decide +kernel) (by decide +kernel) (by decide +kernel)
      (bs := descBytes 0x11000 0 0 0 8) (by decide +kernel)
    exact ⟨t, h, by rw [ht]; decide +kernel⟩
  · obtain ⟨t, h, ht⟩ := descAt (s := stBlock 9) 0x10000#64 rfl (by decide +kernel) (by decide +kernel) (by decide +kernel) rfl (by decide +kernel) (by decide +kernel) (by decide +kernel) (by decide +kernel)
      (bs := descBytes 0x11000 0 0 0 8) (by decide +kernel)
    exact ⟨t, h, by rw [ht]; decide +kernel⟩

theorem waits_stBlock (n : Nat) : WaitsIn (stBlock n) 1 (.block 7#5 false { size := [n], ss := [0#64], ds := [0#64], dst := 0x12000#64 } 1#2) { ep := 2, send := false, kind := .block } :=
  ⟨0#32, rfl, rfl⟩

theorem witness_Rendezvous_block :
    ∀ n, n = 8 ∨ n = 9 → ∃ (s s1 : State) (r1 r2 : XReg) (p : Endpoint) (b : Nat) (bs : List Byte) (bd : XReg) (d : Desc) (priv : BitVec 2) (o : Offer),
      CanFall s ∧ MemOk s ∧ (s.x r1).psn = none ∧ (s.x r2).psn = none ∧ ReadsDesc s (s.x r2).val bs s1 ∧ Connected s (epNum (s.x r1).val) p b
        ∧ s1.descStatus { src := true, dst := false, fill := false, bar := false } bs = none ∧ PorterRoom s (descOf (myCoreKey s) bs) ∧ s.vectorAccessesDone s.cur = true ∧ s.myCore.pjob + 2 < 2 ^ 64 ∧ (s.core (coreOf b)).pjob + 2 < 2 ^ 64
        ∧ WaitsIn s b (.block bd false d priv) o ∧ o.ep = p.pep ∧ o.send = false ∧ o.kind = .block ∧ ((descOf (myCoreKey s) bs).total = d.total ↔ n = 8) ∧ (descOf (myCoreKey s) bs).start = d.start := by
  intro n hn
  obtain ⟨t, hr, hs⟩ := reads_stBlock n hn
  refine ⟨stBlock n, t, 5#5, 6#5, ep1 (.bound 0), 1, _, 7#5, _, 1#2, _, ?_, ?_, ?_, ?_, hr, connected_stChan _ _ _ _, hs, ?_, ?_, ?_, ?_, waits_stBlock n, rfl, rfl, rfl, ?_, ?_⟩
  all_goals rcases hn with rfl | rfl <;> first | decide +kernel | exact memOk_of (by decide +kernel) (by decide +kernel) | (unfold CanFall; decide +kernel) | (unfold PorterRoom; decide +kernel)

theorem witness_PorterInstructions :
    (∃ (s s1 : State) (r : XReg) (bs : List Byte), CanFall s ∧ (s.x r).psn = none ∧ ReadsDesc s (s.x r).val bs s1
        ∧ s1.descStatus { src := true, dst := true, fill := false, bar := true } bs = none ∧ PorterRoom s (descOf (myCoreKey s) bs))
      ∧ (∃ (s s1 : State) (r : XReg) (bs : List Byte), CanFall s ∧ (s.x r).psn = none ∧ ReadsDesc s (s.x r).val bs s1
        ∧ s1.descStatus { src := false, dst := true, fill := true, bar := true } bs = none ∧ PorterRoom s (descOf (myCoreKey s) bs)
        ∧ s1.descStatus { src := true, dst := true, fill := false, bar := true } bs = some 3) := by
  obtain ⟨t, h, ht⟩ := descAt (s := stMem (cx [(5, 0x10000#64)]) (descBytes 0x11000 0x12000 0 0 8)) 0x10000#64 rfl (by decide +kernel) (by decide +kernel) (by decide +kernel) rfl (by decide +kernel)
    (by decide +kernel) (by decide +kernel) (by decide +kernel) (bs := descBytes 0x11000 0x12000 0 0 8) (by decide +kernel)
  obtain ⟨u, g, hu⟩ := descAt (s := stMem (cx [(5, 0x10000#64)]) (descBytes 0 0x12000 7 1 8)) 0x10000#64 rfl (by decide +kernel) (by decide +kernel) (by decide +kernel) rfl (by decide +kernel)
    (by decide +kernel) (by decide +kernel) (by decide +kernel) (bs := descBytes 0 0x12000 7 1 8) (by decide +kernel)
  refine ⟨⟨_, t, 5#5, _, ?_, ?_, h, by rw [ht]; decide +kernel, ?_⟩, ⟨_, u, 5#5, _, ?_, ?_, g, by rw [hu]; decide +kernel, ?_, by rw [hu]; decide +kernel⟩⟩
    <;> first | decide +kernel | (unfold CanFall; decide +kernel) | (unfold PorterRoom; decide +kernel)

/-- A core with jobs 1 to 300 made, of which 300 is kept, and one under way. -/
def stJobs (c : Ctx) : State :=
  { ctxs := [(0, c)], sec := { up := true }, cores := [(0, { pjob := 300, pended := [{ id := 300, status := 3, detail := 5#64 }] })]
    tiles := [(0, { tile0 with eng := { pq := [{ core := 0, id := 299, ctx := 0, priv := 1#2, kind := .copy, desc := { size := [8], ss := [0#64], ds := [0#64], src := 0x10000#64, dst := 0x10100#64 }, pos := 0, stamp := 0 }] } })] }

theorem witness_PorterInstructions_jobs :
    (∃ (s : State) (r : XReg), CanFall s ∧ (s.x r).psn = none ∧ JobUnknown s (s.x r).val.toNat) ∧ (∃ (s : State) (r : XReg), CanFall s ∧ (s.x r).psn = none ∧ JobExpired s (s.x r).val.toNat)
      ∧ (∃ (s : State) (r : XReg) (e : JobEnd), CanFall s ∧ (s.x r).psn = none ∧ JobKept s (s.x r).val.toNat e)
      ∧ ∃ (s : State) (r : XReg) (q : PJob), CanFall s ∧ (s.x r).psn = none ∧ JobLive s (s.x r).val.toNat ∧ s.pjob (myCoreKey s) (s.x r).val.toNat = some q ∧ s.partnerOf q = none
          ∧ q.desc.irq = false ∧ s.myCore.pjob < (s.x r).val.toNat + 256 := by
  refine ⟨⟨stJobs (cx [(5, 301#64)]), 5#5, ?_, ?_, ?_⟩, ⟨stJobs (cx [(5, 44#64)]), 5#5, ?_, ?_, ?_⟩, ⟨stJobs (cx [(5, 300#64)]), 5#5, { id := 300, status := 3, detail := 5#64 }, ?_, ?_, ?_⟩,
    ⟨stJobs (cx [(5, 299#64)]), 5#5, _, ?_, ?_, ?_, rfl, ?_, ?_, ?_⟩⟩
    <;> first | decide +kernel | (unfold CanFall; decide +kernel) | (unfold JobUnknown; decide +kernel) | (unfold JobExpired; decide +kernel) | (unfold JobKept; decide +kernel) | (unfold JobLive; decide +kernel)

theorem walk_of {src dst : State → Nat → State × (Nat ⊕ PFault)} {n p : Nat} {s : State} (h : (walkPositions src dst n p [] s).2.2.isNone = true) :
    walkPositions src dst n p [] s = ((walkPositions src dst n p [] s).1, (walkPositions src dst n p [] s).2.1, none) :=
  Prod.ext rfl (Prod.ext rfl (Option.isNone_iff_eq_none.mp h))

/-- A copy of 8 bytes from 0x10000 to 0x10100 moves them all in one event. -/
def copyJob : PJob := { core := 0, id := 299, ctx := 0, priv := 1#2, kind := .copy, desc := { size := [8], ss := [0#64], ds := [0#64], src := 0x10000#64, dst := 0x10100#64 }, pos := 0, stamp := 0 }

theorem witness_PorterJobsPerform :
    ∃ (s s1 : State) (k n : Nat) (j : PJob) (ps : List (Nat × Nat)), MemOk s ∧ PorterHead s k j ∧ (s.tile k).latent = [] ∧ n ≠ 0 ∧ j.kind = .copy
      ∧ walkPositions (fun u p => u.porterWalk k j.priv .load (j.desc.srcAddr p)) (fun u p => u.porterWalk k j.priv .store (j.desc.dstAddr p)) (min n (j.desc.total - j.pos)) j.pos [] s = (s1, ps, none)
      ∧ (ps.map fun p => p.2).Nodup ∧ ps.length = 8 := by
  refine ⟨stJobs (cx []), _, 0, 4096, copyJob, _, memOk_of (by decide +kernel) (by decide +kernel), ?_, ?_, ?_, rfl, walk_of ?_, ?_, ?_⟩
    <;> first | decide +kernel | (unfold PorterHead; decide +kernel)

theorem test_porter_copies : nextIs (exec (.porterJob 0 0) { stJobs (cx []) with tiles := [(0, { (stJobs (cx [])).tile 0 with mem := mapped.setBytes (wbytes 0x20000 [1#8, 2#8, 3#8, 4#8, 5#8, 6#8, 7#8, 8#8, 9#8] false) })] })
    (fun t => (t.tile 0).mem.bytes 0x20100 9 == [1#8, 2#8, 3#8, 4#8, 5#8, 6#8, 7#8, 8#8, 0#8] && (t.tile 0).eng.pq.isEmpty) = true := by decide +kernel

/-- A fill of 5 bytes with a pattern of 2, and both halves of a transfer of 4 bytes in one queue. -/
def fillJob : PJob := { core := 0, id := 1, ctx := 0, priv := 1#2, kind := .fill, desc := { size := [5], ss := [0#64], ds := [0#64], dst := 0x10100#64, pattern := 0x0201#64, patlen := 2 }, pos := 0, stamp := 0 }
def sendJob : PJob := { core := 0, id := 1, ctx := 0, priv := 1#2, kind := .send (.here 7), desc := { size := [4], ss := [0#64], ds := [0#64], src := 0x10000#64 }, pos := 0, stamp := 0 }
def recvJob : PJob := { core := 0, id := 2, ctx := 1, priv := 1#2, kind := .recv (.here 7), desc := { size := [4], ss := [0#64], ds := [0#64], dst := 0x10200#64 }, pos := 0, stamp := 1 }

def stQueue (q : List PJob) : State := { ctxs := [(0, cx [])], sec := { up := true }, cores := [(0, { pjob := 2 })], tiles := [(0, { tile0 with eng := { pq := q } })] }

theorem witness_PorterJobsPerform_fill :
    ∃ (s s1 : State) (k : Nat) (j : PJob) (ps : List (Nat × Nat)), MemOk s ∧ PorterHead s k j ∧ (s.tile k).latent = [] ∧ j.kind = .fill
      ∧ walkPositions (fun u _ => (u, .inl 0)) (fun u p => u.porterWalk k j.priv .store (j.desc.dstAddr p)) (j.desc.total - j.pos) j.pos [] s = (s1, ps, none)
      ∧ (ps.map fun p => p.2).Nodup ∧ ps.length = 5 := by
  refine ⟨stQueue [fillJob], _, 0, fillJob, _, memOk_of (by decide +kernel) (by decide +kernel), ?_, ?_, rfl, walk_of ?_, ?_, ?_⟩
    <;> first | decide +kernel | (unfold PorterHead; decide +kernel)

theorem witness_PorterJobsPerform_transfer :
    ∃ (s s1 : State) (k m : Nat) (j b : PJob) (ps : List (Nat × Nat)), MemOk s ∧ PorterHead s k j ∧ (s.tile k).latent = [] ∧ j.kind = .send (.here m) ∧ b.kind = .recv (.here m)
      ∧ s.partnerOf j = some b ∧ s.partnerOf b = some j ∧ tileOfCore b.core = k ∧ b.after = [] ∧ b.desc.bar = none ∧ (b.core, b.id) ≠ (j.core, j.id) ∧ (s.tile k).eng.pq = [j, b]
      ∧ b.pos = j.pos ∧ b.desc.total = j.desc.total
      ∧ walkPositions (fun u p => u.porterWalk k j.priv .load (j.desc.srcAddr p)) (fun u p => u.porterWalk k b.priv .store (b.desc.dstAddr p)) (j.desc.total - j.pos) j.pos [] s = (s1, ps, none)
      ∧ (ps.map fun p => p.2).Nodup ∧ ps.length = 4 := by
  refine ⟨stQueue [sendJob, recvJob], _, 0, 7, sendJob, recvJob, _, memOk_of (by decide +kernel) (by decide +kernel), ?_, ?_, rfl, rfl, ?_, ?_, rfl, rfl, rfl, ?_, rfl, rfl, rfl, walk_of ?_, ?_, ?_⟩
    <;> first | decide +kernel | (unfold PorterHead; decide +kernel)

/-- A process that receives 8 bytes to 0x12000, described at 0x10000, with the sender ready on another core, whose identifiers have run out or not. -/
def stFar (made : Nat) : State :=
  { stChan (cx []) (cx []) (.bound 0) (.bound 16) [(1, { pjob := made })] (descBytes 0 0x12000 0 0 8) with
    ctxs := [(0, cx [(5, 1#64), (6, 0x10000#64)]), (16, waiting (.block 7#5 true { size := [8], ss := [0#64], ds := [0#64], src := 0x11000#64 } 1#2) { ep := 2, send := true, kind := .block })] }

theorem connected_stFar (n : Nat) : Connected (stFar n) 1 (ep1 (.bound 0)) 16 :=
  ⟨1#64, _, { st := .bound 16, ptag := 1#64, pep := 1 }, by simp [stFar, stChan, State.procOf, State.tile, AMap.get, AMap.find, tileOf], rfl, rfl, rfl, rfl, rfl, rfl, rfl, rfl, by simp [stFar, stChan], fun _ h => (nomatch h),
    clocked_of rfl rfl (by simp [stFar, stChan]; decide), clocked_of rfl rfl (by decide)⟩

theorem reads_stFar (n : Nat) (hn : n = 0 ∨ n = 2 ^ 64 - 1) : ∃ t, ReadsDesc (stFar n) 0x10000#64 (descBytes 0 0x12000 0 0 8) t
    ∧ t.descStatus { src := false, dst := true, fill := false, bar := true } (descBytes 0 0x12000 0 0 8) = none := by
  rcases hn with rfl | rfl
  · obtain ⟨t, h, ht⟩ := descAt (s := stFar (0)) 0x10000#64 rfl (by decide +kernel) (by decide +kernel) (by decide +kernel) rfl (by decide +kernel) (by decide +kernel) (by decide +kernel) (by decide +kernel)
      (bs := descBytes 0 0x12000 0 0 8) (by decide +kernel)
    exact ⟨t, h, by rw [ht]; decide +kernel⟩
  · obtain ⟨t, h, ht⟩ := descAt (s := stFar (2 ^ 64 - 1)) 0x10000#64 rfl (by decide +kernel) (by decide +kernel) (by decide +kernel) rfl (by decide +kernel) (by decide +kernel) (by decide +kernel) (by decide +kernel)
      (bs := descBytes 0 0x12000 0 0 8) (by decide +kernel)
    exact ⟨t, h, by rw [ht]; decide +kernel⟩

theorem witness_Rendezvous_block_receive :
    ∀ n, n = 0 ∨ n = 2 ^ 64 - 1 → ∃ (s s1 : State) (r1 r2 : XReg) (p : Endpoint) (b : Nat) (bs : List Byte) (bd : XReg) (d : Desc) (priv : BitVec 2) (o : Offer),
      CanFall s ∧ MemOk s ∧ (s.x r1).psn = none ∧ (s.x r2).psn = none ∧ ReadsDesc s (s.x r2).val bs s1 ∧ Connected s (epNum (s.x r1).val) p b
        ∧ s1.descStatus { src := false, dst := true, fill := false, bar := true } bs = none ∧ PorterRoom s (descOf (myCoreKey s) bs) ∧ s.vectorAccessesDone s.cur = true
        ∧ s.myCore.pjob + 2 < 2 ^ 64 ∧ (s.core (coreOf b)).pjob = n
        ∧ WaitsIn s b (.block bd true d priv) o ∧ o.ep = p.pep ∧ o.send = true ∧ o.kind = .block ∧ (descOf (myCoreKey s) bs).total = d.total ∧ (descOf (myCoreKey s) bs).start = d.start := by
  intro n hn
  obtain ⟨t, hr, hs⟩ := reads_stFar n hn
  refine ⟨stFar n, t, 5#5, 6#5, ep1 (.bound 0), 16, _, 7#5, _, 1#2, _, ?_, ?_, ?_, ?_, hr, connected_stFar n, hs, ?_, ?_, ?_, rfl, ⟨0#32, rfl, rfl⟩, rfl, rfl, rfl, ?_, ?_⟩
  all_goals rcases hn with rfl | rfl <;> first | decide +kernel | exact memOk_of (by decide +kernel) (by decide +kernel) | (unfold CanFall; decide +kernel) | (unfold PorterRoom; decide +kernel)

/-- A header of one value in groups of four, for four k-steps (R307). -/
def header : Word := 0x0000000400010010#64

/-- An attached core with 128 rows: slot 2 holds a dense left operand, slot 3 a sparse one, slot 4 a right one; slot 5 belongs to core 1, slot 15 is free. -/
def slots : AMap OpSlot :=
  [(2, { claim := .claimed 0, contents := .denseA 0#2 }), (3, { claim := .claimed 0, contents := .sparseA header }), (4, { claim := .claimed 0, contents := .denseB 0#2 }), (5, { claim := .claimed 1 })]

def stMat (c : Ctx) (bs : List Byte := []) (m : Attach := .attached) : State :=
  { ctxs := [(0, c)], sec := { up := true }, cores := [(0, { mstate := m, mrows := 128, mjob := 5, parts := [{ part [] with vtype := 0x014#18 }] })]
    tiles := [(0, { tile0 with mem := mapped.setBytes (wbytes 0x20000 bs false), eng := { slots := slots } })] }

/-- Operands at 0x10000, 64 bytes a row. -/
def matArgs : Ctx := cx [(5, 0x10000#64), (6, 64#64)]

/-- The same core with the translation of the mapped page in its TLB. -/
def stTlb (c : Ctx) : State :=
  { ctxs := [(0, c)], sec := { up := true }, tiles := [(0, { tile0 with eng := { slots := slots } })]
    cores := [(0, { mstate := .attached, mrows := 128, mjob := 5, tlb := [{ page := 1, big := false, entry := 0x2003F#64 }] })] }

/-- An address passes its checks through the TLB. -/
def hits (s : State) (kind : AccKind) (a : Word) : Bool :=
  canonical a && (match tlbFind (s.core (coreOf s.cur)).tlb a with
    | some e => (leafFault e.entry kind s.me.priv).isNone
    | none => false)

theorem checkElem_hits {s : State} {kind : AccKind} {a : Word} (h : hits s kind a = true) : ∃ pa, s.checkElem kind 1 a = (s, .inl pa) := by
  unfold hits at h
  unfold State.checkElem State.translate
  split at h
  · rename_i e he
    have hc : canonical a = true := by simpa using (Bool.and_eq_true_iff.mp h).1
    have hl : leafFault e.entry kind s.me.priv = none := by simpa using (Bool.and_eq_true_iff.mp h).2
    exact ⟨leafAddr (if e.big then 3 else 4) e.entry a, by simp [hc, Nat.mod_one, he, hl]⟩
  · simp at h

theorem walkPart_hits {s : State} {kind : AccKind} {as : List Word} (h : (as.all fun a => hits s kind a) = true) :
    ∀ w : Walked, w.fail = none → (s.walkPart kind as w).1 = s ∧ (s.walkPart kind as w).2.fail = none := by
  induction as with
  | nil => intro w hw; exact ⟨rfl, hw⟩
  | cons a as ih =>
    intro w hw
    simp only [List.all_cons, Bool.and_eq_true] at h
    obtain ⟨pa, hp⟩ := checkElem_hits h.1
    have e : s.walkPart kind (a :: as) w = s.walkPart kind as (if w.fr.any fun f => f.page == a.toNat / 65536 then w else { w with fr := { page := a.toNat / 65536, pa := pa / 65536 * 65536, big := s.bigPage (coreOf s.cur) a } :: w.fr }) := by
      simp [State.walkPart, hp]
    rw [e]
    exact ih h.2 _ (by split <;> exact hw)

theorem walkParts_hits {s : State} {kind : AccKind} {as : List Word} (h : (as.all fun a => hits s kind a) = true) : (s.walkParts kind [as] {}).2.fail = none := by
  have := walkPart_hits h {} rfl
  unfold State.walkParts
  simp [this.2, State.walkParts]

theorem dense_hits {s : State} {kind : AccKind} {isA : Bool} {fmt : BitVec 2} {base stride : Word} (hf : fmt ≠ 3#2)
    (h : ((rowPieces base stride (if isA then 128 else kslot fmt) (if isA then 256 else 16 * matWidth fmt)).all fun a => hits s kind a) = true) :
    (s.walkParts kind (denseParts isA fmt base stride) {}).2.fail = none := by
  unfold denseParts
  simp only [hf, if_false]
  exact walkParts_hits h

theorem witness_MatrixInstructions_load :
    (∃ (s s1 : State) (os : Slot) (b r : XReg) (fmt : BitVec 2) (w : Walked), MatrixReady s ∧ CanFall s ∧ Mine s os.toNat ∧ (s.x b).psn = none ∧ (s.x r).psn = none ∧ (s.x b).val.toNat % 64 = 0
        ∧ (s.x r).val.toNat % 64 = 0 ∧ s.walkParts .load (denseParts true fmt (s.x b).val (s.x r).val) {} = (s1, w) ∧ w.fail = none)
      ∧ (∃ (s s1 : State) (os : Slot) (b r : XReg) (fmt : BitVec 2) (w : Walked), MatrixReady s ∧ CanFall s ∧ Mine s os.toNat ∧ (s.x b).psn = none ∧ (s.x r).psn = none ∧ (s.x b).val.toNat % 64 = 0
        ∧ (s.x r).val.toNat % 64 = 0 ∧ s.walkParts .load (denseParts false fmt (s.x b).val (s.x r).val) {} = (s1, w) ∧ w.fail = none)
      ∧ (∃ (s s1 : State) (b r : XReg) (w : Walked), MatrixReady s ∧ CanFall s ∧ (s.x b).psn = none ∧ (s.x r).psn = none ∧ (s.x b).val.toNat % 64 = 0
        ∧ (s.x r).val.toNat % 64 = 0 ∧ s.walkPart .load (rowPieces (s.x b).val (s.x r).val s.myCore.mrows 512) {} = (s1, w) ∧ w.fail = none)
      ∧ (∃ (s s1 : State) (b r : XReg) (w : Walked), MatrixReady s ∧ CanFall s ∧ (s.x b).psn = none ∧ (s.x r).psn = none ∧ (s.x b).val.toNat % 64 = 0
        ∧ (s.x r).val.toNat % 64 = 0 ∧ s.walkPart .store (rowPieces (s.x b).val (s.x r).val s.myCore.mrows 256) {} = (s1, w) ∧ w.fail = none) := by
  refine ⟨⟨stTlb matArgs, _, 2#4, 5#5, 6#5, 0#2, _, ?_, ?_, ?_, ?_, ?_, ?_, ?_, pair_eq _, dense_hits (by decide) ?_⟩,
    ⟨stTlb matArgs, _, 4#4, 5#5, 6#5, 0#2, _, ?_, ?_, ?_, ?_, ?_, ?_, ?_, pair_eq _, dense_hits (by decide) ?_⟩,
    ⟨stTlb matArgs, _, 5#5, 6#5, _, ?_, ?_, ?_, ?_, ?_, ?_, pair_eq _, (walkPart_hits ?_ _ rfl).2⟩,
    ⟨stTlb matArgs, _, 5#5, 6#5, _, ?_, ?_, ?_, ?_, ?_, ?_, pair_eq _, (walkPart_hits ?_ _ rfl).2⟩⟩
    <;> first | decide +kernel | (unfold CanFall; decide +kernel) | (unfold MatrixReady; decide +kernel) | (unfold Mine; decide +kernel)

/-- A sparse image with that header and indices of zero. -/
theorem witness_MatrixInstructions_sparse :
    ∃ (s : State) (os : Slot) (b r : XReg) (fmt : BitVec 2) (h : Word) (idx : List (List Nat)) (fr : Frames), MatrixReady s ∧ CanFall s ∧ Mine s os.toNat
      ∧ (s.x b).psn = none ∧ (s.x r).psn = none ∧ (s.x b).val.toNat % 64 = 0 ∧ (s.x r).val.toNat % 64 = 0 ∧ SparseAccepted s fmt (s.x b).val (s.x r).val h idx fr := by
  refine ⟨stMat matArgs (leBytes 8 header.toNat), 3#4, 5#5, 6#5, 0#2, _, _, _, ?_, ?_, ?_, ?_, ?_, ?_, ?_, ⟨_, _, _, _, _, _, _, _, pair_eq _, Option.isNone_iff_eq_none.mp ?_, ?_, pair_eq _, ?_, ?_, rfl,
    pair_eq _, Option.isNone_iff_eq_none.mp ?_, ?_, pair_eq _, ?_, rfl, ?_, rfl⟩⟩
    <;> first | decide +kernel | (unfold CanFall; decide +kernel) | (unfold MatrixReady; decide +kernel) | (unfold Mine; decide +kernel)


/-- Every operand slot claimed by core 1, and a job of core 0 under way. -/
def stBusy (c : Ctx) (q : List MJob) : State :=
  { ctxs := [(0, c)], sec := { up := true }, cores := [(0, { mstate := .attached, mrows := 128, mjob := 5 })]
    tiles := [(0, { tile0 with eng := { slots := (List.range 16).map fun i => (i, { claim := .claimed 1 }), mq := q } })] }

/-- A job that zeroes an accumulator tile. -/
def zeroJob : MJob := { core := 0, id := 5, ctx := 0, op := .zero 1 128, stamp := 0, lat := 0 }

theorem witness_MatrixInstructions_ready :
    ∃ (s : State) (os : Slot), MatrixReady s ∧ CanFall s ∧ Mine s os.toNat := by
  refine ⟨stMat (cx []), 2#4, ?_⟩
  unfold MatrixReady CanFall Mine; decide +kernel

theorem witness_MatrixInstructions_mop :
    (∃ (s : State) (a b : Slot) (r : XReg) (fmt : BitVec 2), MatrixReady s ∧ CanFall s ∧ (s.x r).psn = none ∧ Mine s a.toNat ∧ (s.x r).val.toNat % 256 ≤ s.myCore.mrows
        ∧ (s.x r).val.toNat / 256 % 256 ≤ 128 ∧ ((myEngines s).slot a.toNat).contents = .denseA fmt ∧ RightHand s b.toNat 1 fmt ∧ (s.x r).val.toNat / 65536 % 4096 ≤ slotSteps fmt)
      ∧ (∃ (s : State) (a b : Slot) (r : XReg) (h : Word), MatrixReady s ∧ CanFall s ∧ (s.x r).psn = none ∧ Mine s a.toNat ∧ (s.x r).val.toNat % 256 ≤ s.myCore.mrows
        ∧ (s.x r).val.toNat / 256 % 256 ≤ 128 ∧ ((myEngines s).slot a.toNat).contents = .sparseA h ∧ (s.x r).val.toNat / 65536 % 4096 = 0
        ∧ RightHand s b.toNat ((hdrKlen h + slotSteps (hdrFmt h) - 1) / slotSteps (hdrFmt h)) (hdrFmt h))
      ∧ ∃ (s : State) (d a : Slot) (r : XReg) (fmt : BitVec 2), MatrixReady s ∧ CanFall s ∧ (s.x r).psn = none ∧ Mine s d.toNat ∧ Mine s a.toNat ∧ d ≠ a
        ∧ ((myEngines s).slot d.toNat).contents ≠ .empty ∧ ((myEngines s).slot a.toNat).contents = .denseA fmt ∧ hdrMsel (pruneHeader (s.x r).val fmt) ≠ 3 ∧ 1 ≤ hdrN (pruneHeader (s.x r).val fmt)
        ∧ hdrN (pruneHeader (s.x r).val fmt) ≤ hdrM (pruneHeader (s.x r).val fmt)
        ∧ (hdrCol (pruneHeader (s.x r).val fmt) = true → hdrTrans (pruneHeader (s.x r).val fmt) = true ∧ fmt = 0#2) := by
  refine ⟨⟨stMat (cx [(5, 0x808080#64)]), 2#4, 4#4, 5#5, 0#2, ?_, ?_, ?_, ?_, ?_, ?_, ?_, ⟨?_, ?_⟩, ?_⟩, ⟨stMat (cx [(5, 0x4004#64)]), 3#4, 4#4, 5#5, header, ?_, ?_, ?_, ?_, ?_, ?_, ?_, ?_, ⟨?_, ?_⟩⟩,
    ⟨stMat (cx [(5, 0x10#64)]), 3#4, 2#4, 5#5, 0#2, ?_, ?_, ?_, ?_, ?_, ?_, ?_, ?_, ?_, ?_, ?_, ?_⟩⟩
    <;> first | decide +kernel | (unfold CanFall; decide +kernel) | (unfold MatrixReady; decide +kernel) | (unfold Mine; decide +kernel)

theorem witness_MatrixInstructions_attach :
    (∃ (s : State) (r : XReg), s.myTile.mat = false ∧ CanFall s ∧ (s.x r).psn = none ∧ 128 < (s.x r).val.toNat ∧ (s.x r).val.toNat % 16 = 0)
      ∧ (∃ (s : State) (r : XReg), s.myTile.mat = false ∧ CanFall s ∧ (s.x r).psn = none ∧ (s.x r).val.toNat % 16 = 0 ∧ 16 ≤ (s.x r).val.toNat ∧ (s.x r).val.toNat ≤ 128 ∧ s.myCore.mstate = .attached)
      ∧ (∃ (s : State) (r : XReg), s.myTile.mat = false ∧ CanFall s ∧ (s.x r).psn = none ∧ (s.x r).val.toNat % 16 = 0 ∧ 16 ≤ (s.x r).val.toNat ∧ (s.x r).val.toNat ≤ 128 ∧ s.myCore.mstate ≠ .attached
        ∧ s.myCore.mjob < 2 ^ 64 - 1 ∧ (myEngines s).mq.length < 64 ∧ ((myEngines s).mq.filter fun j => j.core == myCoreKey s).length < 16)
      ∧ (∃ (s : State) (rd : XReg), s.myTile.mat = false ∧ CanFall s ∧ s.me.wait = .job ∧ s.jobPending s.cur = false ∧ s.me.uword.toNat / 2 ^ 26 = 0x30 ∧ s.me.uword.toNat / 16 % 32 = 0
        ∧ s.me.uword.toNat / 2 ^ 21 % 32 = rd.toNat)
      ∧ ∃ s : State, s.myTile.mat = false ∧ CanFall s ∧ s.me.wait = .job ∧ s.jobPending s.cur = false ∧ ¬ (s.me.uword.toNat / 2 ^ 26 = 0x30 ∧ s.me.uword.toNat / 16 % 32 = 0) := by
  refine ⟨⟨stMat (cx [(5, 144#64)]), 5#5, ?_, ?_, ?_, ?_, ?_⟩, ⟨stMat (cx [(5, 128#64)]), 5#5, ?_, ?_, ?_, ?_, ?_, ?_, ?_⟩, ⟨stMat (cx [(5, 16#64)]) [] .detached, 5#5, ?_, ?_, ?_, ?_, ?_, ?_, ?_, ?_, ?_, ?_⟩,
    ⟨stMat { cx [] with wait := .job, uword := 0xC0E00000#32 }, 7#5, ?_⟩, ⟨stMat { cx [] with wait := .job, uword := 0xC4E00000#32 }, ?_⟩⟩
    <;> first | decide +kernel | (unfold CanFall; decide +kernel)

theorem witness_MatrixInstructions_claim :
    (∃ (s : State) (r : XReg), s.myTile.mat = false ∧ CanFall s ∧ s.myCore.mstate = .attached ∧ (s.x r).psn = none ∧ (s.x r).val.toNat % 32 = 15 ∧ ((myEngines s).slot 15).claim = .free)
      ∧ (∃ (s : State) (r : XReg), s.myTile.mat = false ∧ CanFall s ∧ s.myCore.mstate = .attached ∧ (s.x r).psn = none ∧ (s.x r).val.toNat % 32 = 16 ∧ (∀ i, i < 0 → ((myEngines s).slot i).claim ≠ .free)
        ∧ ((myEngines s).slot 0).claim = .free)
      ∧ (∃ (s : State) (r : XReg), s.myTile.mat = false ∧ CanFall s ∧ s.myCore.mstate = .attached ∧ (s.x r).psn = none ∧ (s.x r).val.toNat % 32 < 16 ∧ Mine s ((s.x r).val.toNat % 32))
      ∧ (∃ (s : State) (r : XReg), s.myTile.mat = false ∧ CanFall s ∧ s.myCore.mstate = .attached ∧ (s.x r).psn = none ∧ (s.x r).val.toNat % 32 < 16 ∧ ¬ Mine s ((s.x r).val.toNat % 32)
        ∧ ((myEngines s).slot ((s.x r).val.toNat % 32)).claim ≠ .free)
      ∧ (∃ (s : State) (r : XReg), s.myTile.mat = false ∧ CanFall s ∧ s.myCore.mstate = .attached ∧ (s.x r).psn = none ∧ (s.x r).val.toNat % 32 = 16 ∧ ∀ i, i < 16 → ((myEngines s).slot i).claim ≠ .free)
      ∧ ∃ (s : State) (r : XReg), s.myTile.mat = false ∧ CanFall s ∧ s.myCore.mstate = .attached ∧ (s.x r).psn = none ∧ 16 < (s.x r).val.toNat % 32 := by
  refine ⟨⟨stMat (cx [(5, 15#64)]), 5#5, ?_, ?_, ?_, ?_, ?_, ?_⟩, ⟨stMat (cx [(5, 16#64)]), 5#5, ?_, ?_, ?_, ?_, ?_, fun i h => absurd h (Nat.not_lt_zero i), ?_⟩, ⟨stMat (cx [(5, 4#64)]), 5#5, ?_, ?_, ?_, ?_, ?_, ?_⟩,
    ⟨stMat (cx [(5, 5#64)]), 5#5, ?_, ?_, ?_, ?_, ?_, ?_, ?_⟩, ⟨stBusy (cx [(5, 16#64)]) [], 5#5, ?_, ?_, ?_, ?_, ?_, ?_⟩, ⟨stMat (cx [(5, 17#64)]), 5#5, ?_, ?_, ?_, ?_, ?_⟩⟩
    <;> first | decide +kernel | (unfold CanFall; decide +kernel) | (unfold Mine; decide +kernel)

theorem witness_MatrixInstructions_read :
    (∃ (s : State) (os : Slot) (h : Word), s.myTile.mat = false ∧ CanFall s ∧ s.myCore.mstate = .attached ∧ Mine s os.toNat ∧ ((myEngines s).slot os.toNat).contents = .sparseA h)
      ∧ (∃ (s : State) (os : Slot) (fmt : BitVec 2), s.myTile.mat = false ∧ CanFall s ∧ s.myCore.mstate = .attached ∧ Mine s os.toNat ∧ ((myEngines s).slot os.toNat).contents = .denseB fmt)
      ∧ (∃ (s : State) (v : VReg) (r : XReg) (p : Part), s.myTile.mat = false ∧ CanFall s ∧ s.myCore.mstate = .attached ∧ (s.x r).psn = none ∧ s.myPart = some p ∧ VLegal p.vtype 0 []
        ∧ ((vtSew p.vtype = 5 ∧ vtFmt p.vtype = 4 ∧ v.toNat % 2 = 0) ∨ (vtSew p.vtype = 4 ∧ (vtFmt p.vtype = 2 ∨ vtFmt p.vtype = 3)))
        ∧ (s.x r).val.toNat / 65536 % 256 ≠ 0 ∧ (s.x r).val.toNat / 256 % 256 + (s.x r).val.toNat / 65536 % 256 ≤ 128
        ∧ (p.vl ≠ 0 → (s.x r).val.toNat % 256 + (p.vl + (s.x r).val.toNat / 65536 % 256 - 1) / ((s.x r).val.toNat / 65536 % 256) ≤ s.myCore.mrows) ∧ p.pending.length < 32)
      ∧ (∃ (s : State) (r : XReg), s.myTile.mat = false ∧ CanFall s ∧ (s.x r).psn = none ∧ s.myCore.mjob < (s.x r).val.toNat)
      ∧ (∃ (s : State) (r : XReg), s.myTile.mat = false ∧ CanFall s ∧ (s.x r).psn = none ∧ (s.x r).val.toNat ≤ s.myCore.mjob
        ∧ ∀ j ∈ (myEngines s).mq, j.core = myCoreKey s → j.id ≠ (s.x r).val.toNat)
      ∧ ∃ (s : State) (r : XReg), s.myTile.mat = false ∧ CanFall s ∧ (s.x r).psn = none ∧ (s.x r).val.toNat ≤ s.myCore.mjob
        ∧ ∃ j ∈ (myEngines s).mq, j.core = myCoreKey s ∧ j.id = (s.x r).val.toNat := by
  refine ⟨⟨stMat (cx []), 3#4, header, ?_, ?_, ?_, ?_, ?_⟩, ⟨stMat (cx []), 4#4, 0#2, ?_, ?_, ?_, ?_, ?_⟩,
    ⟨stMat (cx [(5, 0x08787F#64)]), 7#5, 5#5, { part [] with vtype := 0x014#18 }, ?_, ?_, ?_, ?_, ?_, vlegal_of ?_ ?_ ?_ ?_ ?_, ?_, ?_, ?_, ?_, ?_⟩,
    ⟨stMat (cx [(5, 6#64)]), 5#5, ?_, ?_, ?_, ?_⟩, ⟨stMat (cx [(5, 5#64)]), 5#5, ?_, ?_, ?_, ?_, ?_⟩, ⟨stBusy (cx [(5, 5#64)]) [zeroJob], 5#5, ?_, ?_, ?_, ?_, ⟨zeroJob, ?_, ?_, ?_⟩⟩⟩
    <;> first | decide +kernel | (unfold CanFall; decide +kernel) | (unfold Mine; decide +kernel)

/-- MZERO enqueues a job and falls through. -/
theorem test_mzero : nextIs (exec (.mzero 1#2) (stMat (cx []))) (fun t => t.me.mjoblast == 6#64 && t.me.pc == 0x10004#64 && ((t.tile 0).eng.mq.map fun j => j.op) == [.zero 1 128]) = true := by decide +kernel

/-- A core of 128 rows whose tile has one matrix job. -/
def opJob (op : MOpk) : MJob := { core := 0, id := 5, ctx := 0, op := op, stamp := 0, lat := 2 }
def stHead (op : MOpk) : State := stBusy (cx []) [opJob op]

/-- Every matrix job has a state that it heads. -/
theorem witness_MatrixJobsPerform :
    ∀ op : MOpk, ∃ (s : State) (k : Nat) (j : MJob), MemOk s ∧ MatrixHead s k j ∧ j.op = op ∧ tileOfCore j.core = k ∧ (s.tile k).latent = [] := by
  intro op
  have h : mapped.wf = true := by decide +kernel
  refine ⟨stHead op, 0, opJob op, memOk_of ?_ rfl, ⟨rfl, ?_, rfl, rfl⟩, rfl, (by decide : tileOfCore 0 = 0), rfl⟩
  · simpa [stHead, stBusy, tile0] using h
  · show (stHead .detach).clocked (8 * 0) = true
    decide +kernel

/-- A row that is stored at 0x10000 of a frame, as FP32 or as BF16, overlaps itself nowhere. -/
theorem witness_MatrixJobsPerform_rows :
    ∀ half : Bool, ∃ (fr : Frames) (base stride : Word), RowsApart fr base stride half 1 ∧ rowAddr fr base stride half 0 127 = 0x20000 + (if half then 2 else 4) * 127 := by
  intro half
  have h : ∀ c : Fin 128, rowAddr [{ page := 1, pa := 0x20000 }] 0x10000#64 0#64 half 0 c = 0x20000 + (if half then 2 else 4) * c := by cases half <;> decide +kernel
  refine ⟨[{ page := 1, pa := 0x20000 }], 0x10000#64, 0#64, ?_, h 127⟩
  intro i c b i' c' b' hi hi' hc hc' hb hb' he
  obtain rfl : i = 0 := by omega
  obtain rfl : i' = 0 := by omega
  have e := h ⟨c, hc⟩
  have e' := h ⟨c', hc'⟩
  simp only at e e'
  rw [e, e'] at he
  cases half <;> simp at * <;> omega

/-- A MOP at the head with no room left in its window; one with room; one behind a move; no MOP. -/
theorem witness_MatrixJobsPerform_governor :
    (∃ (s : State) (j : MJob) (n a b rows cols klen : Nat) (z : Bool) (step : Nat), s.clocked (8 * 0) = true ∧ MatrixHead s 0 j ∧ j.op = .mop n a b rows cols klen z step
        ∧ min 256 (min ((s.tile 0).eng.gov.budget.toNat + 1) ((s.tile 0).eng.gov.last + (s.tile 0).eng.gov.ramp.toNat + 1)) - (s.tile 0).eng.gov.this = 0)
      ∧ (∃ s : State, s.clocked (8 * 0) = true
        ∧ min 256 (min ((s.tile 0).eng.gov.budget.toNat + 1) ((s.tile 0).eng.gov.last + (s.tile 0).eng.gov.ramp.toNat + 1)) - (s.tile 0).eng.gov.this ≠ 0)
      ∧ (∃ (s : State) (j : MJob), s.clocked (8 * 0) = true ∧ (s.tile 0).eng.mq.head? = some j ∧ s.movesBefore j.core j.stamp = true)
      ∧ ∃ s : State, s.clocked 0 = true ∧ ∀ j, (s.tile 0).eng.mq.head? = some j → ∀ n a b rows cols klen z step, j.op ≠ .mop n a b rows cols klen z step := by
  refine ⟨⟨{ stHead (.mop 0 2 4 4 4 128 false 0) with tiles := [(0, { (stHead (.mop 0 2 4 4 4 128 false 0)).tile 0 with eng := { mq := [opJob (.mop 0 2 4 4 4 128 false 0)], gov := { this := 256 } } })] },
      opJob (.mop 0 2 4 4 4 128 false 0), _, _, _, _, _, _, _, _, ?_, ⟨rfl, ?_, rfl, rfl⟩, rfl, ?_⟩,
    ⟨stHead (.mop 0 2 4 4 4 128 false 0), ?_, ?_⟩,
    ⟨{ stPart (cx []) [{ loadEntry with op := .mvtm 0#2 1#5 0 none }] with tiles := [(0, { tile0 with eng := { mq := [{ opJob (.mop 0 2 4 4 4 128 false 0) with stamp := 1 }] } })] }, _, ?_, rfl, ?_⟩,
    ⟨st (cx []), ?_, fun j h => by cases h⟩⟩
    <;> decide +kernel

/-- MZERO's job zeroes its tile and leaves the queue. -/
theorem test_matrix_zero_job : nextIs (exec (.accumulatorJob 0) (stHead (.zero 1 128))) (fun t => (t.tile 0).eng.mq.isEmpty && (t.tile 0).eng.accAt 0 1 127 127 == (0#32, false)) = true := by decide +kernel

/-- A parameter block with one read-only page: code table 1, budget 100, entry point 0, K0 = 7. -/
def blockBytes : List Byte := leBytes 4 72 ++ [1#8, 1#8] ++ leBytes 2 0 ++ leBytes 4 100 ++ leBytes 4 0 ++ leBytes 4 7 ++ leBytes 44 0 ++ leBytes 8 0x10000

/-- A kernel of that block, and its job. -/
def kern (mi used : Nat) (stalled : Bool) : Kernel :=
  { block := 0x10000#64, priv := 1#2, code := 1, budget := 100, used := used, mi := mi, pages := [{ va := 0x10000#64, w := false, frame := 0x20000 }], stalled := stalled }
def kernJob (id : Nat) (x : Kernel) : CJob := { core := 0, id := id, ctx := 0, kind := .kernel x, stamp := 0 }

/-- Two code tables of which one holds some moves, a queue, and one job that ended. -/
def stCellar (c : Ctx) (q : List CJob) (words : List Nat := []) : State :=
  { ctxs := [(0, c)], sec := { up := true }
    cores := [(0, { cjob := 300, cended := [{ id := 300, status := 4, detail := 9#64, kernel := true }], parts := [{ part [] with vtype := 0x003#18 }] })]
    tiles := [(0, { tile0 with mem := (mapped.setBytes (wbytes 0x20000 blockBytes false)).setBytes (wbytes 0x7FF00800 (words.flatMap fun w => leBytes 4 w) false)
                               eng := { tabs := [(1, { ew := 2, len := 64 }), (3, { ew := 0, len := 16 })], cq := q } })] }

theorem witness_CellarInstructions_load :
    ∃ (s s1 : State) (r1 r2 : XReg) (w : Walked), s.myTile.cell = false ∧ CanFall s ∧ CellarReady s ∧ (s.x r1).psn = none ∧ (s.x r2).psn = none ∧ (s.x r1).val.toNat / 256 % 4 ≠ 3
      ∧ 1 ≤ (s.x r1).val.toNat / 65536 % 4096 ∧ (s.x r1).val.toNat / 65536 % 4096 ≤ 2048 ∧ (s.x r1).val.toNat / 65536 % 4096 % 2 ^ ((s.x r1).val.toNat / 256 % 4) = 0 ∧ (s.x r2).val.toNat % 64 = 0
      ∧ s.walkPart .load (pieces (s.x r2).val ((s.x r1).val.toNat / 65536 % 4096)) {} = (s1, w) ∧ w.fail = none := by
  refine ⟨stCellar (cx [(5, 0x8000201#64), (6, 0x10000#64)]) [], _, 5#5, 6#5, _, ?_, ?_, ?_, ?_, ?_, ?_, ?_, ?_, ?_, ?_, pair_eq _, Option.isNone_iff_eq_none.mp ?_⟩
    <;> first | decide +kernel | (unfold CanFall; decide +kernel) | (unfold CellarReady; decide +kernel)

/-- The block's two lines, read from 0x10000. -/
theorem readsBlock_of {s s1 s2 : State} {a : Word} {b1 b2 : List Byte} (h1 : ReadsLine s a 64 b1 s1) (hz : blockSized b1 = true) (hn : blockPages b1 = 1) (h2 : ReadsLine s1 (a + 64#64) 8 b2 s2) :
    ReadsBlock s a (b1 ++ b2) s2 := by
  refine ⟨s1, b1, b2, h1, hz, ?_, rfl⟩
  rw [hn]
  exact (if_neg (by decide)).mpr ⟨s2, b2, [], h2, (if_pos (by decide)).mpr ⟨rfl, rfl⟩, by simp⟩

/-- One page, translated for loads. -/
theorem pagesWalked_one {s s1 : State} {w : Word} {pa : Nat} (h : s.translate (myCoreKey s) s.me.priv (w &&& ~~~0xFFFF#64) (if w.getLsbD 0 then AccKind.store else .load) = (s1, .ok pa)) :
    PagesWalked [w] s [{ va := w &&& ~~~0xFFFF#64, w := w.getLsbD 0, frame := pa,
                         big := (match tlbFind (s1.core (myCoreKey s)).tlb (w &&& ~~~0xFFFF#64) with | some e => e.big | none => false) }] s1 :=
  ⟨s1, pa, _, [], h, rfl, rfl, rfl, rfl, rfl, ⟨rfl, rfl⟩, rfl⟩

theorem witness_CellarInstructions_run :
    ∃ (s s1 s2 : State) (r1 r2 : XReg) (bs : List Byte) (ps : List KPage), s.myTile.cell = false ∧ CanFall s ∧ CellarReady s ∧ (s.x r1).psn = none ∧ s.x r2 = Reg.clean 0#64
      ∧ (s.x r1).val.toNat % 64 = 0 ∧ ReadsBlock s (s.x r1).val bs s1 ∧ BlockAccepted s bs ∧ PagesWalked (blockList bs) s1 ps s2 := by
  let s := stCellar (cx [(5, 0x10000#64)]) []
  let s1 := (s.translate (s.cur / 16) s.me.priv 0x10000#64 .load).1.touchScalar (myCoreKey s) [0x20000]
  let b1 := (s1.coreMem (myCoreKey s)).bytes 0x20000 64
  let s2 := (s1.translate (s1.cur / 16) s1.me.priv (0x10000#64 + 64#64) .load).1.touchScalar (myCoreKey s1) [0x20040]
  let b2 := (s2.coreMem (myCoreKey s1)).bytes 0x20040 8
  have hr : ReadsBlock s 0x10000#64 (b1 ++ b2) s2 :=
    readsBlock_of (readsLine_of (translates_of (Or.inl (by decide)) (Nat.mod_one _) (by decide +kernel) (by decide +kernel)) (by decide +kernel) (by decide +kernel)) (by decide +kernel) (by decide +kernel)
      (readsLine_of (translates_of (Or.inl (by decide)) (Nat.mod_one _) (by decide +kernel) (by decide +kernel)) (by decide +kernel) (by decide +kernel))
  have hl : blockList (b1 ++ b2) = [0x10000#64] := by decide +kernel
  have hp := pagesWalked_one (s := s2) (w := 0x10000#64) (pa := 0x20000) (Prod.ext rfl (by decide +kernel))
  refine ⟨s, s2, _, 5#5, 6#5, b1 ++ b2, _, ?_, ?_, ?_, ?_, ?_, ?_, hr, ⟨?_, { ew := 2, len := 64 }, ?_, rfl, ?_⟩, by rw [hl]; exact hp⟩
    <;> first | decide +kernel | (unfold CanFall; decide +kernel) | (unfold CellarReady; decide +kernel)

theorem witness_CellarInstructions_refresh :
    (∃ (s : State) (r1 r2 : XReg), s.myTile.cell = false ∧ CanFall s ∧ (s.x r1).psn = none ∧ (s.x r2).psn = none ∧ (s.x r2).val ≠ 0#64 ∧ s.kernelOf (s.x r2).val.toNat = none)
      ∧ ∃ (s s1 s2 : State) (r1 r2 : XReg) (x : Kernel) (bs : List Byte) (ps : List KPage), s.myTile.cell = false ∧ CanFall s ∧ (s.x r1).psn = none ∧ (s.x r2).psn = none ∧ (s.x r2).val ≠ 0#64
          ∧ s.kernelOf (s.x r2).val.toNat = some x ∧ ReadsBlock s x.block bs s1 ∧ BlockAccepted s bs ∧ blockPages bs = x.pages.length ∧ PagesWalked (blockList bs) s1 ps s2 := by
  let s := stCellar (cx [(6, 299#64)]) [kernJob 299 (kern 3 9 true)]
  let s1 := (s.translate (s.cur / 16) s.me.priv 0x10000#64 .load).1.touchScalar (myCoreKey s) [0x20000]
  let b1 := (s1.coreMem (myCoreKey s)).bytes 0x20000 64
  let s2 := (s1.translate (s1.cur / 16) s1.me.priv (0x10000#64 + 64#64) .load).1.touchScalar (myCoreKey s1) [0x20040]
  let b2 := (s2.coreMem (myCoreKey s1)).bytes 0x20040 8
  have hr : ReadsBlock s 0x10000#64 (b1 ++ b2) s2 :=
    readsBlock_of (readsLine_of (translates_of (Or.inl (by decide)) (Nat.mod_one _) (by decide +kernel) (by decide +kernel)) (by decide +kernel) (by decide +kernel)) (by decide +kernel) (by decide +kernel)
      (readsLine_of (translates_of (Or.inl (by decide)) (Nat.mod_one _) (by decide +kernel) (by decide +kernel)) (by decide +kernel) (by decide +kernel))
  have hl : blockList (b1 ++ b2) = [0x10000#64] := by decide +kernel
  have hp := pagesWalked_one (s := s2) (w := 0x10000#64) (pa := 0x20000) (Prod.ext rfl (by decide +kernel))
  refine ⟨⟨stCellar (cx [(6, 299#64)]) [], 5#5, 6#5, ?_, ?_, ?_, ?_, ?_, ?_⟩,
    ⟨s, s2, _, 5#5, 6#5, kern 3 9 true, b1 ++ b2, _, ?_, ?_, ?_, ?_, ?_, ?_, hr, ⟨?_, { ew := 2, len := 64 }, ?_, rfl, ?_⟩, ?_, by rw [hl]; exact hp⟩⟩
    <;> first | decide +kernel | (unfold CanFall; decide +kernel)

theorem witness_CellarInstructions_query :
    ∃ (s : State) (v i : VReg) (r : XReg) (p : Part) (x : CTable), s.myTile.cell = false ∧ CanFall s ∧ (s.x r).psn = none ∧ s.myPart = some p ∧ VLegal p.vtype 0 [] ∧ p.pending.length < 32
      ∧ (vtSew p.vtype = 3 ∨ vtSew p.vtype = 4 ∨ vtSew p.vtype = 5) ∧ (myEngines s).tabs.find ((s.x r).val.toNat % 64) = some x
      ∧ queryFits p.vtype (decide ((s.x r).val.toNat / 256 % 2 = 1)) x.ew = true ∧ (s.x r).val.toNat / 4096 % 16 < (if (s.x r).val.toNat / 512 % 2 = 1 then 16 else 8)
      ∧ ((s.x r).val.toNat / 4096 % 16 ≠ 0 → decide ((s.x r).val.toNat / 256 % 2 = 1) = true) ∧ (sewBits (vtSew p.vtype) = 32 → badPair v = false)
      ∧ overlap (regsAt v (sewBits (vtSew p.vtype))) (regsAt i (if (s.x r).val.toNat / 512 % 2 = 1 then 16 else 8)
          ++ (if (s.x r).val.toNat / 65536 % 2 = 1 then [24 + (s.x r).val.toNat / 131072 % 4] else [])) = false
      ∧ p.vl ≤ p.lanes * slotsOf (max (if (s.x r).val.toNat / 512 % 2 = 1 then 16 else 8) (sewBits (vtSew p.vtype))) := by
  refine ⟨stCellar (cx [(5, 3#64)]) [], 1#5, 2#5, 5#5, { part [] with vtype := 0x003#18 }, { ew := 0, len := 16 }, ?_, ?_, ?_, ?_, vlegal_of ?_ ?_ ?_ ?_ ?_, ?_, ?_, ?_, ?_, ?_, ?_, ?_, ?_, ?_⟩
    <;> first | decide +kernel | (unfold CanFall; decide +kernel)

theorem witness_CellarInstructions_wait :
    (∃ (s : State) (r : XReg), s.myTile.cell = false ∧ CanFall s ∧ (s.x r).psn = none ∧ (s.x r).val.toNat = 0)
      ∧ (∃ (s : State) (r : XReg), s.myTile.cell = false ∧ CanFall s ∧ (s.x r).psn = none ∧ s.myCore.cjob < (s.x r).val.toNat)
      ∧ (∃ (s : State) (r : XReg), s.myTile.cell = false ∧ CanFall s ∧ (s.x r).psn = none ∧ (s.x r).val.toNat ≠ 0 ∧ (s.x r).val.toNat + 256 ≤ s.myCore.cjob
        ∧ ((myEngines s).cq.any fun q => q.core == myCoreKey s && q.id == (s.x r).val.toNat) = false)
      ∧ (∃ (s : State) (r : XReg) (e : JobEnd), s.myTile.cell = false ∧ CanFall s ∧ (s.x r).psn = none ∧ (s.x r).val.toNat ≠ 0 ∧ (s.x r).val.toNat ≤ s.myCore.cjob
        ∧ ((myEngines s).cq.any fun q => q.core == myCoreKey s && q.id == (s.x r).val.toNat) = false ∧ s.myCore.cjob < (s.x r).val.toNat + 256
        ∧ s.myCore.cended.find? (fun e => e.id == (s.x r).val.toNat) = some e)
      ∧ (∃ (s : State) (r : XReg) (x : Kernel), s.myTile.cell = false ∧ CanFall s ∧ (s.x r).psn = none ∧ (s.x r).val.toNat ≠ 0 ∧ (s.x r).val.toNat ≤ s.myCore.cjob
        ∧ ((myEngines s).cq.any fun q => q.core == myCoreKey s && q.id == (s.x r).val.toNat) = true ∧ s.myCore.cjob < (s.x r).val.toNat + 256 ∧ s.kernelOf (s.x r).val.toNat = some x ∧ x.stalled = true)
      ∧ ∃ (s : State) (r : XReg), s.myTile.cell = false ∧ CanFall s ∧ (s.x r).psn = none ∧ (s.x r).val.toNat ≠ 0 ∧ (s.x r).val.toNat ≤ s.myCore.cjob
        ∧ ((myEngines s).cq.any fun q => q.core == myCoreKey s && q.id == (s.x r).val.toNat) = true ∧ s.myCore.cjob < (s.x r).val.toNat + 256 ∧ ∀ x, s.kernelOf (s.x r).val.toNat = some x → x.stalled = false := by
  refine ⟨⟨stCellar (cx []) [], 5#5, ?_, ?_, ?_, ?_⟩, ⟨stCellar (cx [(5, 301#64)]) [], 5#5, ?_, ?_, ?_, ?_⟩, ⟨stCellar (cx [(5, 44#64)]) [], 5#5, ?_, ?_, ?_, ?_, ?_, ?_⟩,
    ⟨stCellar (cx [(5, 300#64)]) [], 5#5, _, ?_, ?_, ?_, ?_, ?_, ?_, ?_, rfl⟩, ⟨stCellar (cx [(5, 299#64)]) [kernJob 299 (kern 3 9 true)], 5#5, kern 3 9 true, ?_, ?_, ?_, ?_, ?_, ?_, ?_, ?_, rfl⟩,
    ⟨stCellar (cx [(5, 299#64)]) [kernJob 299 (kern 3 9 false)], 5#5, ?_, ?_, ?_, ?_, ?_, ?_, ?_, ?_⟩⟩
    <;> first | decide +kernel | (unfold CanFall; decide +kernel)

/-- A table load, and a kernel at a move from IMM to K1, to ALU.A, ALU.ADD, PC.H, a move from K1 whose guard fails, and its last move. -/
def tableLoad : CJob := { core := 0, id := 299, ctx := 0, kind := .load 2 0 16 0x10000#64 [{ page := 1, pa := 0x20000 }], stamp := 0 }

def moveState (w used : Nat) : State := stCellar (cx []) [kernJob 299 (kern 0 used false)] [w]

theorem kernelWord_of (s : State) (k : Nat) (x : Kernel) (w : BitVec 32) (h : (s.tile k).latent = [] ∧ x.stalled = false ∧ x.mi < ((s.tile k).eng.tabs.get x.code { ew := 2, len := 0 }).len / 4
    ∧ w.toNat = numberAt (s.tile k).mem (0x7FF00000 + 2048 * x.code + 4 * x.mi) 4) : KernelWord s k x w := h

theorem witness_CellarJobsPerform :
    (∃ (s : State) (k : Nat) (j : CJob) (table ew len : Nat) (src : Word) (fr : Frames), MemOk s ∧ CellarHead s k j ∧ (s.tile k).latent = [] ∧ j.kind = .load table ew len src fr ∧ len ≤ 2048)
      ∧ (∃ (s : State) (k : Nat) (j : CJob) (x : Kernel) (w : BitVec 32), MemOk s ∧ CellarHead s k j ∧ (s.tile k).latent = [] ∧ j.kind = .kernel x ∧ KernelWord s k x w ∧ w.toNat / 2 ^ 24 = 1
        ∧ w.toNat / 2 ^ 16 % 256 = 31 ∧ x.used + 1 < x.budget)
      ∧ (∃ (s : State) (k : Nat) (j : CJob) (x : Kernel) (w : BitVec 32), MemOk s ∧ CellarHead s k j ∧ (s.tile k).latent = [] ∧ j.kind = .kernel x ∧ KernelWord s k x w ∧ w.toNat / 2 ^ 24 = 31
        ∧ w.toNat / 2 ^ 16 % 256 = 0x21 ∧ w.toNat % 2 ^ 11 = 0 ∧ (w.getLsbD 15 = true → x.g.getLsbD (w.toNat / 2 ^ 11 % 8) ≠ w.getLsbD 14) ∧ x.used + 1 < x.budget)
      ∧ (∃ (s : State) (k : Nat) (j : CJob) (x : Kernel) (w : BitVec 32), MemOk s ∧ CellarHead s k j ∧ (s.tile k).latent = [] ∧ j.kind = .kernel x ∧ KernelWord s k x w ∧ w.toNat / 2 ^ 24 = 2
        ∧ w.toNat / 2 ^ 16 % 256 = 0x20 ∧ x.used + 1 < x.budget)
      ∧ (∃ (s : State) (k : Nat) (j : CJob) (x : Kernel) (w : BitVec 32), MemOk s ∧ CellarHead s k j ∧ (s.tile k).latent = [] ∧ j.kind = .kernel x ∧ KernelWord s k x w ∧ w.toNat / 2 ^ 24 = 1
        ∧ w.toNat / 2 ^ 16 % 256 = 0x51)
      ∧ (∃ (s : State) (k : Nat) (j : CJob) (x : Kernel) (w : BitVec 32), MemOk s ∧ CellarHead s k j ∧ (s.tile k).latent = [] ∧ j.kind = .kernel x ∧ KernelWord s k x w ∧ w.toNat / 2 ^ 24 ≠ 1
        ∧ w.toNat / 2 ^ 24 ≠ 2 ∧ w.toNat % 2 ^ 11 = 0 ∧ w.getLsbD 15 = true ∧ x.g.getLsbD (w.toNat / 2 ^ 11 % 8) = w.getLsbD 14 ∧ x.used + 1 < x.budget)
      ∧ ∃ (s : State) (k : Nat) (j : CJob) (x : Kernel) (w : BitVec 32), MemOk s ∧ CellarHead s k j ∧ (s.tile k).latent = [] ∧ j.kind = .kernel x ∧ KernelWord s k x w ∧ w.toNat / 2 ^ 24 = 0
        ∧ w.toNat % 2 ^ 16 = 0 ∧ w.toNat / 2 ^ 16 % 256 = 0 ∧ x.budget ≤ x.used + 1 := by
  refine ⟨⟨stCellar (cx []) [tableLoad], 0, tableLoad, 2, 0, 16, _, _, memOk_of ?_ rfl, ?_, rfl, rfl, ?_⟩,
    ⟨moveState 0x011F0009 9, 0, kernJob 299 (kern 0 9 false), kern 0 9 false, 0x011F0009#32, memOk_of ?_ rfl, ?_, rfl, rfl, kernelWord_of _ _ _ _ ?_, ?_, ?_, ?_⟩,
    ⟨moveState 0x1F214000 9, 0, kernJob 299 (kern 0 9 false), kern 0 9 false, 0x1F214000#32, memOk_of ?_ rfl, ?_, rfl, rfl, kernelWord_of _ _ _ _ ?_, ?_, ?_, ?_, ?_, ?_⟩,
    ⟨moveState 0x0220FFFF 9, 0, kernJob 299 (kern 0 9 false), kern 0 9 false, 0x0220FFFF#32, memOk_of ?_ rfl, ?_, rfl, rfl, kernelWord_of _ _ _ _ ?_, ?_, ?_, ?_⟩,
    ⟨moveState 0x01510005 99, 0, kernJob 299 (kern 0 99 false), kern 0 99 false, 0x01510005#32, memOk_of ?_ rfl, ?_, rfl, rfl, kernelWord_of _ _ _ _ ?_, ?_, ?_⟩,
    ⟨moveState 0x1112C000 9, 0, kernJob 299 (kern 0 9 false), kern 0 9 false, 0x1112C000#32, memOk_of ?_ rfl, ?_, rfl, rfl, kernelWord_of _ _ _ _ ?_, ?_, ?_, ?_, ?_, ?_, ?_⟩,
    ⟨moveState 0 99, 0, kernJob 299 (kern 0 99 false), kern 0 99 false, 0#32, memOk_of ?_ rfl, ?_, rfl, rfl, kernelWord_of _ _ _ _ ?_, ?_, ?_, ?_, ?_⟩⟩
    <;> first | decide +kernel | (unfold CellarHead; decide +kernel)

/-- PC.H ends a kernel as DONE with its value. -/
theorem test_kernel_ends : nextIs (exec (.kernelMove 0) (moveState 0x01510005 9)) (fun t => (t.tile 0).eng.cq.isEmpty && (t.core 0).cended.head?.map (fun e => (e.id, e.status, e.detail)) == some (299, 0, 0x500000000#64)) = true := by
  decide +kernel

/-- A context of no process meets whatever is asked of its process. -/
theorem noProc {s : State} {c : Nat} {P : Word → Prop} (h : s.procOf c = none) : ∀ l, s.procOf c = some l → P l := by
  intro l hl
  rw [h] at hl
  cases hl

theorem witness_WaitsEnd :
    (∃ (i : Instr) (s : State), waitEnds s i = some (true, .no)) ∧ (∃ (i : Instr) (s : State) (w : Wait), waitEnds s i = some (false, w))
      ∧ (∃ s : State, Drained s ∧ s.me.wait = .drain)
      ∧ (∃ (s : State) (c : BitVec 8) (va : Word) (f : Nat), Drained s ∧ s.me.wait = .vfault c va f ∧ s.me.intrap = false ∧ c ∈ [3#8, 4#8, 5#8, 7#8, 0x10#8])
      ∧ (∃ (s : State) (why : StopReason), Drained s ∧ s.me.wait = .stopping why ∧ slotOf s.cur ≠ 0 ∧ (∀ l, s.procOf s.cur = some l → ∃ e, s.entry l = some e ∧ e.st = .running ∧ e.kill = false)
          ∧ s.me.chan = none)
      ∧ (∃ s : State, ∃ p q, s.myPart = some p ∧ q ∈ p.pending)
      ∧ (∃ (s : State) (b : BitVec 1), s.me.wait = .ctwr b ∧ CanFall s ∧ s.myCore.bankBusy b = true) ∧ (∃ (s : State) (b : BitVec 1), s.me.wait = .ctwr b ∧ CanFall s ∧ s.myCore.bankBusy b = false)
      ∧ (∃ (s : State) (b : BitVec 1), s.me.wait = .reader b ∧ s.ctwrWaits b = true) ∧ (∃ (s : State) (b : BitVec 1), s.me.wait = .reader b ∧ s.ctwrWaits b = false)
      ∧ (∃ (s : State) (v : Word), s.me.wait = .tlbinv v ∧ CanFall s ∧ s.heldTranslation v = true)
      ∧ ∃ (s : State) (v : Word), s.me.wait = .tlbinv v ∧ CanFall s ∧ s.heldTranslation v = false := by
  let conv : VEntry := { loadEntry with op := .cvt .fcvt 1#5 2#5 3#5 none, bank := 1#1, vtype := 0x043#18 }
  refine ⟨⟨.memoryReply, st { cx [] with wait := .memReply }, rfl⟩, ⟨.divideComplete, st { cx [] with wait := .memReply }, .no, rfl⟩, ⟨st { cx [] with wait := .drain }, drained_of ?_, rfl⟩,
    ⟨st { cx [] with wait := .vfault 3#8 8#64 0 }, 3#8, 8#64, 0, drained_of ?_, rfl, rfl, ?_⟩,
    ⟨{ st (cx []) with cur := 1, ctxs := [(0, cx []), (1, { cx [] with wait := .stopping .exited, slot := .running })] }, .exited, drained_of ?_, rfl, ?_, noProc ?_, rfl⟩,
    ⟨stPart (cx []) [loadEntry], part [loadEntry], loadEntry, ?_, ?_⟩, ⟨stPart { cx [] with wait := .ctwr 1#1 } [conv], 1#1, rfl, ?_, ?_⟩, ⟨stPart { cx [] with wait := .ctwr 1#1 } [], 1#1, rfl, ?_, ?_⟩,
    ⟨{ st { cx [] with wait := .reader 1#1 } with ctxs := [(0, { cx [] with wait := .reader 1#1 }), (1, { cx [] with wait := .ctwr 1#1, slot := .running })] }, 1#1, rfl, ?_⟩,
    ⟨st { cx [] with wait := .reader 1#1 }, 1#1, rfl, ?_⟩, ⟨stPart { cx [] with wait := .tlbinv 0x10000#64 } [loadEntry], 0x10000#64, rfl, ?_, ?_⟩,
    ⟨st { cx [] with wait := .tlbinv 0x10000#64 }, 0x10000#64, rfl, ?_, ?_⟩⟩
    <;> first | decide +kernel | (unfold CanFall; decide +kernel)

/-- A vector instruction that waits for its queue, with room for it and without; a Porter job that waits for its queue and for a place; a Cellar job; a matrix instruction, with room and without. -/
theorem witness_WaitsEnd_queues :
    (∃ (s : State) (ops : List VOp) (uses : List Bool) (unlink : Bool) (p : Part), s.me.wait = .queueFree (.vec ops uses none unlink) ∧ ops ≠ [] ∧ s.myPart = some p ∧ p.pending.length + ops.length ≤ 32)
      ∧ (∃ (s : State) (ops : List VOp) (uses : List Bool) (unlink : Bool) (p : Part), s.me.wait = .queueFree (.vec ops uses none unlink) ∧ ops ≠ [] ∧ s.myPart = some p ∧ 32 ≤ p.pending.length)
      ∧ (∃ (s : State) (d : Desc) (rd : XReg), CanFall s ∧ PorterRoom s d ∧ s.myCore.pjob < 2 ^ 64 - 1 ∧ s.me.wait = .queueFree (.port .copy d rd))
      ∧ (∃ (s : State) (d : Desc) (rd : XReg), CanFall s ∧ PorterRoom s d ∧ s.myCore.pjob < 2 ^ 64 - 1 ∧ s.me.wait = .place (.port .fill d rd) ∧ d.irq = true ∧ s.me.places < 128)
      ∧ (∃ (s : State) (kind : CKind) (rd : XReg), CanFall s ∧ CellarReady s ∧ s.me.wait = .queueFree (.cell kind rd))
      ∧ (∃ s : State, s.me.wait = .queueFree .again ∧ (myEngines s).mq.length < 64 ∧ ((myEngines s).mq.filter fun j => j.core == myCoreKey s).length < 16)
      ∧ (∃ s : State, s.me.wait = .queueFree .again ∧ 64 ≤ (myEngines s).mq.length) ∧ (∃ s : State, ∀ p, s.me.wait ≠ .queueFree p) ∧ ∃ s : State, 128 ≤ s.me.places := by
  refine ⟨⟨stPart { cx [] with wait := .queueFree (.vec [loadEntry.op] [] none) } (List.replicate 31 loadEntry), _, _, false, part (List.replicate 31 loadEntry), rfl, ?_, ?_, ?_⟩,
    ⟨stPart { cx [] with wait := .queueFree (.vec [loadEntry.op] [] none) } (List.replicate 32 loadEntry), _, _, false, part (List.replicate 32 loadEntry), rfl, ?_, ?_, ?_⟩,
    ⟨st { cx [] with wait := .queueFree (.port .copy copyJob.desc 7#5) }, copyJob.desc, 7#5, ?_, ?_, ?_, rfl⟩,
    ⟨st { cx [] with wait := .place (.port .fill { fillJob.desc with irq := true } 7#5), places := 127 }, { fillJob.desc with irq := true }, 7#5, ?_, ?_, ?_, rfl, rfl, ?_⟩,
    ⟨stCellar { cx [] with wait := .queueFree (.cell tableLoad.kind 7#5) } [], tableLoad.kind, 7#5, ?_, ?_, rfl⟩,
    ⟨stBusy { cx [] with wait := .queueFree .again } (List.replicate 15 zeroJob), rfl, ?_, ?_⟩, ⟨stBusy { cx [] with wait := .queueFree .again } (List.replicate 64 zeroJob), rfl, ?_⟩,
    ⟨st (cx []), ?_⟩, ⟨st { cx [] with places := 128 }, ?_⟩⟩
    <;> first | decide +kernel | (unfold CanFall; decide +kernel) | (unfold PorterRoom; decide +kernel) | (unfold CellarReady; decide +kernel) | (intro p hp; cases hp)

/-- Each wait of `waitEnds` that is over, and a TLBINV with a translation held and with none. -/
theorem witness_WaitsEnd_each :
    (∀ i ∈ ([.memoryReply, .divideComplete, .fenceWaitEnd, .vectorOrderWaitEnd, .hwmRecheck, .streamIndexWaitEnd, .scatterDrainEnd] : List Instr), ∃ (s : State) (w : Wait), waitEnds s i = some (true, w))
      ∧ (∃ (v : Word) (s : State), s.heldTranslation v = true) ∧ ∃ (v : Word) (s : State) (e : TlbEntry), s.heldTranslation v = false ∧ e ∈ (s.core (myCoreKey s)).tlb ∧ Dropped v e := by
  refine ⟨?_, ⟨0x10000#64, stPart (cx []) [loadEntry], ?_⟩, ⟨0x10000#64, stTlb (cx []), { page := 1, big := false, entry := 0x2003F#64 }, ?_, ?_, ?_⟩⟩
  · intro i hi
    simp only [List.mem_cons, List.not_mem_nil, or_false] at hi
    rcases hi with rfl | rfl | rfl | rfl | rfl | rfl | rfl
    · exact ⟨st { cx [] with wait := .memReply }, .no, by decide +kernel⟩
    · exact ⟨st { cx [] with wait := .divide }, .no, by decide +kernel⟩
    · exact ⟨st { cx [] with wait := .fence }, .resume, by decide +kernel⟩
    · exact ⟨st { cx [] with wait := .vectorOrder }, .resume, by decide +kernel⟩
    · exact ⟨st { cx [] with wait := .hwm }, .no, by decide +kernel⟩
    · exact ⟨{ st { cx [] with wait := .streamIndex true } with cores := [(0, { parts := [{ part [] with str1 := { closed := true } }] })] }, .resume, by decide +kernel⟩
    · exact ⟨st { cx [] with wait := .scatter }, .resume, by decide +kernel⟩
  · decide +kernel
  · decide +kernel
  · decide +kernel
  · unfold Dropped; decide +kernel

/-- A tile 3 whose power block stands in some state. -/
def stPower (p : PowerState) : State := { sec := { up := true }, power := [(3, { st := p })] }

theorem witness_PowerStates :
    (∀ i ∈ [Instr.run 3, .quiesce 3, .gate 3, .wake 3], ∃ (s : State) (p : Power), powerTile i < 256 ∧ powerRequest s (powerTile i) i = some p)
      ∧ (∃ s : State, (s.pwr 255).st = .quiescing) ∧ (∃ s : State, (s.pwr 3).st = .gating) ∧ (∃ s : State, (s.pwr 3).st = .waking)
      ∧ ∃ s : State, (s.pwr 3).st ≠ .quiescing ∧ (s.pwr 3).st ≠ .gating ∧ (s.pwr 3).st ≠ .waking := by
  refine ⟨fun i hi => ?_, ⟨{ power := [(255, { st := .quiescing })] }, rfl⟩, ⟨stPower .gating, rfl⟩, ⟨stPower .waking, rfl⟩, ⟨stPower .on, by decide +kernel⟩⟩
  fin_cases hi
  · exact ⟨stPower .quiet, _, by decide, rfl⟩
  · exact ⟨stPower .on, _, by decide, rfl⟩
  · exact ⟨stPower .quiet, _, by decide, rfl⟩
  · exact ⟨stPower .gated, _, by decide, rfl⟩

/-- The requests clause by clause, and the transitions: from each state, under HALT, and with work in each engine's queue. -/
theorem witness_PowerRequests :
    (∃ s : State, (s.pwr 255).st = .quiet) ∧ (∃ s : State, (s.pwr 0).st = .on ∧ s.tileBusy 0 = false) ∧ (∃ s : State, (s.pwr 3).st = .on ∧ s.tileBusy 3 = true) ∧ ∃ s : State, (s.pwr 3).st = .gated := by
  refine ⟨⟨{ power := [(255, { st := .quiet })] }, ?_⟩, ⟨{}, ?_⟩, ⟨{ tiles := [(3, { place := some { ltag := 7#64, cores := 1, tiles := 1, index := 0, va := 0x10000#64 } })] }, ?_⟩, ⟨stPower .gated, ?_⟩⟩ <;> decide +kernel

theorem witness_PowerTransitionsComplete :
    (∃ s : State, (s.pwr 3).st = .quiescing ∧ s.stackState (stackOf 3) ≠ 3 ∧ (s.tile 3).eng.mq = [] ∧ (s.tile 3).eng.pq = [] ∧ (s.tile 3).eng.cq = [])
      ∧ (∃ s : State, (s.pwr 3).st = .gating ∧ s.stackState (stackOf 3) ≠ 3) ∧ (∃ s : State, (s.pwr 3).st = .waking ∧ s.stackState (stackOf 3) ≠ 3)
      ∧ (∃ s : State, (s.pwr 3).st = .quiescing ∧ s.stackState (stackOf 3) = 3)
      ∧ ∃ s : State, (s.pwr 3).st = .quiescing ∧ (s.tile 3).eng.cq ≠ [] := by
  refine ⟨⟨stPower .quiescing, ?_⟩, ⟨stPower .gating, ?_⟩, ⟨stPower .waking, ?_⟩, ⟨{ stPower .quiescing with dies := [(1, { st := .halt })] }, ?_⟩,
    ⟨{ stPower .quiescing with tiles := [(3, { eng := { cq := [{ core := 24, id := 1, ctx := 384, kind := .load 0 1 64 0x10000#64 [], stamp := 1, after := [] }] } })] }, ?_⟩⟩ <;> decide +kernel

/-- A die that a sample leaves in its state, and one that it moves; a stack out of droop and one in it. -/
theorem witness_SensorsAndDroop :
    (∃ (s : State) (n : Nat) (temp : BitVec 10), n ≤ 8 ∧ dieAfter (s.die n).st.num temp.toNat = (s.die n).st.num)
      ∧ (∃ (s : State) (n : Nat) (temp : BitVec 10), n ≤ 8 ∧ dieAfter (s.die n).st.num temp.toNat ≠ (s.die n).st.num)
      ∧ (∃ (s : State) (n : Nat), n < 8 ∧ (s.hbmStack n).regime.toNat < 3) ∧ (∃ (s : State) (n : Nat), n ≤ 4 ∧ n ∉ s.droop) ∧ ∃ (s : State) (n : Nat), n ≤ 4 ∧ n ∈ s.droop := by
  refine ⟨⟨st (cx []), 8, 399#10, ?_⟩, ⟨st (cx []), 8, 400#10, ?_⟩, ⟨st (cx []), 7, ?_⟩, ⟨st (cx []), 4, ?_⟩, ⟨{ st (cx []) with droop := [4] }, 4, ?_⟩⟩ <;> decide +kernel

/-- A rise to WARN with a context that runs on the stack, and a rise to HALT. -/
theorem witness_StackRises :
    ∃ s : State, (s.ctx 0).slot = .running ∧ OnStack 0 0
      ∧ nextIs (exec (.thermalSample 0 400#10) s) (fun t => decide (s.stackState 0 < t.stackState 0) && t.stackState 0 != 3) = true
      ∧ nextIs (exec (.thermalSample 1 472#10) s) (fun t => t.stackState 0 == 3) = true := by
  refine ⟨st (cx []), ?_, ?_, ?_, ?_⟩ <;> first | decide +kernel | (unfold OnStack; decide)

/-- A launch of one core on one tile, in a queue, with its entry. -/
def rec0 (prio : Nat) (ccb : Word) : Launch :=
  { prio := prio, mode := 0#2, ltag := 7#64, entry := 0x20000#64, ccb := ccb, layers := 7#3, spriv := true, levels := [(3, 4, 1), (4, 6, 1)], preds := [], segs := [], chans := [] }
def entry0 (prio : Nat) (ccb : Word) (st : EState) : Entry := { lseq := 4, rec_ := rec0 prio ccb, bytes := leBytes 80 0, imgOff := 0, imgLen := 0, region := 0, st := st }

/-- A machine of a domain of one module whose Innkeeper runs. -/
def stKeep (es : List Entry) : State := { st (cx []) with entries := es, nextLseq := 9 }

theorem named_of {s : State} {n : Nat} {e : Entry} (h : s.entries = [e]) (h1 : e.lseq = n) (h2 : n ≠ 0) (h3 : s.entry e.rec_.ltag = some e) : Named s n e := by
  refine ⟨?_, h1, h2, ?_, h3⟩
  · simp [h]
  · intro d hd _
    simpa [h] using hd

/-- Entries of queue 7: one that is resident, one parked, and one that waits. -/
def resident7 : Entry := { entry0 7 0x30000#64 .running with resident := true, tiles := [5] }
def parked7 (hot : Bool) : Entry := { entry0 7 0x30000#64 .running with tiles := [5], saved := some {}, hot := hot }

/-- Each clause of the ballast loop: none runs, one runs, above the floor, at it, and below it with a hot die, with a parked process whose tile is free or is not, and with a launch to dispatch or none. -/
theorem witness_PowerUpdateRunsBallastLoop :
    (∃ s : State, s.keeperUp = false)
      ∧ (∃ (w : BitVec 16) (s : State), s.keeperUp = true ∧ { s with pkgPower := w }.ballastRuns = true)
      ∧ (∃ (w : BitVec 16) (s : State), s.keeperUp = true ∧ { s with pkgPower := w }.ballastRuns = false ∧ s.ballast.recent = true)
      ∧ (∃ (w : BitVec 16) (s : State) (e : Entry), s.keeperUp = true ∧ { s with pkgPower := w }.ballastRuns = false ∧ s.ballast.recent = false ∧ s.floor.toNat < w.toNat ∧ e ∈ s.entries ∧ Resident7 e)
      ∧ (∃ (w : BitVec 16) (s : State), s.keeperUp = true ∧ { s with pkgPower := w }.ballastRuns = false ∧ s.ballast.recent = false ∧ s.floor.toNat < w.toNat ∧ ∀ e ∈ s.entries, ¬ Resident7 e)
      ∧ ∃ (w : BitVec 16) (s : State), s.keeperUp = true ∧ { s with pkgPower := w }.ballastRuns = false ∧ s.ballast.recent = false ∧ w = s.floor := by
  refine ⟨⟨{}, ?_⟩, ⟨9#16, { stKeep [entry0 7 0#64 .dispatching] with ballast := { act := some (.dispatch 4) } }, ?_⟩, ⟨9#16, { stKeep [] with ballast := { recent := true } }, ?_⟩,
    ⟨9#16, { stKeep [resident7] with floor := 8#16 }, resident7, ?_⟩, ⟨1#16, stKeep [], ?_⟩, ⟨8#16, { stKeep [] with floor := 8#16 }, ?_⟩⟩
    <;> first | decide +kernel | (unfold Resident7; decide +kernel)

theorem witness_BallastBelowFloor :
    let low := fun s : State => s.keeperUp = true ∧ { s with pkgPower := 7#16 }.ballastRuns = false ∧ s.ballast.recent = false ∧ 7 < s.floor.toNat
    (∃ s : State, low s ∧ 2 ≤ (s.die 8).st.num)
      ∧ (∃ (s : State) (e : Entry), low s ∧ (∀ d, d < 9 → (s.die d).st.num < 2) ∧ RestoresNext s e ∧ e.hot = true ∧ ∀ k ∈ e.tiles, s.tileFree k = true)
      ∧ (∃ (s : State) (e : Entry), low s ∧ (∀ d, d < 9 → (s.die d).st.num < 2) ∧ RestoresNext s e ∧ e.hot = false ∧ ∃ k ∈ e.tiles, s.tileFree k = false)
      ∧ (∃ (s : State) (e : Entry), low s ∧ (∀ d, d < 9 → (s.die d).st.num < 2) ∧ (∀ e ∈ s.entries, ¬ Parked7 e) ∧ { s with pkgPower := 7#16 }.nextBallast = some e)
      ∧ ∃ s : State, low s ∧ (∀ d, d < 9 → (s.die d).st.num < 2) ∧ (∀ e ∈ s.entries, ¬ Parked7 e) ∧ { s with pkgPower := 7#16 }.nextBallast = none := by
  refine ⟨⟨{ stKeep [] with floor := 8#16, dies := [(8, { st := .slow })] }, ?_, ?_⟩,
    ⟨{ stKeep [parked7 true] with floor := 8#16 }, parked7 true, ?_, ?_, ?_, ?_, ?_⟩,
    ⟨{ stKeep [parked7 false] with floor := 8#16, power := [(5, { st := .quiet })] }, parked7 false, ?_, ?_, ?_, ?_, ?_⟩,
    ⟨{ stKeep [entry0 7 0#64 .queued] with floor := 8#16 }, entry0 7 0#64 .queued, ?_, ?_, ?_, ?_⟩,
    ⟨{ stKeep [] with floor := 8#16 }, ?_, ?_, ?_, ?_⟩⟩
    <;> first | decide +kernel | (unfold RestoresNext Parked7; decide +kernel) | (unfold Parked7; decide +kernel)

theorem witness_DispatchAndPlacement :
    (∃ (n : Nat) (ts : List Nat) (s : State) (e : Entry), s.keeperUp = true ∧ Named s n e ∧ e.multi = none ∧ e.st = .queued ∧ s.predsMet e.rec_ = true ∧ s.myTurn e = true ∧ s.ballastLets e = true
        ∧ s.tilesOk e.rec_ ts = true ∧ ((s.updEntry e.rec_.ltag fun d => { d with tiles := ts, st := .dispatching }).placeEntry { e with tiles := ts } 0).isSome = true)
      ∧ (∃ (n : Nat) (s : State) (e : Entry), Named s n e ∧ e.multi = none ∧ e.st = .dispatching ∧ s.sec.locked = false ∧ e.kill = false ∧ e.early = none ∧ e.tiles.Nodup)
      ∧ ∃ (n : Nat) (s : State) (e : Entry), Named s n e ∧ e.multi = none ∧ e.st = .dispatching ∧ s.sec.locked = true := by
  refine ⟨⟨4, [5], stKeep [entry0 1 0#64 .queued], entry0 1 0#64 .queued, ?_, named_of rfl rfl ?_ ?_, rfl, rfl, ?_, ?_, ?_, ?_, ?_⟩,
    ⟨4, stKeep [{ entry0 1 0#64 .dispatching with tiles := [5] }], { entry0 1 0#64 .dispatching with tiles := [5] }, named_of rfl rfl ?_ ?_, rfl, rfl, rfl, rfl, rfl, ?_⟩,
    ⟨4, { stKeep [entry0 1 0#64 .dispatching] with sec := { up := true, locked := true } }, entry0 1 0#64 .dispatching, named_of rfl rfl ?_ ?_, rfl, rfl, rfl⟩⟩ <;> decide +kernel

/-- A launch on tile 5 whose endpoints are joined under SELF, with launch 8, with a launch that no entry has, and with one of module 1. -/
def chans0 : List Channel :=
  [⟨0, 0, false, true, none, 0#64⟩, ⟨2, 3, false, false, none, 8#64⟩, ⟨4, 1, false, false, none, 9#64⟩, ⟨6, 1, false, false, none, 1#64 <<< 55⟩]
def entryChans : Entry := { entry0 1 0#64 .dispatching with tiles := [5], rec_ := { rec0 1 0#64 with chans := chans0 } }
def entryFar : Entry := { entry0 1 0#64 .queued with lseq := 5, rec_ := { rec0 1 0#64 with ltag := 8#64, chans := [⟨3, 2, false, false, none, 7#64⟩] } }
def stChans : State := { stKeep [entryChans, entryFar] with sec := { up := true, domain := 2 } }

theorem witness_DispatchAndPlacement_endpoints :
    ∃ (s : State) (e : Entry), Named s 4 e ∧ e.multi = none ∧ e.st = .dispatching ∧ s.sec.locked = false ∧ e.kill = false ∧ e.early = none ∧ e.tiles.Nodup
      ∧ s.remote e.rec_.ltag = false ∧ (e.rec_.chans.map Channel.ep).Nodup ∧ (∃ c ∈ e.rec_.chans, c.self = true)
      ∧ (∃ c ∈ e.rec_.chans, c.self = false ∧ c.ptag ≠ e.rec_.ltag ∧ s.remote c.ptag = false ∧ FarThere s c.ptag c.pep c.ep e.rec_.ltag)
      ∧ (∃ c ∈ e.rec_.chans, c.self = false ∧ c.ptag ≠ e.rec_.ltag ∧ s.remote c.ptag = false ∧ ¬ FarThere s c.ptag c.pep c.ep e.rec_.ltag)
      ∧ ∃ c ∈ e.rec_.chans, c.self = false ∧ s.remote c.ptag = true := by
  refine ⟨stChans, entryChans, ⟨by simp [stChans, stKeep, st], rfl, by decide, ?_, by decide⟩, rfl, rfl, rfl, rfl, rfl, by decide, by decide, by decide,
    ⟨⟨0, 0, false, true, none, 0#64⟩, by simp [entryChans, chans0], rfl⟩,
    ⟨⟨2, 3, false, false, none, 8#64⟩, by simp [entryChans, chans0], rfl, by decide, by decide, entryFar, by decide, by decide, by decide, ?_⟩,
    ⟨⟨4, 1, false, false, none, 9#64⟩, by simp [entryChans, chans0], rfl, by decide, by decide, ?_⟩,
    ⟨⟨6, 1, false, false, none, 1#64 <<< 55⟩, by simp [entryChans, chans0], rfl, by decide⟩⟩
  · intro d hd h
    simp only [stChans, stKeep, st, List.mem_cons, List.not_mem_nil, or_false] at hd
    rcases hd with rfl | rfl
    · rfl
    · exact absurd h (by decide)
  · intro q h hq
    simp [entryFar, entry0, AMap.find] at hq
  · rintro ⟨d, hd, -⟩
    exact absurd ((show stChans.listed 9#64 = none by decide).symm.trans hd) (by simp)

theorem test_endpoints_joined : nextIs (exec (.placementComplete 4) stChans)
    (fun t => [0, 2, 4, 6].map (fun e => (t.ep 7#64 e).map fun p => (decide (p.st = .unbound), p.joining)) == [some (true, false), some (true, false), some (false, false), some (true, true)]) = true := by
  decide +kernel

/-- A parked process, and one whose core 40 has a vector queue with work. -/
def saved0 : Saved := { tiles := [(5, {}, 7#3, { ltag := 7#64, cores := 1, tiles := 1, index := 0, va := 0x10000#64 }, 16#19)] }
def running1 : Entry := { entry0 1 0x10000#64 .running with resident := true, tiles := [5] }
def stSwitch : State :=
  { stKeep [running1] with cores := [(40, { parts := [part [loadEntry]] })] }

/-- A switch whose process has a CCB at 0x20000 of tile 5 and a save area of two pages: its CCB is version 1 with SAVESIZE 0x17000 at 0x20000. -/
def ccbBytes : List Byte := [1#8, 0#8, 0#8, 0#8] ++ leBytes 4 0 ++ leBytes 8 0x20000 ++ leBytes 8 0x17000 ++ List.replicate 40 0#8
def switching1 : Entry := { running1 with switching := true }
def stSwitching : State :=
  { stKeep [switching1] with
    tiles := [(5, { tile0 with
      mem := ((mapped.setBytes (wbytes 0x13010 (leBytes 8 (0x30000 + 63)) false)).setBytes (wbytes 0x13018 (leBytes 8 (0x40000 + 63)) false)).setBytes (wbytes 0x20000 ccbBytes false)
      place := some { ltag := 7#64, cores := 1, tiles := 1, index := 0, va := 0x10000#64 } })]
    ctxs := [(640, cx [(3, 9#64)])] }

theorem witness_SwitchAndRestore :
    (∃ (n : Nat) (s : State) (e : Entry), s.keeperUp = true ∧ Named s n e ∧ e.multi = none ∧ e.switching = false ∧ s.maySwitch e = true
        ∧ ∃ k c p q, k ∈ e.tiles ∧ c ∈ tileCores k ∧ p ∈ (s.core c).parts ∧ q ∈ p.pending)
      ∧ (∃ (n : Nat) (s u : State) (e : Entry) (p : Place), s.keeperUp = true ∧ Named s n e ∧ e.multi = none ∧ e.switching = true ∧ e.st = .running ∧ e.status = 0 ∧ e.kill = false ∧ e.saved = none
        ∧ e.tiles.Nodup ∧ (∀ k ∈ e.tiles, k < 256 ∧ (s.tile k).place.isSome = true) ∧ u = (s.entryCtxs e).foldl (fun s c => s.pause c) s ∧ u.paused e = true
        ∧ ((u.flushEntry e).judgePart e).2.1 = 1 ∧ 5 ∈ e.tiles ∧ (s.tile 5).place = some p)
      ∧ ∃ (n : Nat) (s : State) (e : Entry) (v : Saved) (p : Place), s.keeperUp = true ∧ Named s n e ∧ e.multi = none ∧ e.rec_.prio ≠ 7 ∧ s.mayRestore e = true ∧ e.saved = some v
        ∧ 5 ∈ e.tiles ∧ v.tiles.find 5 = some ({}, 7#3, p, 16#19) := by
  refine ⟨⟨4, stSwitch, running1, ?_, named_of rfl rfl ?_ ?_, rfl, rfl, ?_, 5, 40, part [loadEntry], loadEntry, ?_, ?_, ?_, ?_⟩,
    ⟨4, stSwitching, _, switching1, { ltag := 7#64, cores := 1, tiles := 1, index := 0, va := 0x10000#64 }, ?_, named_of rfl rfl ?_ ?_, rfl, rfl, rfl, rfl, rfl, rfl, ?_, ?_, rfl, ?_, ?_, ?_, rfl⟩,
    ⟨4, stKeep [{ entry0 1 0x30000#64 .running with tiles := [5], saved := some saved0 }], { entry0 1 0x30000#64 .running with tiles := [5], saved := some saved0 }, saved0,
      { ltag := 7#64, cores := 1, tiles := 1, index := 0, va := 0x10000#64 }, ?_, named_of rfl rfl ?_ ?_, rfl, ?_, ?_, rfl, ?_, ?_⟩⟩
    <;> decide +kernel

/-- A launch over modules 0 and 1 with one tile on each, as a record's bytes; module 0 is its home. -/
def recBytes : List Byte :=
  leBytes 4 88 ++ leBytes 2 1 ++ [1#8, 0#8] ++ leBytes 8 7 ++ leBytes 8 0x20000 ++ leBytes 8 0 ++ [7#8, 1#8, 3#8, 0#8] ++ leBytes 28 0
    ++ ([1#8, 4#8, 0#8, 0#8] ++ leBytes 4 2) ++ ([3#8, 3#8, 0#8, 0#8] ++ leBytes 4 2) ++ ([4#8, 2#8, 0#8, 0#8] ++ leBytes 4 1)

/-- Its entry, with the steps of R418. -/
def entryM (lseq : Nat) (st : EState) (x : Members) : Entry :=
  { lseq := lseq, rec_ := launchOf recBytes, bytes := recBytes, imgOff := 0, imgLen := 64, region := 0, st := st, multi := some x }

/-- A module of a domain of two, with its entries and with link 0 UP. -/
def stDomain (m : Nat) (es : List Entry) : State := { sec := { up := true, module := m, domain := 2 }, entries := es, nextLseq := 9, links := [(0, { st := .up })] }

/-- The first message from a module to another, over link 0 (R414), and one of the Innkeepers (R415, R418). -/
def msg (src dst kind : Nat) (body : List Byte) : MsgIn :=
  { link := 0, flits := ((fragments 1 0 body []).zipIdx).map fun x => mkFlit src dst kind x.2 4095 x.1.1 }
def kmsg (src opc : Nat) (ops : List Byte) : MsgIn := msg src (1 - src) 9 (leBytes 2 opc ++ leBytes 6 0 ++ leBytes 8 7 ++ ops)

/-- Whether a message comes first from its module. -/
def comesFirst (s : State) (m : MsgIn) (kind : Nat) : Bool :=
  s.linksRun && decide (m.link < 16) && (s.link m.link).st == .up && m.lead.dest == s.sec.module && m.src != s.sec.module && m.whole kind && (Link.hear m.flits (s.link m.link)).isSome && m.mseq == 1

theorem inTurn_of {s : State} {m : MsgIn} {kind : Nat} (hp : s.peers = []) (h : comesFirst s m kind = true) : InTurn s m kind := by
  simp only [comesFirst, Bool.and_eq_true, decide_eq_true_eq, beq_iff_eq, bne_iff_ne, ne_eq, and_assoc] at h
  obtain ⟨h1, h2, h3, h4, h5, h6, h7, h8⟩ := h
  refine ⟨⟨h1, h2, h3, h4, h5, h6, h7⟩, ?_, ?_, fun d => ?_⟩ <;> rw [hp]
  · exact h8
  · rfl
  · show 0 + 1 < 2 ^ 64
    decide

theorem keeperIn_of {m src opc : Nat} {es : List Entry} {ops : List Byte}
    (h : (comesFirst (stDomain m es) (kmsg src opc ops) 9 && (stDomain m es).keeperUp && (kmsg src opc ops).body == leBytes 2 opc ++ leBytes 6 0 ++ leBytes 8 7 ++ ops) = true) :
    KeeperIn (stDomain m es) (kmsg src opc ops) opc 7#64 ops := by
  simp only [Bool.and_eq_true, beq_iff_eq, and_assoc] at h
  exact ⟨inTurn_of rfl h.1, h.2.1, h.2.2⟩

theorem shadow_of (src opc : Nat) (ops : List Byte) (e : Entry) (x : Members) (h : (stDomain 1 [e]).entry 7#64 = some e) (hx : e.multi = some x) (h0 : e.lseq = 0) (hm : x.home = (kmsg src opc ops).src) :
    Shadow (stDomain 1 [e]) (kmsg src opc ops) 7#64 e x := ⟨h, hx, h0, hm⟩

theorem atHome_of (e : Entry) (x : Members) (h : (stDomain 0 [e]).entry 7#64 = some e) (hx : e.multi = some x) (h0 : e.lseq ≠ 0) : AtHome (stDomain 0 [e]) 7#64 e x := ⟨h, hx, h0⟩

theorem witness_LaunchMessages_admit :
    (∃ (s : State) (m : MsgIn) (l : Word) (ops : List Byte), KeeperIn s m 0x01 l ops ∧ ops.length ≥ 72 ∧ s.homeOf l = m.src ∧ (launchOf (ops.drop 8)).ltag = l
        ∧ s.recordStatus (ops.drop 8) (leNat (ops.take 8)) true ≠ 0)
      ∧ (∃ (s : State) (m : MsgIn) (l : Word) (ops : List Byte) (off : Nat), KeeperIn s m 0x01 l ops ∧ ops.length ≥ 72 ∧ s.homeOf l = m.src ∧ (launchOf (ops.drop 8)).ltag = l
        ∧ s.recordStatus (ops.drop 8) (leNat (ops.take 8)) true = 0 ∧ s.sweep.freeRange (leNat (ops.take 8)) = some off)
      ∧ (∃ (s : State) (m : MsgIn) (l : Word) (e : Entry) (x : Members) (st h : Nat) (q : Word), KeeperIn s m 0x02 l (leBytes 1 st ++ leBytes 7 0) ∧ s.entry l = some e ∧ e.lseq = 0 ∧ e.multi = some x
        ∧ x.home = s.sec.module ∧ x.step = 0 ∧ x.left = [m.src] ∧ x.bad = 0 ∧ 0 < st ∧ st < 256 ∧ x.reply = some (h, q))
      ∧ (∃ (s : State) (m : MsgIn) (l : Word) (e : Entry) (x : Members) (off : Nat) (bs : List Byte), KeeperIn s m 0x03 l (leBytes 8 off ++ bs) ∧ Shadow s m l e x ∧ off < 2 ^ 64
        ∧ off + bs.length ≤ e.imgLen ∧ MemOk s)
      ∧ (∃ (s : State) (m : MsgIn) (l : Word) (e : Entry) (x : Members), KeeperIn s m 0x04 l [] ∧ Shadow s m l e x ∧ x.step = 1)
      ∧ ∃ (s : State) (m : MsgIn) (l : Word) (e : Entry) (x : Members) (d : Nat) (r : List Nat), KeeperIn s m 0x05 l [] ∧ AtHome s l e x ∧ x.step = 2 ∧ (e.st = .queued ∨ e.st = .dispatching) ∧ x.left = m.src :: d :: r ∧ d ∉ [m.src, s.sec.module] := by
  let ws : Members := { home := 0, left := [1], reply := some (3, 9#64) }
  let wr : Members := { home := 0, step := 2, left := [1, 2] }
  refine ⟨⟨_, _, _, leBytes 8 64 ++ recBytes.set 4 2#8, keeperIn_of (m := 1) (src := 0) (opc := 0x01) (es := []) ?_, ?_, ?_, ?_, ?_⟩, ⟨_, _, _, leBytes 8 64 ++ recBytes, 0, keeperIn_of (m := 1) (src := 0) (opc := 0x01) (es := []) ?_, ?_, ?_, ?_, ?_, ?_⟩,
    ⟨_, _, _, entryM 0 .queued ws, ws, 255, 3, 9#64, keeperIn_of (m := 0) (src := 1) (opc := 0x02) (es := [entryM 0 .queued ws]) ?_, ?_, rfl, rfl, rfl, rfl, rfl, rfl, ?_, ?_, rfl⟩,
    ⟨_, _, _, entryM 0 .queued { home := 0, step := 1 }, { home := 0, step := 1 }, 56, leBytes 8 0x0102, keeperIn_of (m := 1) (src := 0) (opc := 0x03) (es := [entryM 0 .queued { home := 0, step := 1 }]) ?_,
      shadow_of _ _ _ _ _ ?_ rfl rfl ?_, ?_, ?_, memOk_of rfl rfl⟩,
    ⟨_, _, _, entryM 0 .queued { home := 0, step := 1 }, { home := 0, step := 1 }, keeperIn_of (m := 1) (src := 0) (opc := 0x04) (es := [entryM 0 .queued { home := 0, step := 1 }]) ?_, shadow_of _ _ _ _ _ ?_ rfl rfl ?_, rfl⟩,
    ⟨_, _, _, entryM 4 .queued wr, wr, 2, [], keeperIn_of (m := 0) (src := 1) (opc := 0x05) (es := [entryM 4 .queued wr]) ?_, atHome_of _ _ ?_ rfl ?_, rfl, Or.inl rfl, ?_, ?_⟩⟩
    <;> decide +kernel

theorem witness_LaunchMessages_place :
    (∃ (s : State) (m : MsgIn) (l : Word) (e : Entry) (x : Members), KeeperIn s m 0x06 l [] ∧ Shadow s m l e x ∧ x.step = 2 ∧ e.st = .dispatching ∧ e.tiles.Nodup
        ∧ (((arrived s m).updMulti l fun y => { y with bad := 1 }).placeEntry { e with multi := some { x with bad := 1 } } (s.firstIndex e.rec_)).isSome = true)
      ∧ (∃ (s : State) (m : MsgIn) (l : Word) (e : Entry) (x : Members), KeeperIn s m 0x07 l [] ∧ AtHome s l e x ∧ x.step = 3 ∧ x.left = [m.src] ∧ e.kill = false ∧ e.early = none)
      ∧ (∃ (s : State) (m : MsgIn) (l : Word) (e : Entry) (reason cause exit : Nat), KeeperIn s m 0x08 l (leBytes 1 reason ++ leBytes 1 cause ++ leBytes 2 0 ++ leBytes 4 exit) ∧ reason < 256 ∧ cause < 256
        ∧ exit < 2 ^ 32 ∧ s.entry l = some e ∧ e.lseq ≠ 0 ∧ m.src ∈ s.memberList e.rec_ ∧ e.st = .running ∧ (∀ d ∈ s.entries, d.st ≠ .queued) ∧ s.entries.length < 4096)
      ∧ (∃ (s : State) (m : MsgIn) (l : Word) (e : Entry) (x : Members), KeeperIn s m 0x09 l (leBytes 1 3 ++ leBytes 7 0) ∧ Shadow s m l e x ∧ m.src ≠ s.sec.module)
      ∧ (∃ (s : State) (m : MsgIn) (l : Word) (e : Entry) (x : Members), KeeperIn s m 0x0A l [] ∧ AtHome s l e x ∧ x.step ≠ 9)
      ∧ (∃ (s : State) (m : MsgIn) (l : Word) (e : Entry) (x : Members), KeeperIn s m 0x0A l [] ∧ AtHome s l e x ∧ x.step = 9 ∧ e.kill = false)
      ∧ (∃ (s : State) (m : MsgIn) (l : Word) (e : Entry) (x : Members), KeeperIn s m 0x0A l [] ∧ AtHome s l e x ∧ x.step = 9 ∧ e.kill = true ∧ e.tiles = [] ∧ (x.left.filter fun k => k != m.src) = []
        ∧ (∀ d ∈ s.entries, d.st ≠ .queued) ∧ s.entries.length < 4096)
      ∧ ∃ (s : State) (m : MsgIn) (l : Word) (ops : List Byte) (e : Entry), KeeperIn s m 0x0B l ops ∧ ops.length = 32 ∧ leNat ((ops.drop 31).take 1) = 0 ∧ s.entry l = some e ∧ e.lseq ≠ 0 := by
  let w2 : Members := { home := 0, step := 2 }
  let w3 : Members := { home := 0, step := 3, left := [1] }
  let w9 : Members := { home := 0, step := 9, left := [1] }
  refine ⟨⟨_, _, _, { entryM 0 .dispatching w2 with tiles := [5] }, w2, keeperIn_of (m := 1) (src := 0) (opc := 0x06) (es := [{ entryM 0 .dispatching w2 with tiles := [5] }]) ?_, shadow_of _ _ _ _ _ ?_ rfl rfl ?_, rfl, rfl, ?_, ?_⟩,
    ⟨_, _, _, entryM 4 .dispatching w3, w3, keeperIn_of (m := 0) (src := 1) (opc := 0x07) (es := [entryM 4 .dispatching w3]) ?_, atHome_of _ _ ?_ rfl ?_, rfl, rfl, rfl, rfl⟩,
    ⟨_, _, _, entryM 4 .running w3, 3, 255, 2 ^ 32 - 1, keeperIn_of (m := 0) (src := 1) (opc := 0x08) (es := [entryM 4 .running w3]) ?_, ?_, ?_, ?_, ?_, ?_, ?_, ?_, ?_, ?_⟩,
    ⟨_, _, _, entryM 0 .queued w2, w2, keeperIn_of (m := 1) (src := 0) (opc := 0x09) (es := [entryM 0 .queued w2]) ?_, shadow_of _ _ _ _ _ ?_ rfl rfl ?_, ?_⟩,
    ⟨_, _, _, entryM 4 .running w3, w3, keeperIn_of (m := 0) (src := 1) (opc := 0x0A) (es := [entryM 4 .running w3]) ?_, atHome_of _ _ ?_ rfl ?_, ?_⟩,
    ⟨_, _, _, entryM 4 .running w9, w9, keeperIn_of (m := 0) (src := 1) (opc := 0x0A) (es := [entryM 4 .running w9]) ?_, atHome_of _ _ ?_ rfl ?_, rfl, rfl⟩,
    ⟨_, _, _, { entryM 4 .running w9 with kill := true }, w9, keeperIn_of (m := 0) (src := 1) (opc := 0x0A) (es := [{ entryM 4 .running w9 with kill := true }]) ?_, atHome_of _ _ ?_ rfl ?_, rfl, rfl, rfl, ?_, ?_, ?_⟩,
     ⟨_, _, _, leBytes 32 9, entryM 4 .running w3, keeperIn_of (m := 0) (src := 1) (opc := 0x0B) (es := [entryM 4 .running w3]) ?_, ?_, ?_, ?_, ?_⟩⟩
    <;> decide +kernel

theorem witness_SwitchMessages :
    (∃ (s : State) (m : MsgIn) (l : Word) (e : Entry) (x : Members), KeeperIn s m 0x0C l [] ∧ Shadow s m l e x ∧ x.home ≠ s.sec.module ∧ e.st = .running ∧ e.resident = true)
      ∧ (∃ (s : State) (m : MsgIn) (l : Word) (e : Entry) (x : Members) (d : Nat) (r : List Nat) (st need : Nat), KeeperIn s m 0x0D l (leBytes 1 st ++ leBytes 7 0 ++ leBytes 8 need) ∧ AtHome s l e x ∧ x.step = 5
        ∧ e.st = .running ∧ x.left = m.src :: d :: r ∧ d ≠ m.src ∧ st < 256 ∧ need < 2 ^ 64 ∧ x.bad ≤ 1)
      ∧ (∃ (s : State) (m : MsgIn) (l : Word) (e : Entry) (x : Members), KeeperIn s m 0x0E l (leBytes 8 1) ∧ Shadow s m l e x ∧ x.home ≠ s.sec.module ∧ e.switching = true ∧ e.kill = false)
      ∧ (∃ (s : State) (m : MsgIn) (l : Word) (e : Entry) (x : Members), KeeperIn s m 0x0E l (leBytes 8 0) ∧ Shadow s m l e x ∧ x.home ≠ s.sec.module ∧ e.switching = true ∧ e.kill = false)
      ∧ (∃ (s : State) (m : MsgIn) (l : Word) (e : Entry) (x : Members) (v : Saved), KeeperIn s m 0x0F l [] ∧ Shadow s m l e x ∧ x.home ≠ s.sec.module ∧ x.step = 8 ∧ e.saved = some v ∧ s.tilesUp e = true)
      ∧ (∃ (s : State) (m : MsgIn) (l : Word) (e : Entry) (x : Members) (v : Saved), KeeperIn s m 0x0F l [] ∧ Shadow s m l e x ∧ x.home ≠ s.sec.module ∧ x.step = 8 ∧ e.saved = some v ∧ s.tilesUp e = false)
      ∧ (∃ (s : State) (m : MsgIn) (l : Word) (e : Entry) (x : Members), KeeperIn s m 0x10 l [] ∧ AtHome s l e x ∧ x.step = 8 ∧ x.left = [m.src])
      ∧ (∃ (s : State) (m : MsgIn) (l : Word) (ep pep far : Nat), KeeperIn s m 0x11 l (leBytes 2 ep ++ leBytes 2 pep ++ leBytes 4 0 ++ leBytes 8 far) ∧ ep < 2 ^ 16 ∧ pep < 2 ^ 16 ∧ far < 2 ^ 64)
      ∧ (∃ (s : State) (m : MsgIn) (l : Word) (e : Entry) (c : Channel) (p : Endpoint) (closed : Nat), KeeperIn s m 0x12 l (leBytes 1 closed ++ leBytes 7 0) ∧ closed ≤ 1 ∧ s.entry l = some e ∧ e.rec_.chans = [c]
        ∧ e.eps.find c.ep = some p ∧ p.joining = true ∧ s.homeOf p.ptag = m.src)
      ∧ ∃ (s : State) (m : MsgIn) (l : Word) (e : Entry), KeeperIn s m 0x13 l [] ∧ s.listed l = some e ∧ (e.st = .queued ∨ (e.st = .running ∧ e.resident = false)) := by
  let w4 : Members := { home := 0, step := 4 }
  let w5 : Members := { home := 0, step := 5, left := [1, 2], bad := 1 }
  let w8 : Members := { home := 0, step := 8, left := [1] }
  let er : Entry := { entryM 0 .running w4 with tiles := [5], resident := true }
  let es : Entry := { entryM 0 .running w5 with tiles := [5], resident := true, switching := true }
  let ev : Entry := { entryM 0 .running w8 with tiles := [5], saved := some saved0 }
  let ch : Channel := { ep := 1, pep := 2, resume := false, self := false, sink := none, ptag := 0x80000000000007#64 }
  let p : Endpoint := { ptag := 0x80000000000007#64, pep := 2, joining := true }
  let ej : Entry := { entryM 4 .running w4 with rec_ := { launchOf recBytes with chans := [ch] }, eps := [(1, p)] }
  refine ⟨⟨_, _, _, er, w4, keeperIn_of (m := 1) (src := 0) (opc := 0x0C) (es := [er]) ?_, shadow_of _ _ _ _ _ ?_ rfl rfl ?_, ?_, rfl, rfl⟩,
    ⟨_, _, _, entryM 4 .running w5, w5, 2, [], 0, 2 ^ 64 - 1, keeperIn_of (m := 0) (src := 1) (opc := 0x0D) (es := [entryM 4 .running w5]) ?_, atHome_of _ _ ?_ rfl ?_, rfl, rfl, rfl, ?_, ?_, ?_, ?_⟩,
    ⟨_, _, _, es, w5, keeperIn_of (m := 1) (src := 0) (opc := 0x0E) (es := [es]) ?_, shadow_of _ _ _ _ _ ?_ rfl rfl ?_, ?_, rfl, rfl⟩, ⟨_, _, _, es, w5, keeperIn_of (m := 1) (src := 0) (opc := 0x0E) (es := [es]) ?_, shadow_of _ _ _ _ _ ?_ rfl rfl ?_, ?_, rfl, rfl⟩,
    ⟨_, _, _, ev, w8, saved0, keeperIn_of (m := 1) (src := 0) (opc := 0x0F) (es := [ev]) ?_, shadow_of _ _ _ _ _ ?_ rfl rfl ?_, ?_, rfl, rfl, ?_⟩,
    ⟨{ stDomain 1 [ev] with dies := [(0, { st := .halt })] }, kmsg 0 0x0F [], 7#64, ev, w8, saved0, ⟨inTurn_of rfl ?_, ?_, ?_⟩, ⟨?_, rfl, rfl, ?_⟩, ?_, rfl, rfl, ?_⟩,
    ⟨_, _, _, entryM 4 .running w8, w8, keeperIn_of (m := 0) (src := 1) (opc := 0x10) (es := [entryM 4 .running w8]) ?_, atHome_of _ _ ?_ rfl ?_, rfl, rfl⟩,
    ⟨_, _, _, 1, 2 ^ 16 - 1, 9, keeperIn_of (m := 0) (src := 1) (opc := 0x11) (es := []) ?_, ?_, ?_, ?_⟩, ⟨_, _, _, ej, ch, p, 1, keeperIn_of (m := 0) (src := 1) (opc := 0x12) (es := [ej]) ?_, ?_, ?_, rfl, rfl, rfl, ?_⟩,
    ⟨_, _, _, entryM 4 .queued w4, keeperIn_of (m := 0) (src := 1) (opc := 0x13) (es := [entryM 4 .queued w4]) ?_, ?_, Or.inl rfl⟩⟩
    <;> decide +kernel

/-- A process of module 0, tag 7, whose endpoint 1 has its far end on module 1; context 0 may wait in a send. -/
def stAway (c : Ctx) (op : AMap Endpoint) (rem : List Remote := []) (probes : List Probe := []) (pq : List PJob := []) : State :=
  { ctxs := [(0, c)], links := [(0, { st := .up })], sec := { up := true, module := 0, domain := 2 }, remotes := rem, probes := probes
    tiles := [(0, { place := some { ltag := 7#64, cores := 1, tiles := 1, index := 0, va := 0x20000#64 }, eng := { pq := pq } })]
    entries := [{ entry0 1 0#64 .running with resident := true, tiles := [0], eps := op }] }

def farEp (e : EpState) : Endpoint := { st := e, ptag := 0x80000000000007#64, pep := 2 }

def offer9 : Offer := { ep := 1, send := true, kind := .word, data := 3#64, oid := 9 }

theorem witness_ChannelMessages :
    (∃ (s : State) (m : MsgIn) (l : Word) (e oid : Nat) (x : Entry) (p : Endpoint) (d : Word), e < 1024 ∧ oid < 2 ^ 32 ∧ InTurn s m 2
        ∧ m.body = leBytes 8 l.toNat ++ leBytes 2 e ++ leBytes 2 0 ++ leBytes 4 oid ++ leBytes 8 d.toNat ∧ s.entry l = some x ∧ x.eps.find e = some p ∧ ∀ h, p.st ≠ .closed h)
      ∧ (∃ (s : State) (m : MsgIn) (l : Word) (e oid : Nat) (p : Endpoint), e < 1024 ∧ oid < 2 ^ 32 ∧ InTurn s m 2 ∧ m.body = leBytes 8 l.toNat ++ leBytes 2 e ++ leBytes 2 128 ++ leBytes 4 oid
        ∧ s.ep l e = some p ∧ p.pep < 2 ^ 16 ∧ ∃ r ∈ s.remotes, r.src = m.src ∧ r.oid = oid)
      ∧ (∃ (s : State) (m : MsgIn) (l : Word) (e oid c : Nat) (p : Pending) (o : Offer) (rd : XReg) (status : Nat), e < 1024 ∧ oid < 2 ^ 32 ∧ InTurn s m 3
        ∧ m.body = leBytes 8 l.toNat ++ leBytes 2 e ++ leBytes 1 0 ++ leBytes 1 status ++ leBytes 4 oid ++ leBytes 4 0 ∧ status < 256
        ∧ s.offering l e oid = some (c, p, o) ∧ p.op = .send rd ∧ o.kind = .word ∧ (oid, m.src) ∈ p.away)
      ∧ (∃ (s : State) (m : MsgIn) (oid off : Nat) (bs : List Byte), oid < 2 ^ 32 ∧ InTurn s m 1 ∧ m.body = leBytes 4 oid ++ leBytes 4 0 ++ leBytes 8 off ++ bs ∧ off < 2 ^ 64
        ∧ ∀ i ∈ s.inbound, ¬ (i.src = m.src ∧ i.oid = oid))
      ∧ (∃ (s : State) (m : MsgIn) (l : Word) (e : Nat) (p : Endpoint), e < 1024 ∧ InTurn s m 4 ∧ m.body = leBytes 8 l.toNat ++ leBytes 2 e ++ leBytes 6 0 ∧ s.ep l e = some p)
      ∧ (∃ (s : State) (n : Nat) (tag : ProbeTag) (d c : Nat), s.probes[n]? = some (.query tag d (.here c)) ∧ s.clocked (d / 16) = true ∧ (s.ctx d).blocked = false ∧ (s.ctx d).comp = none ∧ (s.ctx d).engaged = [])
      ∧ ∃ (s : State) (n : Nat) (tag : ProbeTag) (c reach : Nat) (r : Engage), s.probes[n]? = some (.answer tag c 1 reach) ∧ s.clocked (c / 16) = true ∧ (s.ctx c).comp = some r ∧ r.tag = tag := by
  let tg : ProbeTag := { ictx := 0, iseq := 1, try_ := 0 }
  let en : Engage := { tag := tg, parent := .here 0, seq := 0, left := 1 }
  let pd : Pending := { op := .send 5#5, offers := [offer9], word := 0#32, away := [(9, 1)] }
  refine ⟨⟨stAway (cx []) [(1023, farEp .unbound)], msg 1 0 2 (leBytes 8 7 ++ leBytes 2 1023 ++ leBytes 2 0 ++ leBytes 4 (2 ^ 32 - 1) ++ leBytes 8 5), 7#64, 1023, 2 ^ 32 - 1, _, farEp .unbound, 5#64, ?_, ?_, inTurn_of rfl ?_, ?_, rfl, ?_, ?_⟩,
    ⟨stAway (cx []) [(1, farEp .unbound)] [{ src := 1, ltag := 7#64, ep := 1, kind := .word, oid := 9 }], msg 1 0 2 (leBytes 8 7 ++ leBytes 2 1 ++ leBytes 2 128 ++ leBytes 4 9), 7#64, 1, 9, farEp .unbound, ?_, ?_, inTurn_of rfl ?_, ?_, ?_, ?_,
      ⟨_, List.mem_singleton.mpr rfl, ?_, rfl⟩⟩,
    ⟨stAway { waiting (.send 5#5) offer9 with chan := some pd } [(1, farEp (.bound 0))], msg 1 0 3 (leBytes 8 7 ++ leBytes 2 1 ++ leBytes 1 0 ++ leBytes 1 255 ++ leBytes 4 9 ++ leBytes 4 0), 7#64, 1, 9, 0, pd, offer9, 5#5, 255,
      ?_, ?_, inTurn_of rfl ?_, ?_, ?_, ?_, rfl, rfl, ?_⟩,
    ⟨stAway (cx []) [], msg 1 0 1 (leBytes 4 9 ++ leBytes 4 0 ++ leBytes 8 0 ++ leBytes 33 0x0201), 9, 0, leBytes 33 0x0201, ?_, inTurn_of rfl ?_, ?_, ?_, ?_⟩,
    ⟨stAway (cx []) [(1, farEp (.bound 0))], msg 1 0 4 (leBytes 8 7 ++ leBytes 2 1 ++ leBytes 6 0), 7#64, 1, farEp (.bound 0), ?_, inTurn_of rfl ?_, ?_, ?_⟩,
    ⟨stAway (cx []) [] [] [.query tg 0 (.here 1)], 0, tg, 0, 1, rfl, ?_, ?_, rfl, rfl⟩, ⟨stAway { cx [] with comp := some en } [] [] [.answer tg 0 1 3], 0, tg, 0, 3, en, rfl, ?_, rfl, rfl⟩⟩
    <;> first | decide +kernel | (intro h hh; cases hh)

/-- A domain of three modules: module 1 is reached over link 2, which is in some state; three messages are kept there. -/
def stLink (k : Link) : State :=
  { sec := { up := true, module := 0, domain := 3 }, links := [(2, k), (0, { st := .up })], routes := [(1, 0x102#10), (5, 0x102#10)], peers := [(1, { owed := true, got := 4, kept := [(3, { kind := 9, body := leBytes 33 0 })] })] }

/-- A flit of FTAG f from module 3 to another: a bare EACK of 3. -/
def flit (dst f : Nat) : Flit := mkFlit 3 dst 7 f 4095 (fragHeader 0 3 0 true)

theorem linkRejects : ∀ why : Fin 4, ∃ (s : State) (n : Nat) (f : Flit), n < 16 ∧ s.linksRun = true ∧ s.sec.module < 512 ∧ (s.link n).st = .up ∧ LinkRoom (s.link n) ∧ (s.link n).refused < 15 ∧ (s.link n).waiting = false ∧ s.transit = []
    ∧ (match why with | 0 => f.crcOk = false | 1 => f.ftag ≠ (s.link n).rx | 2 => 9 < f.kind | 3 => f.low ≠ 0) := by
  intro why
  fin_cases why
  · exact ⟨stLink { st := .up }, 2, { flit 0 0 with bytes := (flit 0 0).bytes.set 60 0#8 }, by unfold LinkRoom; decide +kernel⟩
  · exact ⟨stLink { st := .up }, 2, flit 0 1, by unfold LinkRoom; decide +kernel⟩
  · exact ⟨stLink { st := .up }, 2, mkFlit 3 0 10 0 4095 [], by unfold LinkRoom; decide +kernel⟩
  · exact ⟨stLink { st := .up }, 2, { flit 0 0 with bytes := (flit 0 0).bytes.set 0 1#8 }, by unfold LinkRoom; decide +kernel⟩

/-- The links that messages use: an EACK that comes, one that is owed, and messages sent again, also past the window. -/
theorem witness_LinkEvents_messages :
    (∃ (s : State) (m : MsgIn), s.linksRun = true ∧ Comes s m 7 ∧ m.mseq = 0 ∧ m.flits.length = 1)
      ∧ (∃ (s : State) (n m : Nat), n < 16 ∧ s.linksRun = true ∧ (s.link n).tx < 4096 ∧ m < 512 ∧ s.path m = some n ∧ (s.peers.get m {}).owed = true ∧ LinkRoom (s.link n))
      ∧ (∃ (s : State) (n m flits : Nat), n < 16 ∧ s.linksRun = true ∧ s.path m = some n ∧ flits = ((s.peers.get m {}).kept.map fun x => flitCount x.2.body).sum ∧ flits = 2 ∧ (s.link n).unsent = [] ∧ (s.link n).kept.length + flits ≤ 2048)
      ∧ ∃ (s : State) (n m : Nat), n < 16 ∧ s.linksRun = true ∧ s.path m = some n ∧ (s.link n).kept.length = 2047 := by
  refine ⟨⟨stLink {}, { link := 0, flits := [flit 0 0] }, ?_, ⟨?_, ?_, ?_, ?_, ?_, ?_, ?_⟩, ?_, rfl⟩, ⟨stLink { st := .up, tx := 4095 }, 2, 1, ?_, ?_, ?_, ?_, ?_, ?_, ?_, ?_⟩, ⟨stLink { st := .up }, 2, 1, 2, ?_, ?_, ?_, ?_, rfl, ?_, ?_⟩,
    ⟨stLink { st := .up, kept := List.replicate 2047 (flit 1 0) }, 2, 1, ?_, ?_, ?_, ?_⟩⟩
  all_goals decide +kernel

theorem witness_LinkEvents :
    (∃ (s : State) (n : Nat), n < 16 ∧ s.linksRun = true ∧ (s.link n).st = .training) ∧ (∃ (s : State) (n : Nat), n < 16 ∧ s.linksRun = true ∧ (s.link n).st = .down)
      ∧ (∃ (s : State) (n f : Nat) (g : Flit) (r : List Flit), n < 16 ∧ s.linksRun = true ∧ (s.link n).st = .up ∧ (s.link n).kept = g :: r ∧ g.ftag ≠ f ∧ (∃ x ∈ r, x.ftag = f) ∧ s.transit = [])
      ∧ (∃ (s : State) (n : Nat) (g : Flit) (r : List Flit), n < 16 ∧ s.linksRun = true ∧ (s.link n).st = .up ∧ (s.link n).kept = g :: r ∧ (s.link n).naks = 15)
      ∧ (∀ why : Fin 4, ∃ (s : State) (n : Nat) (f : Flit), n < 16 ∧ s.linksRun = true ∧ s.sec.module < 512 ∧ (s.link n).st = .up ∧ LinkRoom (s.link n) ∧ (s.link n).refused < 15 ∧ (s.link n).waiting = false ∧ s.transit = []
          ∧ (match why with | 0 => f.crcOk = false | 1 => f.ftag ≠ (s.link n).rx | 2 => 9 < f.kind | 3 => f.low ≠ 0))
      ∧ ∃ (s : State) (n : Nat) (f : Flit), n < 16 ∧ s.linksRun = true ∧ (s.link n).st = .up ∧ f.crcOk = false ∧ f.ftag = (s.link n).rx ∧ (s.link n).waiting = true ∧ s.transit = [] ∧ (s.link n).refused = 15 := by
  refine ⟨⟨stLink { st := .training }, 2, ?_, ?_, ?_⟩, ⟨stLink {}, 15, ?_, ?_, ?_⟩,
    ⟨stLink { st := .up, kept := [flit 1 3, flit 1 4] }, 2, 4, flit 1 3, [flit 1 4], ?_, ?_, ?_, rfl, ?_, ⟨flit 1 4, ?_, ?_⟩, rfl⟩, ⟨stLink { st := .up, naks := 15, kept := [flit 1 3] }, 2, flit 1 3, [], ?_, ?_, ?_, rfl, ?_⟩, linkRejects,
    ⟨stLink { st := .up, waiting := true, refused := 15 }, 2, { flit 0 0 with bytes := (flit 0 0).bytes.set 60 0#8 }, ?_⟩⟩
  all_goals decide +kernel

theorem witness_LinkEvents_transit :
    let arrives := fun (s : State) (m : MsgIn) (f : Flit) => s.linksRun = true ∧ m.flits = [f] ∧ m.link < 16 ∧ (s.link m.link).st = .up ∧ (Link.hear [f] (s.link m.link)).isSome = true ∧ f.dest ≠ s.sec.module ∧ f.kind ≠ 0 ∧ f.kind ≠ 8 ∧ f.len ≤ 52
    (∃ (s : State) (m : MsgIn) (f : Flit), arrives s m f ∧ (s.routes.get f.dest 0#10).toNat < 256)
      ∧ (∃ (s : State) (n : Nat) (m : MsgIn) (f : Flit), n < 16 ∧ arrives s m f ∧ s.path f.dest = some n ∧ n ≠ m.link ∧ LinkRoom (s.link n))
      ∧ ∃ (s : State) (m : MsgIn) (f : Flit), arrives s m f ∧ 256 ≤ (s.routes.get f.dest 0#10).toNat ∧ s.path f.dest = none := by
  refine ⟨⟨stLink {}, { link := 0, flits := [flit 2 0] }, flit 2 0, ⟨?_, rfl, ?_, ?_, ?_, ?_, ?_, ?_, ?_⟩, ?_⟩, ⟨stLink { st := .up }, 2, { link := 0, flits := [flit 5 0] }, flit 5 0, ?_, ⟨?_, rfl, ?_, ?_, ?_, ?_, ?_, ?_, ?_⟩, ?_, ?_, ?_, ?_⟩,
    ⟨stLink {}, { link := 0, flits := [flit 5 0] }, flit 5 0, ⟨?_, rfl, ?_, ?_, ?_, ?_, ?_, ?_, ?_⟩, ?_, ?_⟩⟩
  all_goals decide +kernel

/-- A command of host 3 to port 1, with a request number (R419). -/
def hostCmd (op : Nat) (reqid : Word) (p : List Byte) : HostReq :=
  { source := 3, dest := 5, port := 47040
    bytes := [0x4B#8, 0x47#8, 0x5A#8, 0x37#8] ++ leBytes 2 1 ++ leBytes 2 op ++ leBytes 8 reqid.toNat ++ leBytes 4 p.length ++ leBytes 12 0 ++ p }

/-- A module whose ports answer, with one staged region, one entry and a host that has run request 4. -/
def stHost (es : List Entry) : State :=
  { sec := { up := true, addrs := [4, 5], modulus := leBytes 512 3 }, entries := es, nextLseq := 9, kmem := Memory.empty.setBytes (wbytes 0x1000000000 (recBytes.take 88) false)
    regions := [{ off := 0, size := 4096, rkey := 5#32 }], hosts := [(3, { next := 5, replies := [{ reqid := 4#64, op := 1#16, status := 0, body := [] }] })] }

def entryE (st : EState) : Entry := { entry0 1 0#64 st with region := 4096, log := [{ lseq := 4, ctxid := 0#64, seq := 1, word := 0#32, reached := 2, resume := false }] }

theorem runs_of {s : State} {op : Nat} {q : HostReq}
    (h : (s.sec.up && s.sec.addrs.contains q.dest && (q.port == 47040) && reqGood q && (q.op.toNat == op) && !s.sec.locked && (s.kstopped != 0xF#4) && decide ((s.hosts.get q.source {}).next ≤ q.reqid.toNat)) = true) : Runs s op q := by
  simpa [Runs, Addressed, and_assoc] using h

/-- A good command of each OP. -/
def goodCmd (reqid : Word) (op : Nat) : HostReq := hostCmd op reqid (leBytes (if op = 2 then 24 else if op = 6 then 2 else if op = 7 then 64 else 8) 9)

theorem commandOf : ∀ op ∈ [1, 2, 3, 4, 5, 6, 7, 8], ∀ r ∈ [3#64, 4#64, 9#64], (∃ i : Instr, commandOp i = some (op, goodCmd r op)) ∧ reqGood (goodCmd r op) = true ∧ (goodCmd r op).op.toNat = op ∧ (goodCmd r op).reqid = r := by
  intro op h
  have hi : ∀ q, ∃ i : Instr, commandOp i = some (op, q) := fun q => by
    fin_cases h
    · exact ⟨.stage q, rfl⟩
    · exact ⟨.submit q, rfl⟩
    · exact ⟨.cancel q, rfl⟩
    · exact ⟨.query q, rfl⟩
    · exact ⟨.knotlog q, rfl⟩
    · exact ⟨.floor q, rfl⟩
    · exact ⟨.attest q, rfl⟩
    · exact ⟨.release q, rfl⟩
  intro r hr
  refine ⟨hi _, ?_⟩
  fin_cases h <;> fin_cases hr <;> decide +kernel

/-- For each command: a datagram that goes elsewhere, one to a locked part, one when no keeper core runs, one answered again and one that is stale. -/
theorem witness_CommandsRunOnce :
    (∃ q : HostReq, reqGood q = true ∧ ¬ Addressed (stHost []) q) ∧ Addressed { stHost [] with sec := { (stHost []).sec with locked := true } } (goodCmd 9#64 6)
      ∧ (Addressed { stHost [] with kstopped := 0xF#4 } (goodCmd 9#64 4))
      ∧ (∃ r : Reply, Addressed (stHost []) (goodCmd 4#64 1) ∧ ((stHost []).hosts.get 3 {}).replies.find? (fun r => r.reqid == (goodCmd 4#64 1).reqid) = some r ∧ 4 < ((stHost []).hosts.get 3 {}).next)
      ∧ (∀ r ∈ ((stHost []).hosts.get 3 {}).replies, r.reqid ≠ (goodCmd 3#64 8).reqid) ∧ (goodCmd 3#64 8).reqid.toNat < ((stHost []).hosts.get 3 {}).next := by
  refine ⟨⟨{ goodCmd 9#64 1 with port := 47041 }, ?_, ?_⟩, ?_, ?_, ⟨{ reqid := 4#64, op := 1#16, status := 0, body := [] }, ?_, ?_, ?_⟩, ?_, ?_⟩ <;> first | decide +kernel | (unfold Addressed; decide +kernel)

/-- Packets at the ends of the last region, and the states of a queue pair. -/
def packet (op : RdmaOp) (addr : Nat) (bs : List Byte) (ce : Bool) : RdmaWrite := { port := 1, qp := 63, op := op, rkey := 5#32, addr := addr, bytes := bs, ce := ce }
def region0 : Region := { off := 0, size := 4096, rkey := 5#32 }

theorem witness_PortsAnswer :
    (∃ (s : State) (q : HostReq), Addressed s q ∧ reqGood q = false ∧ s.sec.locked = false ∧ s.kstopped ≠ 0xF#4)
      ∧ (∃ (s : State) (w : RdmaWrite), s.sec.up = true ∧ w.port < 2 ∧ w.qp < 64 ∧ 127 = 64 * w.port + w.qp ∧ 127 ∈ s.qperr ∧ w.ce = true)
      ∧ (∃ (s : State) (w : RdmaWrite), s.sec.up = true ∧ w.port < 2 ∧ w.qp < 64 ∧ 127 ∉ s.qperr ∧ ¬ PacketOk s 127 w)
      ∧ (∃ (s : State) (w : RdmaWrite) (r : Region) (run : RdmaRun), s.sec.up = true ∧ 127 = 64 * w.port + w.qp ∧ 127 ∉ s.qperr ∧ PacketOk s 127 w ∧ PacketAt s 127 w run ∧ r ∈ s.regions ∧ Staged r run w.bytes.length ∧ MemOk s ∧ w.op = .only)
      ∧ (∃ (s : State) (w : RdmaWrite) (r : Region) (run : RdmaRun), s.sec.up = true ∧ 127 = 64 * w.port + w.qp ∧ 127 ∉ s.qperr ∧ PacketOk s 127 w ∧ PacketAt s 127 w run ∧ r ∈ s.regions ∧ Staged r run w.bytes.length ∧ MemOk s ∧ w.op = .first)
      ∧ (∃ (s : State) (w : RdmaWrite) (r : Region) (run : RdmaRun), s.sec.up = true ∧ 127 = 64 * w.port + w.qp ∧ 127 ∉ s.qperr ∧ PacketOk s 127 w ∧ PacketAt s 127 w run ∧ r ∈ s.regions ∧ Staged r run w.bytes.length ∧ MemOk s ∧ w.op = .last)
      ∧ (∃ (s : State) (w : RdmaWrite) (run : RdmaRun), s.sec.up = true ∧ 127 ∉ s.qperr ∧ PacketOk s 127 w ∧ PacketAt s 127 w run ∧ ∀ r ∈ s.regions, ¬ Staged r run w.bytes.length)
      ∧ ∃ (s : State) (src : Nat) (reqid : Word) (rep : List Byte) (r : List (Nat × Word × List Byte)), s.sec.signing = (src, reqid, rep) :: r ∧ s.keeperUp = true := by
  refine ⟨⟨stHost [], goodCmd 9#64 9, ?_⟩, ⟨{ stHost [] with qperr := [127] }, packet .only 0 [] true, ?_⟩, ⟨stHost [], packet .middle 0 (leBytes 4096 0) false, ?_⟩,
    ⟨stHost [], packet .only 0x1000000FFF [9#8] true, region0, { rkey := 5#32, addr := 0x1000000FFF }, ?_, rfl, ?_, ?_, Or.inr ?_, ?_, ?_, memOk_of rfl (by decide +kernel), rfl⟩,
    ⟨stHost [], packet .first 0x1000000000 (leBytes 4096 7) false, region0, { rkey := 5#32, addr := 0x1000000000 }, ?_, rfl, ?_, ?_, Or.inr ?_, ?_, ?_, memOk_of rfl (by decide +kernel), rfl⟩,
    ⟨{ stHost [] with qpruns := [(127, { rkey := 5#32, addr := 0x1000000FFF })] }, packet .last 0 [9#8] false, region0, { rkey := 5#32, addr := 0x1000000FFF }, ?_, rfl, ?_, ?_, Or.inl rfl, ?_, ?_, memOk_of rfl (by decide +kernel), rfl⟩,
    ⟨stHost [], packet .only 0x1000000FFF [9#8, 9#8] false, { rkey := 5#32, addr := 0x1000000FFF }, ?_, ?_, ?_, Or.inr ?_, ?_⟩,
    ⟨{ stHost [] with sec := { up := true, signing := [(3, 9#64, leBytes 64 0)] } }, 3, 9#64, leBytes 64 0, [], rfl, ?_⟩⟩
  all_goals first | decide +kernel | (unfold Addressed; decide +kernel) | (simp only [PacketOk, packet]; decide +kernel) | (unfold Staged; decide +kernel)

/-- A record for one tile, at offset 0 of the staged region. -/
def recOne : List Byte :=
  leBytes 4 80 ++ leBytes 2 1 ++ [1#8, 0#8] ++ leBytes 8 8 ++ leBytes 8 0x20000 ++ leBytes 8 0 ++ [7#8, 1#8, 2#8, 0#8] ++ leBytes 28 0 ++ ([3#8, 3#8, 0#8, 0#8] ++ leBytes 4 1) ++ ([4#8, 2#8, 0#8, 0#8] ++ leBytes 4 1)

def stSubmit (bad : Bool) : State := { stHost [] with kmem := Memory.empty.setBytes (wbytes 0x1000000000 (if bad then recOne.set 4 2#8 else recOne) false) }

theorem attests : ∀ b : Bool, ∃ (s : State) (q : HostReq), Runs s 7 q ∧ s.sec.ident = b := by
  intro b
  cases b
  · exact ⟨stHost [], hostCmd 7 9#64 (leBytes 64 1), runs_of (by decide +kernel), rfl⟩
  · exact ⟨{ stHost [] with sec := { (stHost []).sec with ident := true } }, hostCmd 7 9#64 (leBytes 64 1), runs_of (by decide +kernel), rfl⟩

theorem witness_CommandsTakeEffect :
    (∃ (s : State) (q : HostReq) (off : Nat), Runs s 1 q ∧ s.sweep.freeRange (payloadAt q 0) = some off) ∧ (∃ (s : State) (q : HostReq), Runs s 1 q ∧ s.sweep.freeRange (payloadAt q 0) = none)
      ∧ (∀ bad : Bool, ∃ (s : State) (q : HostReq) (r : Region) (bs : List Byte), Runs s 2 q ∧ s.sweep.regionWith (payloadAt q 0) 64 = some r ∧ bs = s.recordAt (payloadAt q 0)
        ∧ payloadAt q 0 + bs.length ≤ r.off + r.size ∧ r.off ≤ payloadAt q 8 ∧ payloadAt q 8 + payloadAt q 16 ≤ r.off + r.size
        ∧ (if bad then s.recordStatus bs (payloadAt q 16) false ≠ 0 else s.recordStatus bs (payloadAt q 16) false = 0 ∧ (launchOf bs).modules ≤ 1 ∧ (launchOf bs).preds = []))
      ∧ (∃ (s : State) (q : HostReq), Runs s 2 q ∧ s.sweep.regionWith (payloadAt q 0) 64 = none)
      ∧ (∃ (s : State) (q : HostReq), Runs s 3 q ∧ NoDispatchDue s ∧ s.listed (BitVec.ofNat 64 (payloadAt q 0)) = none)
      ∧ (∃ (s : State) (q : HostReq) (e : Entry), Runs s 3 q ∧ NoDispatchDue s ∧ s.listed (BitVec.ofNat 64 (payloadAt q 0)) = some e ∧ e.isEnded = true)
      ∧ (∃ (s : State) (q : HostReq) (e : Entry), Runs s 3 q ∧ NoDispatchDue s ∧ s.listed (BitVec.ofNat 64 (payloadAt q 0)) = some e ∧ e.st = .queued ∧ s.entries.length < 4096
        ∧ (∀ d ∈ s.entries, d.st = .queued → d.rec_.ltag = e.rec_.ltag) ∧ s.entry e.rec_.ltag = some e)
      ∧ (∃ (s : State) (q : HostReq) (e : Entry), Runs s 3 q ∧ NoDispatchDue s ∧ s.listed (BitVec.ofNat 64 (payloadAt q 0)) = some e ∧ e.st = .dispatching ∧ s.entry e.rec_.ltag = some e)
      ∧ (∃ (s : State) (q : HostReq) (e : Entry), Runs s 4 q ∧ s.listed (BitVec.ofNat 64 (payloadAt q 0)) = some e ∧ e.lseq < 2 ^ 64)
      ∧ (∃ (s : State) (q : HostReq) (e : Entry) (k : Knot), Runs s 5 q ∧ s.listed (BitVec.ofNat 64 (payloadAt q 0)) = some e ∧ e.log[0]? = some k)
      ∧ (∃ (s : State) (q : HostReq), Runs s 6 q) ∧ (∀ b : Bool, ∃ (s : State) (q : HostReq), Runs s 7 q ∧ s.sec.ident = b)
      ∧ (∃ (s : State) (q : HostReq), Runs s 8 q ∧ ∀ r ∈ s.sweep.regions, r.host = true → r.off ≠ payloadAt q 0)
      ∧ ∃ (s : State) (q : HostReq), Runs s 8 q ∧ (∃ r ∈ s.sweep.regions, r.host = true ∧ r.off = payloadAt q 0) ∧ ∀ e ∈ s.entries, e.isEnded = false → e.region ≠ payloadAt q 0 := by
  refine ⟨⟨stHost [], hostCmd 1 9#64 (leBytes 8 100), 4096, runs_of ?_, ?_⟩, ⟨stHost [], hostCmd 1 9#64 (leBytes 8 (2 ^ 30)), runs_of ?_, ?_⟩, fun bad => ?_,
    ⟨stHost [], hostCmd 2 9#64 (leBytes 24 4033), runs_of ?_, ?_⟩, ⟨stHost [], hostCmd 3 9#64 (leBytes 8 7), runs_of ?_, ?_, ?_⟩, ⟨stHost [entryE .done], hostCmd 3 9#64 (leBytes 8 7), entryE .done, runs_of ?_, ?_, ?_, rfl⟩,
    ⟨stHost [{ entryE .queued with rec_ := { rec0 1 0#64 with preds := [7#64] } }], hostCmd 3 9#64 (leBytes 8 7), { entryE .queued with rec_ := { rec0 1 0#64 with preds := [7#64] } }, runs_of ?_, ?_, ?_, rfl, ?_, ?_, ?_⟩,
    ⟨stHost [entryE .dispatching], hostCmd 3 9#64 (leBytes 8 7), entryE .dispatching, runs_of ?_, ?_, ?_, rfl, ?_⟩, ⟨stHost [entryE .running], hostCmd 4 5#64 (leBytes 8 7), entryE .running, runs_of ?_, ?_, ?_⟩,
    ⟨stHost [entryE .running], hostCmd 5 9#64 (leBytes 8 7), entryE .running, _, runs_of ?_, ?_, rfl⟩, ⟨stHost [], hostCmd 6 9#64 (leBytes 2 500), runs_of ?_⟩, attests,
    ⟨stHost [], hostCmd 8 9#64 (leBytes 8 1), runs_of ?_, ?_⟩, ⟨stHost [entryE .running], hostCmd 8 9#64 (leBytes 8 0), runs_of ?_, ?_, ?_⟩⟩
  case refine_5 =>
    cases bad
    · exact ⟨stSubmit false, hostCmd 2 9#64 (leBytes 8 0 ++ leBytes 8 4096 ++ leBytes 8 0), _, _, runs_of (by decide +kernel), rfl, rfl, by decide +kernel⟩
    · exact ⟨stSubmit true, hostCmd 2 9#64 (leBytes 8 0 ++ leBytes 8 4096 ++ leBytes 8 0), _, _, runs_of (by decide +kernel), rfl, rfl, by decide +kernel⟩
  all_goals first | decide +kernel | (unfold NoDispatchDue; decide +kernel)

/-- A configuration record for module 1 of two, which retires segment 511 of core 7 of tile 255, laid out by hand as R423 lists its fields. -/
def recordHead : List Byte :=
  [0x4B#8, 0x43#8, 0x46#8, 0x47#8] ++ leBytes 2 1 ++ leBytes 2 1 ++ leBytes 2 2 ++ [1#8, 1#8] ++ leBytes 4 0 ++ leBytes 8 3 ++ leBytes 31 0 ++ [5#8]
def recordTail : List Byte := leBytes 4 (255 * 2 ^ 12 + 7 * 2 ^ 9 + 511)
def record1 : List Byte := recordHead ++ (List.replicate 4096 0#8 ++ recordTail)

/-- A key of 4,096 bits and its signatures of the image 1, 2, 3 and of that record, made outside the model by OpenSSL (RSASSA-PSS, SHA-512, MGF1 with SHA-512, salt of 64 bytes). -/
def rootModulus : Nat := 0xc4f2a62f1e32517a7687f3309a5ffae2f60fc7ba128bd9320d5e56755b2b1b6e8e2094771e522c295aedac326702d6bf58a1840b8fdd885b29b770fd997ef6a9310678f6b0d06c7191745449a577ac9f574c2af327ed2104dbdb34f613944523fedec403033dd66ff31b31155ebba3348b950ea4420a64ec6dc56a2b53e7c961533c3027e043f7f1ad88cc40b722e88904613445a3c532da86ec697bb045fc1c93e77bc0f1f523942e549b9d3c9b1986037b74fb943c67050f4ca5685b0145ef6e0ca2b93e60bcf0d18cf2a367f8e2ab17fb909e82f272c5fed13f7268bed5fc07143585bf2b41415ce711127f528da770c89758fec2f906a8f1ae2aa5096d65a6a36134f6439254f68063dd1c21f1304c23204b5e06e12a1f1beec15681bf63aa5727dce4aa1620ec4627d080f46a6034f94dd1b60b1235b72cf4a20090e7e5bb76112d132784c8fb4c8c0ad1cfb7ad0e36237209b1b451ef8408a661d22c0c8cadb7e040cbebffc5811f3f12f6e2195bb31164c61c77f331bef9c61fc6fafdf86a4c27644007e10bbb287370b38661bf68fa5354489c522a44919b1272fb744fb560ab63fca9465f71efec7827dd87e4ada832c4d555e709c1c5a8d34c6479732d744e71e99f72f83916618c81417c4a407e46566368d92eb355b4b2550d8e6dd7f49531e96615ca2bd550655cec64e343b540949ddc110f2239e00df4c2fb
def imageSig : Nat := 0x3a8e76fa4a2ee4a8b5c7fbc1c9c3fb0be8bb9e987a0da3341523dfbff17b56ec3ff86d1247ac0571522718f1068a50bf5fe9f20172d91658b09b38572178309ba1fa965e3d6869feb90ed33def426eaa8a0ac559c5512cfcef7a4b5699404871af49d19987c4b44da6805d535f1a9efe0de382ba628a28aab751c3387dc75d083bb0a57c4cfa57c10e1b1108d3a603cdc7b55d4793fd5470db391be91313820a31f65241e5d78caf4703acee393c42ac1a967d5933971255aa5592332694e55cf3ee93928f386632dc80e1e0dbcb7c59e1b812808a50888c495ab16341c47c404cc5c7b2b34b192b2f7e8ca949c61a96802a32672f5504a27380bec2e1a91a2bb307afb0123fbafa56488df15f0a53962d5520e336f65f7aa1ee37d6b6e004855467fa7a86b2bc32e3d917bb4a3b5aff7b061385eecb06393f3fb44d72ab26f8711858e115308031376916ea100264cf3f4b0f217c0df27c88de64ed01bbe26c12eeec10bf32bb0be9e499e6d8c4a29292eeb7cb49474ef40338931b2faf0779ac83899c6939752c353358c409fd21a1ee6ef6820c9c589ea1c1e70d427ac1110ffed920f32e266b135d3f1b64701e59ab6f7fa70b9eb090e6732708ba627e0873926dcc091b4ff4a5fc81531c1fd512fd20a919e94be5c8ffc8875a101f60251a05ffacf1459512782a6fbd6b99575081bcb5ed48d7a63ca7e51f08f0ed5f32
def recordSig : Nat := 0x29339f9bc3360743b083ad95773e5066fdd47f61a4223403e608681736b7677ca648b89d59855c997494714e9beb118f34407d580414e0eaa5938cbf8d9b00b9007afbeaab6740b4ec34a648f3f1fc9985f8d5c18d410cf5db2f5d6e21d776749c9f3c7bd579a5c3d2a43d3e40106fe1d0d8b3c02995b5686335360b52290652503ce434fc98942f33d751782baaf4e36b0057fedaa86e4f7d0ab3c5438b7be4580709a7a2955a1900a36a2031cf5f1ad8715547a1308d8d59dfde5c40350e9c61498778ee7a0969276366dee97750855dce5c043388911574a52486bd98d72a5a77e37b7a781596da91359c33814558c252ada57fd9ad7a40fcc344b87aec52fa1b75b7761052287ede78b4619720822e06d9ecc8b747aef4ea7a172a1e5e34df6a4963b2ed4d5f283481f36d5347bb3cc93aea7dbe648e81fe6004805ed77e9129467af657227860cabedf66ec8da25b1aacb59a5957dca22d24d60b53ec1d9f85f3482fd9e34f9e438cfe8b05eba5fca0c6217565db3d05d12d5c2f2decfabc670be383b6228105e1635b251e75dea9987ef09a64ef14d666f7059d2680e990e331cd0ee96ba7b4b90d59731fce0426099766dcc633847b8b3a4a19d51053e7021ceab356f537aae59807478c6ddaaf1f1bae76469445bb57c427efba8d5a97ed4ca6219e89ad3b31218c130d61e17b7de4d0d487e4199aeb871a2954deee

def boot1 : BootInput :=
  { romDigest := sha512 (beBytes 512 rootModulus), rootKey := beBytes 512 rootModulus, firmware := [1#8, 2#8, 3#8], fwSig := beBytes 512 imageSig
    record := record1, recSig := beBytes 512 recordSig, seed := some (leBytes 64 1) }

/-- SHA-512 of "abc", as FIPS 180-4 gives it. -/
theorem test_sha512 : beNat (sha512 [0x61#8, 0x62#8, 0x63#8]) =
    0xddaf35a193617abacc417349ae20413112e6fa4e89a97ea20a9eeee64b55d39a2192992a274fc1a836ba3c23a3feebbd454d4423643ce80e2a9ac94fa54ca49f := by decide +kernel

/-- CRC-32 of "123456789", its usual check value. -/
theorem test_crc32 : crc32 [0x31#8, 0x32#8, 0x33#8, 0x34#8, 0x35#8, 0x36#8, 0x37#8, 0x38#8, 0x39#8] = 0xCBF43926 := by decide +kernel

/-- Eight bytes from within a run of zeros. -/
theorem zeros_within (h t : List Byte) (m k : Nat) (hk : k + 8 ≤ m) : ((h ++ (List.replicate m 0#8 ++ t)).drop (h.length + k)).take 8 = List.replicate 8 0#8 := by
  rw [List.drop_append, List.drop_eq_nil_of_le (by omega), List.nil_append, show h.length + k - h.length = k by omega, List.drop_append_of_le_length (by simp; omega), List.drop_replicate,
    List.take_append_of_le_length (by simp; omega), List.take_replicate, Nat.min_eq_left (by omega)]

/-- The routes of that record are all zero. -/
theorem record_routes (n : Nat) (h : n < 512) : field record1 (0x38 + 8 * n) 8 = 0 := by
  have h1 : recordHead.length = 0x38 := by decide
  rw [field, record1, ← h1, zeros_within _ _ _ _ (by omega)]
  decide

theorem record_good : recordGood record1 = true := by
  unfold recordGood
  simp only [Bool.and_eq_true, List.all_eq_true, List.mem_range, decide_eq_true_eq]
  refine ⟨⟨⟨⟨⟨⟨⟨⟨⟨⟨⟨?_, ?_⟩, ?_⟩, ?_⟩, ?_⟩, ?_⟩, ?_⟩, ?_⟩, ?_⟩, ?_⟩, fun n h => ?_⟩, ?_⟩
  case refine_11 => rw [record_routes n h]; decide
  all_goals decide +kernel

theorem witness_boot : BootVerifies boot1 := by
  refine ⟨?_, ?_, ?_, record_good⟩ <;> decide +kernel

theorem witness_ResetAndAlarms :
    (∃ b : BootInput, ¬ BootVerifies b) ∧ (∃ (b : BootInput) (w : Nat), BootVerifies b ∧ 0 < leNat ((b.record.drop 0x0B).take 1) ∧ w = leNat ((b.record.drop 0x1038).take 4) ∧ w % 512 = 511)
      ∧ (∃ s : State, s.sec.lock = false ∧ s.sec.signing = [])
      ∧ ∃ s : State, s.sec.lock = true ∧ s.sec.signing = [] ∧ (∀ e ∈ s.entries, e.multi = none) ∧ (s.ctx 0).slot = .running ∧ ∀ k p, s.core (0 / 16) = k → k.partOf (0 % 16) = some p → p.fly = [] ∧ p.queue = [] := by
  refine ⟨⟨{ boot1 with record := [] }, fun h => absurd h.2.2.2 ?_⟩, ⟨boot1, 255 * 2 ^ 12 + 7 * 2 ^ 9 + 511, witness_boot, ?_, ?_, ?_⟩, ⟨st (cx []), rfl, rfl⟩,
    ⟨{ st (cx []) with sec := { up := true, lock := true } }, rfl, rfl, ?_, ?_, ?_⟩⟩
  case refine_7 =>
    intro k p hk hp
    subst hk
    cases hp
  all_goals decide +kernel

/-- Instructions that are well formed and whose word decodes. -/
theorem witness_EncodeThenDecode : ∃ (i : Instr) (w : Insn), i.wf = true ∧ encode i = some w ∧ w = 0x28453002#32 := ⟨.cmplt 2#3 5#5 6#5, _, by decide, rfl, by decide⟩
theorem witness_DecodeThenEncode : (∃ (w : Insn) (i : Instr), decode w = some i) ∧ ∃ w : Insn, w.toNat / 2 ^ 26 = 0x3E := ⟨⟨0x28453002#32, .cmplt 2#3 5#5 6#5, by decide⟩, ⟨0xF8000000#32, by decide⟩⟩

theorem witness_StepKeepsMemoryCanonical : ∃ s t : State, MemInv s ∧ step s = .next t := by
  have h : ∃ t, step (st (cx [])) = .next t := ⟨_, rfl⟩
  obtain ⟨t, ht⟩ := h
  exact ⟨st (cx []), t, ⟨memOk_of (by decide +kernel) rfl, linesOk_of (by decide +kernel)⟩, ht⟩

/-- The state after a fetch that gives a word. -/
def fetchState (f : Fetched) : State :=
  match f with
  | .word u _ => u
  | _ => {}

theorem fetches_of {s : State} {k c n : Nat} {w : Insn} (h1 : s.sec.up = true) (h2 : s.nextSlot k = some (c, n)) (h3 : ((inSlot s c n).boundary c).isNone = true) (h4 : ((inSlot s c n).ctx c).wait = .no)
    (h5 : (match (inSlot s c n).fetch with | .word _ u => u == w | _ => false) = true) : Fetches s k c n (fetchState (inSlot s c n).fetch) w := by
  refine ⟨h1, h2, Option.isNone_iff_eq_none.mp h3, h4, ?_⟩
  cases hf : (inSlot s c n).fetch with
  | word u x =>
    rw [hf] at h5
    simp at h5
    simp [fetchState, h5]
  | accessFault => rw [hf] at h5; cases h5
  | pageFault _ _ _ => rw [hf] at h5; cases h5
  | poison => rw [hf] at h5; cases h5
  | halted => rw [hf] at h5; cases h5

/-- The context at address 0x10000 with a word there; p1 is set, and a prefix may be pending. -/
def stWord (w : Nat) (pfx : Option Insn) : State := stMem { cx [] with p := (Vector.replicate 8 false).set 1 true, pfx := pfx } (leBytes 4 w)

/-- The same under a schedule that names its core. -/
def stIssue : State := { stWord 0x08E70001 none with sched := [.issue 0] }

/-- PFX on p1, that lets the next instruction run, and on not p1, that suppresses it. -/
theorem witness_StepRunsDecoded :
    (∃ (s v : State) (k c n : Nat) (w : Insn) (i : Instr), s.sched = [] ∧ s.turn = some k ∧ Fetches s k c n v w ∧ decode w = some i ∧ ¬ (32768 ≤ v.cur ∧ keeperMajor w) ∧ v.me.pfx = none)
      ∧ (∃ (s v : State) (k c n : Nat) (w : Insn) (i : Instr) (r : List Act), s.sched = .issue k :: r ∧ Fetches { s with sched := r } k c n v w ∧ decode w = some i ∧ ¬ (32768 ≤ v.cur ∧ keeperMajor w) ∧ v.me.pfx = none)
      ∧ (∃ (s v : State) (k c n : Nat) (w p : Insn) (i : Instr), s.sched = [] ∧ s.turn = some k ∧ Fetches s k c n v w ∧ decode w = some i ∧ ¬ (32768 ≤ v.cur ∧ keeperMajor w) ∧ v.me.pfx = some p
        ∧ pfxIllegal p w = false ∧ pfxSuppresses v.me p = false)
      ∧ (∃ (s v : State) (k c n : Nat) (w p : Insn) (i : Instr), s.sched = [] ∧ s.turn = some k ∧ Fetches s k c n v w ∧ decode w = some i ∧ ¬ (32768 ≤ v.cur ∧ keeperMajor w) ∧ v.me.pfx = some p
        ∧ pfxIllegal p w = false ∧ pfxSuppresses v.me p = true)
      ∧ (∃ (s v : State) (k c n : Nat) (w p : Insn) (i : Instr), s.sched = [] ∧ s.turn = some k ∧ Fetches s k c n v w ∧ decode w = some i ∧ ¬ (32768 ≤ v.cur ∧ keeperMajor w) ∧ v.me.pfx = some p
        ∧ pfxIllegal p w = true)
      ∧ (∃ (s v : State) (k c n : Nat) (w : Insn), s.sched = [] ∧ s.turn = some k ∧ Fetches s k c n v w ∧ decode w = none)
      ∧ ∃ (s : State) (i : Instr) (r : List Act), s.sched = .event i :: r := by
  refine ⟨⟨stWord 0x08E70001 none, _, 0, 0, _, 0x08E70001#32, .addi 7#5 7#5 1#16, rfl, ?_, fetches_of ?_ rfl ?_ ?_ ?_, ?_, fun h => absurd h.1 ?_, ?_⟩,
    ⟨stIssue, _, 0, 0, _, 0x08E70001#32, .addi 7#5 7#5 1#16, [], rfl, fetches_of ?_ rfl ?_ ?_ ?_, ?_, fun h => absurd h.1 ?_, ?_⟩,
    ⟨stWord 0x08E70001 (some 0xFC800000#32), _, 0, 0, _, 0x08E70001#32, 0xFC800000#32, .addi 7#5 7#5 1#16, rfl, ?_, fetches_of ?_ rfl ?_ ?_ ?_, ?_, fun h => absurd h.1 ?_, ?_, ?_, ?_⟩,
    ⟨stWord 0x08E70001 (some 0xFCC00000#32), _, 0, 0, _, 0x08E70001#32, 0xFCC00000#32, .addi 7#5 7#5 1#16, rfl, ?_, fetches_of ?_ rfl ?_ ?_ ?_, ?_, fun h => absurd h.1 ?_, ?_, ?_, ?_⟩,
    ⟨stWord 0x854B6001 (some 0xFC800000#32), _, 0, 0, _, 0x854B6001#32, 0xFC800000#32, .barr 10#5 11#5 12#5, rfl, ?_, fetches_of ?_ rfl ?_ ?_ ?_, ?_, fun h => absurd h.1 ?_, ?_, ?_⟩,
    ⟨stWord 0 none, _, 0, 0, _, 0#32, rfl, ?_, fetches_of ?_ rfl ?_ ?_ ?_, ?_⟩, ⟨{ st (cx []) with sched := [.event .securityAlarm] }, .securityAlarm, [], rfl⟩⟩
    <;> decide +kernel

/-- An event of the schedule, and a row that only an issue slot reaches. -/
theorem witness_StepRunsDecoded_event :
    (∃ (s : State) (i : Instr) (r : List Act), s.sched = .event i :: r ∧ Machine.Instr.slotOnly i = false) ∧ ∃ (s : State) (i : Instr) (r : List Act), s.sched = .event i :: r ∧ Machine.Instr.slotOnly i = true :=
  ⟨⟨{ st (cx []) with sched := [.event .securityAlarm] }, .securityAlarm, [], rfl, by decide +kernel⟩, ⟨{ st (cx []) with sched := [.event .ecall] }, .ecall, [], rfl, by decide +kernel⟩⟩


/-- The source at the end of R61, with the words that the text below it gives. -/
def zStart : ZName := ['s', 't', 'a', 'r', 't']
noncomputable def zExample : List ZLine :=
  [{ stmt := some (.launch ['e', 'n', 'c'] { entry := .name zStart, prio := .num 3, vmode := .num 16384, layers := .num 1 }) },
   { stmt := some (.level 3 2 (.num 1)) }, { stmt := some (.level 4 1 (.num 1)) }, { stmt := some (.level 5 0 (.num 2)) },
   { stmt := some (.sect .text) }, { stmt := some (.globl zStart) }, { stmt := some (.proc zStart) },
   { label := some ['S', 'T', 'A', 'R', 'T'], stmt := some (.li 5#5 (.num 0x100000040)) },
   { stmt := some (.ins (.ld 6#5 5#5 0#1 0#12) [(.off, .num 8)]) },
   { stmt := some (.ins (.pfx 0#3 0#1 1#1 8#5) []) },
   { stmt := some (.ins (.addi 7#5 6#5 0#16) [(.imm, .neg (.num 1))]) },
   { stmt := some .ret }, { stmt := some .endproc }]

theorem test_zelasText :
    (zelas [zExample]).map (fun z => z.text.take 8) = some (leBytes 4 0x10A00040 ++ leBytes 4 0x24A20001)
    ∧ (zelas [zExample]).map (fun z => z.procs) = some [(zStart, .text, 0, 24)] := by decide +kernel

theorem test_zelasRecord :
    (zelas [zExample]).map (fun z => z.launches.map fun b => (field b 0 4, recLength b, b.length)) = some [(88, 88, 88)]
    ∧ (zelas [zExample]).map (fun z => z.launches.map fun b => (launchOf b).levels) = some [[(3, 2, 1), (4, 1, 1), (5, 0, 2)]]
    ∧ (zelas [zExample]).map (fun z => z.launches.map fun b => ((launchOf b).prio, (launchOf b).mode.toNat, (launchOf b).ltag.toNat)) = some [(3, 1, 1)] := by
  decide +kernel

/-- R57: a PFX as the last statement, a PFX before a J, and an offset of 2,048 have no image; a branch back to its own label has. -/
theorem test_zelasRejects :
    zelas [[{ stmt := some (.ins (.pfx 0#3 0#1 0#1 0#5) []) }]] = none
    ∧ zelas [[{ stmt := some (.ins (.pfx 0#3 0#1 0#1 0#5) []) }, { stmt := some (.ins (.j 0#26) [(.target, .here)]) }]] = none
    ∧ zelas [[{ stmt := some (.ins (.ld 6#5 5#5 0#1 0#12) [(.off, .num 2048)]) }]] = none
    ∧ (zelas [[{ label := some zStart, stmt := some .nop }, { stmt := some (.ins (.j 0#26) [(.target, .name zStart)]) }]]).map (·.text) =
      some (leBytes 4 0x08000000 ++ leBytes 4 0x5FFFFFFF) := by decide +kernel

/-- R58: each pseudo-instruction, and LI at the ends of ADDI's range and one past each. -/
theorem witness_PseudoInstructions :
    (∃ d v, ZStmt.li d (.num v) = .li 5#5 (.num (-32768)) ∧ (-32768 ≤ v ∧ v ≤ 32767)) ∧ (∃ d v, ZStmt.li d (.num v) = .li 5#5 (.num 32767) ∧ (-32768 ≤ v ∧ v ≤ 32767))
      ∧ (∃ d v, ZStmt.li d (.num v) = .li 5#5 (.num 32768) ∧ ¬ (-32768 ≤ v ∧ v ≤ 32767)) ∧ (∃ d v, ZStmt.li d (.num v) = .li 5#5 (.num (-32769)) ∧ ¬ (-32768 ≤ v ∧ v ≤ 32767))
      ∧ liInsns 5#5 (-32769) = [.ori 5#5 0#5 0x7FFF#16, .lih 5#5 1#2 0xFFFF#16, .lih 5#5 2#2 0xFFFF#16, .lih 5#5 3#2 0xFFFF#16]
      ∧ liInsns 0#5 32767 = [.addi 0#5 0#5 0x7FFF#16] := by
  refine ⟨⟨_, _, rfl, ?_⟩, ⟨_, _, rfl, ?_⟩, ⟨_, _, rfl, ?_⟩, ⟨_, _, rfl, ?_⟩, ?_, ?_⟩ <;> decide +kernel

end Sys2Proof.Tests
end

/-! PROOF. Pseudo-instructions (R58): the text that zelas makes of one statement, the shape of the expansion of LI, and the value that it builds. -/

namespace Sys2Proof.Machine

open Sys2Proof.Safety

/-! What the assembler emits for a list of instructions. -/

/-- The bytes of a list of instructions, in order. -/
def codeBytes (l : List Instr) : List Byte := (l.filterMap encode).flatMap fun w => leBytes 4 w.toNat

/-- The assembler stands in .text at a multiple of 4, with no table open and no PFX waiting. -/
def ZAsm.Ready (z : ZAsm) : Prop := z.sec = .text ∧ z.table = none ∧ z.pfx = [] ∧ z.at % 4 = 0

def ZAsm.addText (z : ZAsm) (bs : List Byte) : ZAsm := { z with text := z.text ++ bs }

/-- An instruction with a word that is no PFX. -/
def PlainInsn (i : Instr) : Prop := ∃ w, encode i = some w ∧ w.extractLsb' 26 6 ≠ 0x3F#6

theorem ZAsm.start_ready : ZAsm.Ready {} := ⟨rfl, rfl, rfl, rfl⟩

theorem ZAsm.Ready.addText {z : ZAsm} (h : z.Ready) {bs : List Byte} (hb : bs.length % 4 = 0) : (z.addText bs).Ready := by
  obtain ⟨hsec, htable, hpfx, hat⟩ := h
  refine ⟨hsec, htable, hpfx, ?_⟩
  simp only [ZAsm.at, ZAsm.addText, hsec, ZAsm.bytes, List.length_append] at hat ⊢
  omega

theorem ZAsm.word_of_ready {z : ZAsm} (h : z.Ready) {w : Insn} (hw : w.extractLsb' 26 6 ≠ 0x3F#6) :
    z.word w = z.addText (leBytes 4 w.toNat) := by
  obtain ⟨hsec, htable, hpfx, hat⟩ := h
  simp [ZAsm.word, ZAsm.need, ZAsm.put, ZAsm.append, ZAsm.addText, hsec, htable, hpfx, hat, hw]

theorem ZAsm.insns_of_ready {z : ZAsm} (h : z.Ready) {l : List Instr} (hl : ∀ i ∈ l, PlainInsn i) :
    z.insns l = z.addText (codeBytes l) := by
  induction l generalizing z with
  | nil => simp [ZAsm.insns, codeBytes, ZAsm.addText]
  | cons i l ih =>
    obtain ⟨w, hw, hp⟩ := hl i List.mem_cons_self
    have hrest : z.insns (i :: l) = (z.addText (leBytes 4 w.toNat)).insns l := by
      simp only [ZAsm.insns, List.foldl_cons, hw, ZAsm.word_of_ready h hp]
    rw [hrest, ih (h.addText (by rw [leBytes_length])) fun j hj => hl j (List.mem_cons_of_mem i hj)]
    simp [codeBytes, ZAsm.addText, hw]

/-- A source of one statement that only adds bytes to .text settles in one pass, and those bytes are its text. -/
theorem zelas_text_of_addText {st : ZStmt} {bs : List Byte} (h : ZAsm.stmt [] [] {} st = ZAsm.addText {} bs) :
    (zelas [[{ stmt := some st }]]).map (fun z => z.text) = some bs := by
  have hpass : zPass {} [] [] [[{ stmt := some st }]] = { ZAsm.addText {} bs with file := 1 } := by
    show ZAsm.source [] [] {} [{ stmt := some st }] = _
    simp only [ZAsm.source, ZAsm.line, List.foldl_cons, List.foldl_nil, h]
    rfl
  simp only [zelas, zelasAt, zSettle, hpass]
  rfl

theorem zelas_text_of_insns {st : ZStmt} {l : List Instr} (h : ZAsm.stmt [] [] {} st = ZAsm.insns {} l)
    (hl : ∀ i ∈ l, PlainInsn i) : (zelas [[{ stmt := some st }]]).map (fun z => z.text) = some (codeBytes l) :=
  zelas_text_of_addText (h.trans (ZAsm.insns_of_ready ZAsm.start_ready hl))

theorem plainInsn_addi (d a : XReg) (k : BitVec 16) : PlainInsn (.addi d a k) := ⟨_, rfl, by simp⟩
theorem plainInsn_ori (d a : XReg) (k : BitVec 16) : PlainInsn (.ori d a k) := ⟨_, rfl, by simp⟩
theorem plainInsn_lih (d : XReg) (h : BitVec 2) (k : BitVec 16) : PlainInsn (.lih d h k) := ⟨_, rfl, by simp⟩
theorem plainInsn_jalr (d a : XReg) (k : BitVec 16) : PlainInsn (.jalr d a k) := ⟨_, rfl, by simp⟩

/-! The expansion of LI. -/

theorem within_iff (lo hi v : Int) : within lo hi v = true ↔ lo ≤ v ∧ v ≤ hi := by
  simp [within]

theorem liInsns_short {v : Int} (d : XReg) (h : -32768 ≤ v ∧ v ≤ 32767) :
    liInsns d v = [.addi d 0#5 (BitVec.ofInt 16 v)] :=
  if_pos ((within_iff _ _ _).2 h)

/-- The lowest halfword of a 64-bit value is the halfword of the integer. -/
theorem extractLsb'_ofInt_low (v : Int) : (BitVec.ofInt 64 v).extractLsb' 0 16 = BitVec.ofInt 16 v := by
  apply BitVec.eq_of_toNat_eq
  simp only [BitVec.extractLsb'_toNat, BitVec.toNat_ofInt, Nat.shiftRight_zero]
  omega

theorem liInsns_long {v : Int} (d : XReg) (h : ¬ (-32768 ≤ v ∧ v ≤ 32767)) :
    liInsns d v = .ori d 0#5 (BitVec.ofInt 16 v) ::
      ([1, 2, 3].filter fun h => (BitVec.ofInt 64 v).extractLsb' (16 * h) 16 ≠ 0#16).map
        fun h => .lih d (BitVec.ofNat 2 h) ((BitVec.ofInt 64 v).extractLsb' (16 * h) 16) := by
  have hbne (x : BitVec 16) : (x != 0#16) = decide (x ≠ 0#16) := by rw [Bool.eq_iff_iff]; simp
  rw [liInsns, if_neg (mt (within_iff _ _ _).1 h)]
  simp only [extractLsb'_ofInt_low, hbne]

/-- An LI begins with an ADDI or ORI from x0, and every further instruction of it is an LIH of its own register. -/
theorem liInsns_shape (d : XReg) (v : Int) :
    ∃ i is, liInsns d v = i :: is ∧ (∃ k, i = .addi d 0#5 k ∨ i = .ori d 0#5 k) ∧ ∀ j ∈ is, ∃ h k, j = .lih d h k := by
  by_cases h : -32768 ≤ v ∧ v ≤ 32767
  · exact ⟨_, _, liInsns_short d h, ⟨_, .inl rfl⟩, by simp⟩
  · refine ⟨_, _, liInsns_long d h, ⟨_, .inr rfl⟩, fun j hj => ?_⟩
    obtain ⟨n, -, rfl⟩ := List.mem_map.1 hj
    exact ⟨_, _, rfl⟩

theorem liInsns_plain (d : XReg) (v : Int) : ∀ i ∈ liInsns d v, PlainInsn i := by
  obtain ⟨i, is, hl, ⟨k, hi⟩, his⟩ := liInsns_shape d v
  rw [hl, List.forall_mem_cons]
  constructor
  · rcases hi with rfl | rfl
    · exact plainInsn_addi d 0#5 k
    · exact plainInsn_ori d 0#5 k
  · intro j hj
    obtain ⟨n, m, rfl⟩ := his j hj
    exact plainInsn_lih d n m

/-- The first instruction of an LI reads x0, the others the register that it builds. -/
theorem liInsns_operands (d : XReg) (v : Int) :
    ∀ i ∈ liInsns d v, ∃ a f, intOne i = some (d, a, f) ∧ ((liInsns d v).head? = some i ∧ a = 0#5 ∨ a = d) := by
  obtain ⟨i, is, hl, ⟨k, hi⟩, his⟩ := liInsns_shape d v
  rw [hl, List.forall_mem_cons]
  constructor
  · rcases hi with rfl | rfl
    · exact ⟨0#5, _, rfl, .inl ⟨rfl, rfl⟩⟩
    · exact ⟨0#5, _, rfl, .inl ⟨rfl, rfl⟩⟩
  · intro j hj
    obtain ⟨n, m, rfl⟩ := his j hj
    exact ⟨d, _, rfl, .inr rfl⟩

/-! The value that LI builds. -/

/-- The value that an operation of R69 or R71 to R73 makes of its operand. -/
def intApply (x : Word) (i : Instr) : Word :=
  match intOne i with
  | some (_, _, f) => f x
  | none => x

/-- The n lowest halfwords of a value: what an LI has built once halfword n - 1 is done. -/
def lowHalves (u : Word) (n : Nat) : Word := BitVec.ofNat 64 (u.toNat % 2 ^ (16 * n))

theorem lowHalves_toNat (u : Word) (n : Nat) : (lowHalves u n).toNat = u.toNat % 2 ^ (16 * n) := by
  rw [lowHalves, BitVec.toNat_ofNat]
  exact Nat.mod_eq_of_lt ((Nat.mod_le _ _).trans_lt u.isLt)

theorem lowHalves_four (u : Word) : lowHalves u 4 = u := by
  apply BitVec.eq_of_toNat_eq
  rw [lowHalves_toNat]
  exact Nat.mod_eq_of_lt u.isLt

theorem lowHalves_succ (u : Word) (n : Nat) :
    lowHalves u (n + 1) = BitVec.ofNat 64 (u.toNat % 2 ^ (16 * n) + 2 ^ (16 * n) * (u.extractLsb' (16 * n) 16).toNat) := by
  rw [lowHalves, Nat.mul_add_one, pow_add, Nat.mod_mul, BitVec.extractLsb'_toNat, Nat.shiftRight_eq_div_pow]

/-- A halfword of zero needs no LIH. -/
theorem lowHalves_succ_of_zero {u : Word} {n : Nat} (h : u.extractLsb' (16 * n) 16 = 0#16) :
    lowHalves u (n + 1) = lowHalves u n := by
  rw [lowHalves_succ, h]
  simp [lowHalves]

theorem intApply_ori_zero (d a : XReg) (u : Word) :
    intApply 0#64 (.ori d a (u.extractLsb' 0 16)) = lowHalves u 1 := by
  rw [lowHalves_succ]
  simp [intApply, intOne, Nat.mod_one]

/-- LIH puts the next halfword above those that are there. -/
theorem intApply_lih (d : XReg) (u : Word) {n : Nat} (hn : n < 4) :
    intApply (lowHalves u n) (.lih d (BitVec.ofNat 2 n) (u.extractLsb' (16 * n) 16)) = lowHalves u (n + 1) := by
  have hh : (BitVec.ofNat 2 n).toNat = n := by
    rw [BitVec.toNat_ofNat]
    exact Nat.mod_eq_of_lt hn
  have hlt : u.toNat % 2 ^ (16 * n) < 2 ^ (16 * n) := Nat.mod_lt _ (Nat.two_pow_pos _)
  have hdiv : u.toNat % 2 ^ (16 * n) / 2 ^ (16 * n + 16) = 0 :=
    Nat.div_eq_of_lt (hlt.trans_le (Nat.pow_le_pow_right (by decide) (Nat.le_add_right _ _)))
  rw [lowHalves_succ]
  simp only [intApply, intOne, lowHalves_toNat, hh, hdiv, Nat.mod_mod, Nat.mul_zero, Nat.add_zero]

/-- Halfword n of an LI, with its LIH left out where the halfword is zero (R58). -/
theorem intApply_lih_if (d : XReg) (u : Word) {n : Nat} (hn : n < 4) :
    (if decide (u.extractLsb' (16 * n) 16 ≠ 0#16) = true
      then intApply (lowHalves u n) (.lih d (BitVec.ofNat 2 n) (u.extractLsb' (16 * n) 16)) else lowHalves u n) = lowHalves u (n + 1) := by
  split
  next => exact intApply_lih d u hn
  next h => exact (lowHalves_succ_of_zero (by simpa using h)).symm

/-- ADDI from x0 builds every value of a signed halfword. -/
theorem intApply_addi_zero (d a : XReg) {v : Int} (h : -32768 ≤ v ∧ v ≤ 32767) :
    intApply 0#64 (.addi d a (BitVec.ofInt 16 v)) = BitVec.ofInt 64 v := by
  have hv : (BitVec.ofInt 16 v).toInt = v := BitVec.toInt_ofInt_eq_self (by decide) (by omega) (by omega)
  simp [intApply, intOne, hv]

/-- The instructions of an LI, from x0 on, leave its constant modulo 2^64. -/
theorem liInsns_value (d : XReg) (v : Int) : (liInsns d v).foldl intApply 0#64 = BitVec.ofInt 64 v := by
  by_cases h : -32768 ≤ v ∧ v ≤ 32767
  · rw [liInsns_short d h]
    exact intApply_addi_zero d 0#5 h
  · rw [liInsns_long d h, List.foldl_cons, ← extractLsb'_ofInt_low, intApply_ori_zero, List.foldl_map, List.foldl_filter]
    simp only [List.foldl_cons, List.foldl_nil]
    rw [intApply_lih_if d _ (by decide : 1 < 4), intApply_lih_if d _ (by decide : 2 < 4),
      intApply_lih_if d _ (by decide : 3 < 4), lowHalves_four]

/-- Settles O11: a statement's text is the words of its expansion because a plain word only lengthens .text, and an LI holds the low halfwords of its constant after each instruction. -/
theorem pseudoInstructions : Obligations.PseudoInstructions := by
  refine ⟨rfl, ?_, fun d v => ⟨liInsns_operands d v, liInsns_value d v⟩⟩
  rintro st l (⟨rfl, rfl⟩ | ⟨d, a, rfl, rfl⟩ | ⟨rfl, rfl⟩ | ⟨d, v, rfl, hv, rfl⟩ | ⟨d, v, rfl, hv, rfl⟩)
  case inl => exact zelas_text_of_insns rfl (List.forall_mem_singleton.2 (plainInsn_addi _ _ _))
  case inr.inl => exact zelas_text_of_insns rfl (List.forall_mem_singleton.2 (plainInsn_addi _ _ _))
  case inr.inr.inl => exact zelas_text_of_insns rfl (List.forall_mem_singleton.2 (plainInsn_jalr _ _ _))
  case inr.inr.inr.inl =>
    rw [← liInsns_short d hv]
    exact zelas_text_of_insns rfl (liInsns_plain d v)
  case inr.inr.inr.inr =>
    rw [← liInsns_long d hv]
    exact zelas_text_of_insns rfl (liInsns_plain d v)

end Sys2Proof.Machine

/-! PROOF. Divides and remainders (R70): the operations of Alu.lean compute what the rule states, and a divide completes with its result and waits out its cost (R64). -/

namespace Sys2Proof.Machine

open Sys2Proof.Safety

/-! The values: a divisor is zero as a word just when it is zero as a number, and a remainder is what the quotient leaves. -/

theorem word_eq_zero_iff_toInt (y : Word) : y = 0#64 ↔ y.toInt = 0 := by
  rw [← BitVec.toInt_inj, BitVec.toInt_zero]

theorem word_eq_zero_iff_toNat (y : Word) : y = 0#64 ↔ y.toNat = 0 := by
  rw [← BitVec.toNat_inj, BitVec.toNat_zero]

theorem opDivs_eq (x y : Word) :
    opDivs x y = if y.toInt = 0 then 0#64 else BitVec.ofInt 64 (x.toInt.tdiv y.toInt) := by
  simp only [opDivs, word_eq_zero_iff_toInt]

theorem opDivu_eq (x y : Word) :
    opDivu x y = if y.toNat = 0 then 0#64 else BitVec.ofNat 64 (x.toNat / y.toNat) := by
  simp only [opDivu, word_eq_zero_iff_toNat]

theorem opRems_eq (x y : Word) :
    opRems x y = if y.toInt = 0 then x else BitVec.ofInt 64 (x.toInt - x.toInt.tdiv y.toInt * y.toInt) := by
  simp only [opRems, word_eq_zero_iff_toInt, Int.tmod_def, Int.mul_comm y.toInt]

theorem opRemu_eq (x y : Word) :
    opRemu x y = if y.toNat = 0 then x else BitVec.ofNat 64 (x.toNat - x.toNat / y.toNat * y.toNat) := by
  simp only [opRemu, word_eq_zero_iff_toNat, Nat.mod_eq_sub_div_mul]

/-- Every instruction of R70 is a divide by the function that the rule states for it. -/
theorem exec_of_divTwo {i : Instr} {rd a b : XReg} {f : Word → Word → Word} (h : divTwo i = some (rd, a, b, f)) (s : State) :
    exec i s = divRR f rd a b s := by
  unfold divTwo at h
  split at h
  case h_1 => cases h; rw [exec_divs, execDivs, funext₂ opDivs_eq]
  case h_2 => cases h; rw [exec_divu, execDivu, funext₂ opDivu_eq]
  case h_3 => cases h; rw [exec_rems, execRems, funext₂ opRems_eq]
  case h_4 => cases h; rw [exec_remu, execRemu, funext₂ opRemu_eq]
  case h_5 => cases h

/-! The completion. -/

/-- The poison of a result with two sources is the first origin of the two (R65, R361). -/
theorem result_pair (v : Word) (a b : Reg) : result v [a, b] = { val := v, psn := origin2 a b } := by
  obtain ⟨_, _ | _⟩ := a <;> obtain ⟨_, _ | _⟩ := b <;> rfl

/-- R67 aside, completing with a wait moves past the instruction and begins the wait. -/
theorem completeWaiting_eq {s : State} (h : CanFall s) (w : Wait) (n : Nat) (s' : State) :
    completeWaiting w n s s' = .next (s'.updMe fun c => { c.advance (s.now + n) with wait := w }) := by
  simp [completeWaiting, atLastPc_false h]

/-- Completing with a result and a wait: R67 aside, rd and the copy register are written, the pc moves on, the context waits from there to its cost, and nothing else changes. -/
theorem completeWaiting_writeRd {s : State} (h : CanFall s) (w : Wait) (n : Nat) (rd : XReg) (v : Reg) :
    ∃ t, completeWaiting w n s (s.writeRd rd v) = .next t ∧ WroteX s t rd v
      ∧ t.me.pc = s.me.pc + 4#64 ∧ t.me.pfx = none ∧ t.me.wait = w ∧ t.me.ready = s.now + n ∧ OnlyRegs s.me t.me ∧ OnlyMe s t := by
  obtain ⟨hx, _, hpc, hpfx, hregs, hme⟩ :=
    advance_writeRd s rd v (fun c => { c.advance (s.now + n) with wait := w }) fun _ => rfl
  exact ⟨_, completeWaiting_eq h w n _, hx, hpc, hpfx,
    congrArg Ctx.wait (State.me_updMe _ _), congrArg Ctx.ready (State.me_updMe _ _), hregs, hme⟩

/-- Settles O2: each row is divRR by the stated function, and divRR completes with its result and a wait of 64 i-cycles whatever the operands are. -/
theorem divideResults : Obligations.DivideResults := by
  intro i rd a b f hdiv s hfall
  rw [exec_of_divTwo hdiv, divRR, result_pair]
  exact completeWaiting_writeRd hfall .divide 64 rd _

end Sys2Proof.Machine

/-! PROOF. Translation, fetches and traps (R22, R24, R25, R252 to R255): what a translation and a fetch leave alone, and the double trap of a keeper context. -/

namespace Sys2Proof.Machine

open Sys2Proof.Safety

/-! Canonical addresses. -/

/-- The model's comparison of sign-extended bits [47:0] (R22) says that an address lies in one of the two halves. -/
theorem canonical_iff (a : Word) : canonical a = true ↔ Canonical a := by
  have hlow : (a.extractLsb' 0 48).toNat = a.toNat % 2 ^ 48 := by simp
  have hwide : a.toNat % 2 ^ 48 % 2 ^ 64 = a.toNat % 2 ^ 48 := by omega
  rw [canonical, beq_iff_eq, ← BitVec.toNat_inj, BitVec.toNat_signExtend, BitVec.msb_eq_decide, BitVec.toNat_setWidth, hlow, hwide, Canonical]
  have ha := a.isLt
  by_cases h : 2 ^ 47 ≤ a.toNat % 2 ^ 48
  · rw [decide_eq_true h, if_pos rfl]
    omega
  · rw [decide_eq_false h, if_neg Bool.false_ne_true]
    omega

theorem canonical_eq_false {a : Word} (h : ¬ Canonical a) : canonical a = false := by
  rwa [← Bool.not_eq_true, canonical_iff]

/-! What reading memory and page tables may change: cores and tiles. -/

/-- Nothing changes but cores and tiles: what translations, fetches and window reads may do. -/
def OnlyUnits (s t : State) : Prop := t = { s with cores := t.cores, tiles := t.tiles }

theorem OnlyUnits.refl (s : State) : OnlyUnits s s := rfl

theorem OnlyUnits.trans {s t u : State} (h : OnlyUnits s t) (h' : OnlyUnits t u) : OnlyUnits s u :=
  Eq.trans h' (by rw [h])

theorem OnlyUnits.cur {s t : State} (h : OnlyUnits s t) : t.cur = s.cur := by rw [h]

theorem OnlyUnits.ctxs {s t : State} (h : OnlyUnits s t) : t.ctxs = s.ctxs := by rw [h]

theorem OnlyUnits.me {s t : State} (h : OnlyUnits s t) : t.me = s.me := by
  simp only [State.me, State.ctx, h.cur, h.ctxs]

theorem onlyUnits_updCore (s : State) (k : Nat) (f : Core → Core) : OnlyUnits s (s.updCore k f) := rfl

theorem onlyUnits_updTile (s : State) (k : Nat) (f : Tile → Tile) : OnlyUnits s (s.updTile k f) := rfl

/-- A keeper load changes a tile at most: the window finds an error there (R259, R360). -/
theorem State.kload_onlyUnits {s s1 : State} {a n : Nat} {bs : List Byte} {p : Bool} (h : s.kload a n = .done (s1, bs, p)) :
    OnlyUnits s s1 := by
  unfold State.kload at h
  split at h
  case h_1 => cases h; exact .refl s
  case h_2 => cases h; exact .refl s
  case h_3 => split at h <;> cases h; exact .refl s
  case h_4 =>
    split at h
    · split at h <;> cases h; exact .refl s
    · cases h
  case h_5 => split at h <;> cases h; exact onlyUnits_updTile _ _ _
  case h_6 => cases h

theorem State.readPteHome_onlyUnits (t : Nat) (s : State) (a : Nat) : OnlyUnits s (State.readPteHome t s a).1 :=
  onlyUnits_updTile s t fun x => x.touch .home [a]

theorem State.readPte_onlyUnits (k : Nat) (s : State) (a : Nat) : OnlyUnits s (State.readPte k s a).1 := by
  unfold State.readPte
  split
  · split
    case h_1 => exact .refl s
    case h_2 => exact .refl s
    case h_3 h => exact State.kload_onlyUnits h
  · split
    · exact .refl s
    · exact State.readPteHome_onlyUnits _ _ _

/-- A walk changes what reading its entries changes. -/
theorem walkLevels_onlyUnits {rd : State → Nat → State × PteRead} (hrd : ∀ s a, OnlyUnits s (rd s a).1) (va : Word) (k : AccKind) (priv : BitVec 2)
    (ls : List Nat) (t : Nat) (ptrs : List (Nat × Word)) (s : State) : OnlyUnits s (walkLevels rd va k priv ls t ptrs s).1 := by
  induction ls generalizing t ptrs s with
  | nil => exact .refl s
  | cons lvl ls ih =>
    have hread := hrd s (t + 8 * walkIndex va lvl)
    rw [walkLevels]
    split
    case h_1 h => rwa [h] at hread
    case h_2 h => rwa [h] at hread
    case h_3 s1 e p h =>
      rw [h] at hread
      split_ifs
      · exact hread
      · exact hread
      · exact hread
      · split <;> exact hread
      · exact hread.trans (ih _ _ _)

theorem State.keepWalk_onlyUnits (s : State) (k : Nat) (va : Word) (lvl : Nat) (e : Word) (ptrs : List (Nat × Word)) :
    OnlyUnits s (s.keepWalk k va lvl e ptrs) := by
  unfold State.keepWalk
  split
  · exact onlyUnits_updCore _ _ _
  · exact (onlyUnits_updCore _ _ _).trans (onlyUnits_updTile _ _ _)

theorem State.translate_onlyUnits (s : State) (k : Nat) (priv : BitVec 2) (va : Word) (kind : AccKind) :
    OnlyUnits s (s.translate k priv va kind).1 := by
  unfold State.translate
  split
  · dsimp only
    split <;> exact .refl s
  · have hwalk := walkLevels_onlyUnits (State.readPte_onlyUnits k) va kind priv [1, 2, 3, 4] (s.rootOf k) [] s
    split
    case h_1 h => rw [h] at hwalk; exact hwalk.trans (State.keepWalk_onlyUnits _ _ _ _ _ _)
    all_goals rename_i h; rwa [h] at hwalk

theorem onlyUnits_of_translate {s s1 : State} {k : Nat} {priv : BitVec 2} {va : Word} {kind : AccKind} {r : TransRes}
    (h : s.translate k priv va kind = (s1, r)) : OnlyUnits s s1 := by
  have := s.translate_onlyUnits k priv va kind
  rwa [h] at this

/-! Fetches. -/

/-- What a fetch leaves, in each of its answers that comes with a state. -/
def Fetched.OnlyUnits (s : State) : Fetched → Prop
  | .word u _ => Machine.OnlyUnits s u
  | .accessFault u => Machine.OnlyUnits s u
  | .pageFault u _ _ => Machine.OnlyUnits s u
  | .poison u => Machine.OnlyUnits s u
  | .halted => True

theorem State.fetchLine_onlyUnits {r s : State} (hs : OnlyUnits r s) (pa : Nat) {fill : State → State × Line}
    (hfill : OnlyUnits s (fill s).1) : (s.fetchLine pa fill).OnlyUnits r := by
  unfold State.fetchLine
  cases hl : (s.core (coreOf s.cur)).l1i.find (pa / 64) with
  | some x =>
    simp only [hl]
    split <;> exact hs
  | none =>
    simp only [hl]
    split <;> exact hs.trans (hfill.trans (onlyUnits_updCore _ _ _))

theorem State.fetchTile_onlyUnits {r s : State} (hs : OnlyUnits r s) (pa : Nat) : (s.fetchTile pa).OnlyUnits r :=
  State.fetchLine_onlyUnits hs pa (onlyUnits_updTile s (tileOf s.cur) fun t => t.touch .home [pa])

theorem State.fetchKeeper_onlyUnits {r s : State} (hs : OnlyUnits r s) (a : Nat) : (s.fetchKeeper a).OnlyUnits r := by
  unfold State.fetchKeeper
  split
  case h_1 => exact State.fetchLine_onlyUnits hs a (.refl s)
  case h_2 => exact State.fetchLine_onlyUnits hs a (.refl s)
  case h_3 =>
    split
    case h_1 => exact hs
    case h_2 => trivial
    case h_3 h => split <;> exact hs.trans (State.kload_onlyUnits h)

/-- A fetch changes cores and tiles at most: caches, translations and errors found. -/
theorem State.fetch_onlyUnits (s : State) : s.fetch.OnlyUnits s := by
  unfold State.fetch
  dsimp only
  split_ifs
  · exact .refl s
  · exact State.fetchKeeper_onlyUnits (.refl s) _
  · split
    case h_1 h =>
      have hu := onlyUnits_of_translate h
      split
      · exact State.fetchKeeper_onlyUnits hu _
      · exact State.fetchTile_onlyUnits hu _
    case h_5 => trivial
    all_goals rename_i h; exact onlyUnits_of_translate h

/-- A fetch at a pc that is not canonical faults before anything is read (R22). -/
theorem State.fetch_not_canonical {s : State} (h : ¬ Canonical s.me.pc) : s.fetch = .accessFault s := by
  simp [State.fetch, canonical_eq_false h]

/-- A fetch whose translation fails is a page fault (R254). -/
theorem State.fetch_of_translate_fault {s u : State} {lvl r : Nat} (hc : Canonical s.me.pc) (hk : s.cur < 32768)
    (h : s.translate (myCoreKey s) s.me.priv s.me.pc .fetch = (u, .fault lvl r)) : s.fetch = .pageFault u lvl r := by
  have hkeeper : isKeeper s.cur = false := by rw [isKeeper_iff]; exact decide_eq_false (Nat.not_le.2 hk)
  rw [myCoreKey] at h
  simp [State.fetch, (canonical_iff _).2 hc, hkeeper, coreOf, h]

/-! The page fault and the double trap. -/

/-- A failed translation enters the handler with its level and reason in XLSTAT (R254). -/
theorem translationFault_entered {s : State} (h : s.me.intrap = false) (kind : AccKind) (lvl r : Nat) (va : Word) :
    ∃ t, translationFault kind lvl r va s = .next t
      ∧ Trapped (s.updMe fun c => { c with xlLevel := BitVec.ofNat 4 lvl, xlReason := BitVec.ofNat 4 r }) t kind.cause.code va :=
  raise_entered (by rwa [State.me_updMe]) kind.cause va

/-- A keeper context after a double trap (R25): the trap registers are written, DBL is set, and it is STOPPED. -/
def Ctx.doubleTrapped (c : Ctx) (code : BitVec 8) (v : Word) : Ctx :=
  { c.saveTrap code v with dbl := true, slot := .stopped .double, stopReq := false }

/-- The machine after a double trap of the keeper context that issues: its core's bit in KSTAT is set (R239). -/
def State.doubleTrapped (s : State) (code : BitVec 8) (v : Word) : State :=
  { s.updMe (fun c => c.doubleTrapped code v) with kstopped := s.kstopped ||| (1#4 <<< ((s.cur / 16 - 2048) % 4)) }

/-- A keeper context that has no channel operation and no partition stops at once (R25, R239). -/
theorem State.doubleTrap_keeper {s : State} (hk : 32768 ≤ s.cur) (hchan : s.me.chan = none) (hpart : s.myPart = none) (code : BitVec 8) (v : Word) :
    s.doubleTrap s.cur code v = s.doubleTrapped code v := by
  have hkeeper : isKeeper s.cur = true := by rw [isKeeper_iff]; exact decide_eq_true hk
  have hpart' : (s.core (coreOf s.cur)).partOf (slotOf s.cur) = none := hpart
  have hsave : (s.updCtx s.cur fun x => { x.saveTrap code v with dbl := true }).ctx s.cur = { s.me.saveTrap code v with dbl := true } :=
    State.ctx_updCtx_same _ _ _
  have hupd := s.updMe_updMe (fun x => { x.saveTrap code v with dbl := true }) fun x => { x with slot := .stopped .double, stopReq := false, wait := .no }
  simp only [State.updMe, State.updCtx_cur] at hupd
  simp only [State.doubleTrap, State.stopCtx, State.queueBusy, State.core_updCtx, hpart', State.haltCtx, State.withdraw, hsave,
    show (s.me.saveTrap code v).chan = none from hchan, State.updPartOf, Bool.false_eq_true, if_false, State.slotStopped, hkeeper, if_true]
  rw [hupd]
  rfl

/-- A synchronous trap of such a context while INTRAP = 1 (R25). -/
theorem raise_double {s : State} (hin : s.me.intrap = true) (hk : 32768 ≤ s.cur) (hchan : s.me.chan = none) (hpart : s.myPart = none)
    {cause : Cause} (hcause : cause.code.toNat < 0x80) (v : Word) : raise cause v s = .next (s.doubleTrapped cause.code v) := by
  have hin' : (s.ctx s.cur).intrap = true := hin
  rw [raise, State.takeTrap, State.takeTrapAt, hin', decide_eq_true hcause, Bool.and_self, if_pos rfl, State.doubleTrap_keeper hk hchan hpart]

@[simp] theorem State.doubleTrapped_me (s : State) (code : BitVec 8) (v : Word) : (s.doubleTrapped code v).me = s.me.doubleTrapped code v :=
  State.me_updMe s fun c => c.doubleTrapped code v

/-- The bit of the core in KSTAT (R239). -/
theorem State.doubleTrapped_kstopped (s : State) (code : BitVec 8) (v : Word) :
    (s.doubleTrapped code v).kstopped.getLsbD ((s.cur / 16 - 2048) % 4) = true := by
  have : (s.cur / 16 - 2048) % 4 < 4 := Nat.mod_lt _ (by decide)
  simp [State.doubleTrapped, this]

/-- A pending PFX word is saved, and with none PFXSAVE keeps its value (R24). -/
theorem Ctx.doubleTrapped_pfxsave (c : Ctx) (code : BitVec 8) (v : Word) :
    (∀ w, c.pfx = some w → (c.doubleTrapped code v).pfxsave = w) ∧ (c.pfx = none → (c.doubleTrapped code v).pfxsave = c.pfxsave) :=
  ⟨fun _ hw => congrArg (·.getD c.pfxsave) hw, fun hw => congrArg (·.getD c.pfxsave) hw⟩

/-- Settles O6: each cause is raised by the rule for trap entry, a fetch being followed to the answer that it gives, and a second trap of a keeper context ends in the state that the double trap computes. -/
theorem trapsAreTaken : Obligations.TrapsAreTaken := by
  refine ⟨fun s hin => ⟨raise_entered hin .ecall 0#64, raise_entered hin .ebreak 0#64⟩, ?_, fun s hin => ⟨?_, ?_, ?_, ?_, ?_, ?_⟩⟩
  · intro s hin hk hchan hpart i cause hi
    have hraise : ∃ c : Cause, exec i s = raise c 0#64 s ∧ c.code = cause ∧ c.code.toNat < 0x80 := by
      rcases hi with ⟨rfl, rfl⟩ | ⟨rfl, rfl⟩
      · exact ⟨.ecall, rfl, rfl, by decide⟩
      · exact ⟨.ebreak, rfl, rfl, by decide⟩
    obtain ⟨c, hexec, rfl, hsync⟩ := hraise
    obtain ⟨hpfx, hnopfx⟩ := s.me.doubleTrapped_pfxsave c.code 0#64
    obtain ⟨_, hothers, hmem⟩ := onlyMe_updMe s fun x => x.doubleTrapped c.code 0#64
    refine ⟨_, hexec.trans (raise_double hin hk hchan hpart hsync 0#64), rfl, ?_⟩
    rw [State.doubleTrapped_me]
    exact ⟨rfl, rfl, rfl, rfl, rfl, rfl, hpfx, hnopfx, rfl, rfl, rfl, rfl, rfl, rfl, s.doubleTrapped_kstopped _ _, hothers, hmem⟩
  · exact fun w => raise_entered hin .illegalInsn _
  · intro hc
    rw [exec_pageFaultFetch, execPageFaultFetch, State.fetch_not_canonical hc]
    exact raise_entered hin .accessFault s.me.pc
  · intro u lvl r hc hk h
    have hu := onlyUnits_of_translate h
    rw [exec_pageFaultFetch, execPageFaultFetch, State.fetch_of_translate_fault hc hk h]
    obtain ⟨t, ht, hentry, _⟩ := translationFault_entered (hu.me ▸ hin) .fetch lvl r u.me.pc
    refine ⟨t, ht, ?_⟩
    simp only [State.updMe_cur, hu.cur] at hentry
    have hme : (u.updMe fun c => { c with xlLevel := BitVec.ofNat 4 lvl, xlReason := BitVec.ofNat 4 r }).ctx s.cur =
        { s.me with xlLevel := BitVec.ofNat 4 lvl, xlReason := BitVec.ofNat 4 r } := by
      rw [← hu.cur, ← hu.me]
      exact State.me_updMe _ _
    rw [hentry, hme, hu.me]
    exact ⟨rfl, rfl, rfl, rfl, rfl, rfl, rfl⟩
  · intro u h
    have hu : OnlyUnits s u := by
      have := s.fetch_onlyUnits
      rwa [h] at this
    rw [exec_pageFaultFetch, execPageFaultFetch, h, ← hu.me]
    exact raise_entered (hu.me ▸ hin) .poison u.me.pc
  · intro u w h
    rw [exec_pageFaultFetch, execPageFaultFetch, h]
  · intro h
    rw [exec_pageFaultFetch, execPageFaultFetch, h]

end Sys2Proof.Machine

/-! PROOF. Scalar memory accesses (R22, R81, R84, R89): the instructions of a form as one operation, the checks of an address in their order, the number that a load makes of its bytes, and completion with a reply to wait for. -/

namespace Sys2Proof.Machine

open Sys2Proof.Safety

/-! The instructions of a form. -/

/-- The effective address of R84, computed on words and on integers. -/
theorem effAddr_eq_addressOf (base : Word) (off : BitVec 12) : effAddr base off = addressOf base off := by
  rw [effAddr, addressOf, BitVec.ofInt_add, BitVec.ofInt_natCast, BitVec.ofNat_toNat, BitVec.setWidth_eq, BitVec.signExtend]

/-- The sizes of a scalar access (R81). -/
def AccessSize (n : Nat) : Prop := n = 1 ∨ n = 2 ∨ n = 4 ∨ n = 8

theorem accessSize_two_pow (z : BitVec 2) : AccessSize (2 ^ z.toNat) := by
  have hz : z.toNat < 4 := z.isLt
  unfold AccessSize
  interval_cases z.toNat <;> simp

/-- 64 bits are not widened. -/
theorem widened_64 (v : Nat) (sg : Bool) : widened 64 v sg = BitVec.ofNat 64 v := by
  cases sg
  · simp [widened]
  · simp [widened, BitVec.signExtend_eq]

/-- The loads of R84, with the widening that the form states; that of LD has no effect. -/
theorem exec_of_loadForm {i : Instr} {n : Nat} {sg : Bool} {rd base : XReg} {aq : BitVec 1} {off : BitVec 12}
    (h : loadForm i = some (n, sg, rd, base, aq, off)) :
    AccessSize n ∧ ∃ sg', (∀ s, exec i s = load n sg' rd base aq off s) ∧ ∀ v, widened (8 * n) v sg' = widened (8 * n) v sg := by
  unfold loadForm at h
  split at h
  case h_1 => cases h; exact ⟨.inl rfl, _, fun s => by rw [exec_lb, execLb], fun _ => rfl⟩
  case h_2 => cases h; exact ⟨.inl rfl, _, fun s => by rw [exec_lbu, execLbu], fun _ => rfl⟩
  case h_3 => cases h; exact ⟨.inr (.inl rfl), _, fun s => by rw [exec_lh, execLh], fun _ => rfl⟩
  case h_4 => cases h; exact ⟨.inr (.inl rfl), _, fun s => by rw [exec_lhu, execLhu], fun _ => rfl⟩
  case h_5 => cases h; exact ⟨.inr (.inr (.inl rfl)), _, fun s => by rw [exec_lw, execLw], fun _ => rfl⟩
  case h_6 => cases h; exact ⟨.inr (.inr (.inl rfl)), _, fun s => by rw [exec_lwu, execLwu], fun _ => rfl⟩
  case h_7 => cases h; exact ⟨.inr (.inr (.inr rfl)), _, fun s => by rw [exec_ld, execLd], fun v => by rw [widened_64, widened_64]⟩
  case h_8 => cases h

theorem exec_of_storeForm {i : Instr} {n : Nat} {rs base : XReg} {rl : BitVec 1} {off : BitVec 12}
    (h : storeForm i = some (n, rs, base, rl, off)) : AccessSize n ∧ ∀ s, exec i s = store n rs base rl off s := by
  unfold storeForm at h
  split at h
  case h_1 => cases h; exact ⟨.inl rfl, fun s => by rw [exec_sb, execSb]⟩
  case h_2 => cases h; exact ⟨.inr (.inl rfl), fun s => by rw [exec_sh, execSh]⟩
  case h_3 => cases h; exact ⟨.inr (.inr (.inl rfl)), fun s => by rw [exec_sw, execSw]⟩
  case h_4 => cases h; exact ⟨.inr (.inr (.inr rfl)), fun s => by rw [exec_sd, execSd]⟩
  case h_5 => cases h

/-- A two's complement number of w bits as a bit vector has it (R89). -/
theorem signedOf_eq_toInt {w v : Nat} (hw : 0 < w) (hv : v < 2 ^ w) : signedOf w v = (BitVec.ofNat w v).toInt := by
  obtain ⟨w, rfl⟩ := Nat.exists_eq_succ_of_ne_zero hw.ne'
  rw [signedOf, BitVec.toInt_eq_toNat_cond, BitVec.toNat_ofNat, Nat.mod_eq_of_lt hv, Nat.succ_sub_one, pow_succ]
  push_cast
  split_ifs <;> omega

/-- The nine read-modify-write forms (R89): the operation whose new value and whose widening the form states. -/
theorem exec_of_atomicForm {i : Instr} {rd rs1 rs2 : XReg} {rl : BitVec 1} {z : BitVec 2} {sg : Bool} {f : Nat → Nat → Nat → Nat}
    (h : atomicForm i = some (rd, rs1, rs2, rl, z, sg, f)) :
    ∃ op : AtomicOp, op ≠ .cas ∧ (∀ s, exec i s = atomic op rd rs1 rs2 rl z s)
      ∧ (∀ bs p va src, (atomicReturn op bs p va src).val = (loaded bs sg p va).val)
      ∧ ∀ w o v, 0 < w → o < 2 ^ w → v < 2 ^ w → op.apply w o v = f w o v := by
  unfold atomicForm at h
  split at h
  case h_1 => cases h; exact ⟨.swap, nofun, fun s => by rw [exec_aswap, execAswap], fun _ _ _ _ => rfl, fun _ _ _ _ _ _ => rfl⟩
  case h_2 => cases h; exact ⟨.add, nofun, fun s => by rw [exec_aadd, execAadd], fun _ _ _ _ => rfl, fun _ _ _ _ _ _ => rfl⟩
  case h_3 => cases h; exact ⟨.and, nofun, fun s => by rw [exec_aand, execAand], fun _ _ _ _ => rfl, fun _ _ _ _ _ _ => rfl⟩
  case h_4 => cases h; exact ⟨.or, nofun, fun s => by rw [exec_aor, execAor], fun _ _ _ _ => rfl, fun _ _ _ _ _ _ => rfl⟩
  case h_5 => cases h; exact ⟨.xor, nofun, fun s => by rw [exec_axor, execAxor], fun _ _ _ _ => rfl, fun _ _ _ _ _ _ => rfl⟩
  case h_6 =>
    cases h
    refine ⟨.min, nofun, fun s => by rw [exec_amin, execAmin], fun _ _ _ _ => rfl, fun w o v hw ho hv => ?_⟩
    simp only [AtomicOp.apply, signedOf_eq_toInt hw ho, signedOf_eq_toInt hw hv]
  case h_7 =>
    cases h
    refine ⟨.max, nofun, fun s => by rw [exec_amax, execAmax], fun _ _ _ _ => rfl, fun w o v hw ho hv => ?_⟩
    simp only [AtomicOp.apply, signedOf_eq_toInt hw ho, signedOf_eq_toInt hw hv]
  case h_8 => cases h; exact ⟨.minu, nofun, fun s => by rw [exec_aminu, execAminu], fun _ _ _ _ => rfl, fun _ _ _ _ _ _ => rfl⟩
  case h_9 => cases h; exact ⟨.maxu, nofun, fun s => by rw [exec_amaxu, execAmaxu], fun _ _ _ _ => rfl, fun _ _ _ _ _ _ => rfl⟩
  case h_10 => cases h

/-! The checks of an access. -/

/-- The first poisoned of some registers, by value and by name (R361). -/
theorem firstPoison_map (s : State) (rs : List XReg) : firstPoison (rs.map s.x) = firstOrigin s rs := by
  induction rs with
  | nil => rfl
  | cons r rs ih =>
    rw [List.map_cons, firstPoison, firstOrigin, List.filterMap_cons]
    cases (s.x r).psn with
    | none => exact ih
    | some o => rfl

theorem firstOrigin_singleton (s : State) (r : XReg) : firstOrigin s [r] = (s.x r).psn := by
  rw [firstOrigin, List.filterMap_cons]
  cases (s.x r).psn <;> rfl

theorem needClean_poisoned {s : State} {rs : List XReg} {o : Word} (h : firstOrigin s rs = some o) (k : Unit → Out) :
    needClean (rs.map s.x) s k = raise .poison o s := by
  rw [needClean, firstPoison_map, h]

theorem needClean_clean {s : State} {rs : List XReg} (h : firstOrigin s rs = none) (k : Unit → Out) :
    needClean (rs.map s.x) s k = k () := by
  rw [needClean, firstPoison_map, h]

theorem withAddr_not_canonical {va : Word} (h : ¬ Canonical va) (n : Nat) (kind : AccKind) (s : State) (k : State → Loc → Out) :
    withAddr va n kind s k = raise .accessFault va s := by
  simp [withAddr, canonical_eq_false h]

theorem withAddr_misaligned {va : Word} {n : Nat} (hc : Canonical va) (ha : va.toNat % n ≠ 0) (kind : AccKind) (s : State) (k : State → Loc → Out) :
    withAddr va n kind s k = raise .misaligned va s := by
  simp [withAddr, (canonical_iff va).2 hc, ha]

/-- A keeper context at M reaches keeper-physical addresses, and no other context does (R254). -/
theorem untranslated_iff (s : State) : (isKeeper s.cur && s.me.priv == 3#2) = true ↔ 32768 ≤ s.cur ∧ s.me.priv = 3#2 := by
  rw [isKeeper_iff, Bool.and_eq_true, decide_eq_true_iff, beq_iff_eq]

theorem withAddr_keeper {s : State} {va : Word} {n : Nat} (hc : Canonical va) (ha : va.toNat % n = 0) (hk : 32768 ≤ s.cur) (hp : s.me.priv = 3#2)
    (kind : AccKind) (k : State → Loc → Out) : withAddr va n kind s k = k s (.keeper va.toNat) := by
  have hm := (untranslated_iff s).2 ⟨hk, hp⟩
  simp only [withAddr, (canonical_iff va).2 hc, ha, hm, Bool.not_true, Bool.false_eq_true, if_false, bne_self_eq_false, if_true]

theorem withAddr_translated {s s1 : State} {va : Word} {n : Nat} {kind : AccKind} {r : TransRes} (hc : Canonical va) (ha : va.toNat % n = 0)
    (hm : s.cur < 32768 ∨ s.me.priv ≠ 3#2) (h : s.translate (s.cur / 16) s.me.priv va kind = (s1, r)) (k : State → Loc → Out) :
    withAddr va n kind s k = match r with
      | .ok pa => k s1 (if isKeeper s.cur then .keeper pa else .tile pa)
      | .fault lvl r => translationFault kind lvl r va s1
      | .poison => raise .poison va s1
      | .absent => raise .accessFault va s1
      | .halted => waitOn .memReply s1 := by
  have hm' : (isKeeper s.cur && s.me.priv == 3#2) = false := by
    rw [← Bool.not_eq_true, untranslated_iff]
    rintro ⟨hk, hp⟩
    exact hm.elim (Nat.not_lt.2 hk) fun hne => hne hp
  simp only [withAddr, (canonical_iff va).2 hc, ha, hm', Bool.not_true, Bool.false_eq_true, if_false, bne_self_eq_false, coreOf, h]
  cases r <;> rfl

/-! The checks of the scalar memory instructions. -/

/-- An access that makes the checks of R81 first: registers whose poison it contains, then its address. -/
def Checked (i : Instr) (s : State) (rs : List XReg) (va : Word) (n : Nat) (kind : AccKind) : Prop :=
  ∃ k, exec i s = needClean (rs.map s.x) s fun _ => withAddr va n kind s k

theorem checked_of_load {i : Instr} {s : State} {n : Nat} {sg : Bool} {rd base : XReg} {aq : BitVec 1} {off : BitVec 12}
    (h : exec i s = load n sg rd base aq off s) : Checked i s [base] (addressOf (s.x base).val off) n .load := by
  rw [Checked, ← effAddr_eq_addressOf, h]
  exact ⟨_, rfl⟩

theorem checked_of_store {i : Instr} {s : State} {n : Nat} {rs base : XReg} {rl : BitVec 1} {off : BitVec 12}
    (h : exec i s = store n rs base rl off s) : Checked i s [base] (addressOf (s.x base).val off) n .store := by
  rw [Checked, ← effAddr_eq_addressOf, h]
  exact ⟨_, rfl⟩

theorem checked_of_atomic {i : Instr} {s : State} {op : AtomicOp} {rd rs1 rs2 : XReg} {rl : BitVec 1} {z : BitVec 2} {rs : List XReg}
    (h : exec i s = atomic op rd rs1 rs2 rl z s) (hrs : atomicChecked op rd rs1 rs2 s = rs.map s.x) :
    Checked i s rs (s.x rs1).val (2 ^ z.toNat) .store := by
  rw [Checked, ← hrs, h]
  exact ⟨_, rfl⟩

theorem checked_of_cacheOp {i : Instr} {s : State} {kind : AccKind} {act : State → Nat → State} {b : XReg}
    (h : exec i s = cacheOp kind act b s) : Checked i s [b] (s.x b).val 1 kind := by
  rw [Checked, h]
  exact ⟨_, rfl⟩

/-- Every scalar memory instruction of R81 makes its checks first; none is a fetch. -/
theorem checked_of_memForm {s : State} {i : Instr} {b : XReg} {va : Word} {n : Nat} {kind : AccKind} (h : memForm s i = some (b, va, n, kind)) :
    Checked i s [b] va n kind ∧ kind ≠ .fetch := by
  unfold memForm at h
  split at h
  case h_1 => cases h; exact ⟨checked_of_load (by rw [exec_lb, execLb]), nofun⟩
  case h_2 => cases h; exact ⟨checked_of_load (by rw [exec_lbu, execLbu]), nofun⟩
  case h_3 => cases h; exact ⟨checked_of_load (by rw [exec_lh, execLh]), nofun⟩
  case h_4 => cases h; exact ⟨checked_of_load (by rw [exec_lhu, execLhu]), nofun⟩
  case h_5 => cases h; exact ⟨checked_of_load (by rw [exec_lw, execLw]), nofun⟩
  case h_6 => cases h; exact ⟨checked_of_load (by rw [exec_lwu, execLwu]), nofun⟩
  case h_7 => cases h; exact ⟨checked_of_load (by rw [exec_ld, execLd]), nofun⟩
  case h_8 => cases h; exact ⟨checked_of_store (by rw [exec_sb, execSb]), nofun⟩
  case h_9 => cases h; exact ⟨checked_of_store (by rw [exec_sh, execSh]), nofun⟩
  case h_10 => cases h; exact ⟨checked_of_store (by rw [exec_sw, execSw]), nofun⟩
  case h_11 => cases h; exact ⟨checked_of_store (by rw [exec_sd, execSd]), nofun⟩
  case h_12 => cases h; exact ⟨checked_of_atomic (by rw [exec_aswap, execAswap]) rfl, nofun⟩
  case h_13 => cases h; exact ⟨checked_of_atomic (by rw [exec_aadd, execAadd]) rfl, nofun⟩
  case h_14 => cases h; exact ⟨checked_of_atomic (by rw [exec_aand, execAand]) rfl, nofun⟩
  case h_15 => cases h; exact ⟨checked_of_atomic (by rw [exec_aor, execAor]) rfl, nofun⟩
  case h_16 => cases h; exact ⟨checked_of_atomic (by rw [exec_axor, execAxor]) rfl, nofun⟩
  case h_17 => cases h; exact ⟨checked_of_atomic (by rw [exec_amin, execAmin]) rfl, nofun⟩
  case h_18 => cases h; exact ⟨checked_of_atomic (by rw [exec_amax, execAmax]) rfl, nofun⟩
  case h_19 => cases h; exact ⟨checked_of_atomic (by rw [exec_aminu, execAminu]) rfl, nofun⟩
  case h_20 => cases h; exact ⟨checked_of_atomic (by rw [exec_amaxu, execAmaxu]) rfl, nofun⟩
  case h_21 => cases h; exact ⟨checked_of_cacheOp (by rw [exec_dcclean, execDcclean]), nofun⟩
  case h_22 => cases h; exact ⟨checked_of_cacheOp (by rw [exec_dcflush, execDcflush]), nofun⟩
  case h_23 => cases h; exact ⟨checked_of_cacheOp (by rw [exec_icinv, execIcinv]), nofun⟩
  case h_24 => cases h

theorem checked_acas (rd a b : XReg) (aq rl : BitVec 1) (z : BitVec 2) (s : State) :
    Checked (.acas rd a b aq rl z) s [a, rd, b] (s.x a).val (2 ^ z.toNat) .store :=
  checked_of_atomic (by rw [exec_acas, execAcas]) rfl

section
variable {i : Instr} {s : State} {rs : List XReg} {va : Word} {n : Nat} {kind : AccKind} (hi : Checked i s rs va n kind)
include hi

/-- A poisoned register comes first (R81, R363). -/
theorem Checked.poisoned (hin : s.me.intrap = false) {o : Word} (h : firstOrigin s rs = some o) :
    ∃ t, exec i s = .next t ∧ Trapped s t 0x10#8 o := by
  obtain ⟨k, hk⟩ := hi
  rw [hk, needClean_poisoned h]
  exact raise_entered hin .poison o

variable (hclean : firstOrigin s rs = none)
include hclean

theorem Checked.exec_eq : ∃ k, exec i s = withAddr va n kind s k := by
  obtain ⟨k, hk⟩ := hi
  exact ⟨k, hk.trans (needClean_clean hclean _)⟩

/-- Then canonical form (R22). -/
theorem Checked.not_canonical (hin : s.me.intrap = false) (hc : ¬ Canonical va) : ∃ t, exec i s = .next t ∧ Trapped s t 0x07#8 va := by
  obtain ⟨k, hk⟩ := hi.exec_eq hclean
  rw [hk, withAddr_not_canonical hc]
  exact raise_entered hin .accessFault va

variable (hc : Canonical va)
include hc

/-- Then alignment (R80). -/
theorem Checked.misaligned (hin : s.me.intrap = false) (ha : va.toNat % n ≠ 0) : ∃ t, exec i s = .next t ∧ Trapped s t 0x03#8 va := by
  obtain ⟨k, hk⟩ := hi.exec_eq hclean
  rw [hk, withAddr_misaligned hc ha]
  exact raise_entered hin .misaligned va

variable (ha : va.toNat % n = 0) (hm : s.cur < 32768 ∨ s.me.priv ≠ 3#2)
include ha hm

/-- Then translation: one that fails is a page fault, with level and reason in XLSTAT (R254). -/
theorem Checked.pageFault (hin : s.me.intrap = false) {s1 : State} {lvl r : Nat} (h : s.translate (s.cur / 16) s.me.priv va kind = (s1, .fault lvl r)) :
    ∃ t, exec i s = .next t
      ∧ Trapped (s1.updMe fun c => { c with xlLevel := BitVec.ofNat 4 lvl, xlReason := BitVec.ofNat 4 r }) t kind.cause.code va := by
  obtain ⟨k, hk⟩ := hi.exec_eq hclean
  rw [hk, withAddr_translated hc ha hm h]
  exact translationFault_entered ((onlyUnits_of_translate h).me ▸ hin) kind lvl r va

/-- A walk that meets a poisoned entry (R254). -/
theorem Checked.poisonedEntry (hin : s.me.intrap = false) {s1 : State} (h : s.translate (s.cur / 16) s.me.priv va kind = (s1, .poison)) :
    ∃ t, exec i s = .next t ∧ Trapped s1 t 0x10#8 va := by
  obtain ⟨k, hk⟩ := hi.exec_eq hclean
  rw [hk, withAddr_translated hc ha hm h]
  exact raise_entered ((onlyUnits_of_translate h).me ▸ hin) .poison va

/-- A walk that meets an address where nothing lies (R258). -/
theorem Checked.absentEntry (hin : s.me.intrap = false) {s1 : State} (h : s.translate (s.cur / 16) s.me.priv va kind = (s1, .absent)) :
    ∃ t, exec i s = .next t ∧ Trapped s1 t 0x07#8 va := by
  obtain ⟨k, hk⟩ := hi.exec_eq hclean
  rw [hk, withAddr_translated hc ha hm h]
  exact raise_entered ((onlyUnits_of_translate h).me ▸ hin) .accessFault va

end

/-! The number that a load makes of its bytes. -/

theorem Memory.bytes_length (m : Memory) (a n : Nat) : (m.bytes a n).length = n := by
  rw [Memory.bytes, List.length_map, List.length_range]

/-- The bytes of a memory as one number, lowest address first (R7). -/
theorem leNat_bytes (m : Memory) (a n : Nat) : leNat (m.bytes a n) = numberAt m a n := by
  induction n generalizing a with
  | zero => rfl
  | succ n ih =>
    have htail : (List.range n).map ((fun i => m.byte (a + i)) ∘ Nat.succ) = m.bytes (a + 1) n :=
      List.map_congr_left fun i _ => congrArg m.byte (by omega)
    have hsum : (List.range n).map ((fun i => (m.byte (a + i)).toNat * 256 ^ i) ∘ Nat.succ)
        = (List.range n).map fun i => 256 * ((m.byte (a + 1 + i)).toNat * 256 ^ i) := by
      refine List.map_congr_left fun i _ => ?_
      rw [Function.comp, show a + i.succ = a + 1 + i by omega, pow_succ]
      ring
    rw [Memory.bytes, numberAt, List.range_succ_eq_map, List.map_cons, List.map_cons, List.map_map, List.map_map, htail, hsum,
      List.sum_cons, List.sum_map_mul_left, leNat, ih, numberAt]
    simp

theorem leNat_lt (bs : List Byte) : leNat bs < 2 ^ (8 * bs.length) := by
  induction bs with
  | nil => exact Nat.one_pos
  | cons b bs ih =>
    have hb := b.isLt
    rw [leNat, List.length_cons, Nat.mul_succ, pow_add]
    omega

theorem numberAt_lt (m : Memory) (a n : Nat) : numberAt m a n < 2 ^ (8 * n) := by
  have h := leNat_lt (m.bytes a n)
  rwa [leNat_bytes, Memory.bytes_length] at h

/-- Adding 2^64 - 2^w to a negative w-bit number is what sign extension does (R84). -/
theorem widened_eq {w v : Nat} (hw : w ≤ 64) (hv : v < 2 ^ w) (sg : Bool) :
    BitVec.ofNat 64 (if sg && v ≥ 2 ^ (w - 1) then v + 2 ^ 64 - 2 ^ w else v) = widened w v sg := by
  have hle : 2 ^ w ≤ 2 ^ 64 := Nat.pow_le_pow_right (by decide) hw
  have hmsb : (BitVec.ofNat w v).msb = decide (2 ^ (w - 1) ≤ v) := by rw [BitVec.msb_eq_decide, BitVec.toNat_ofNat, Nat.mod_eq_of_lt hv]
  cases sg with
  | false =>
    apply BitVec.eq_of_toNat_eq
    simp [widened, Nat.mod_eq_of_lt hv]
  | true =>
    apply BitVec.eq_of_toNat_eq
    rw [widened, if_pos rfl, BitVec.toNat_signExtend, hmsb, BitVec.toNat_setWidth, BitVec.toNat_ofNat, BitVec.toNat_ofNat, Nat.mod_eq_of_lt hv,
      Nat.mod_eq_of_lt (hv.trans_le hle)]
    simp only [Bool.true_and, ge_iff_le, decide_eq_true_eq]
    split_ifs <;> omega

/-- What a load makes of bytes (R84). -/
theorem loaded_val {bs : List Byte} (h : AccessSize bs.length) (sg p : Bool) (va : Word) :
    (loaded bs sg p va).val = widened (8 * bs.length) (leNat bs) sg := by
  have hpos : 0 < bs.length ∧ bs.length ≤ 8 := by
    unfold AccessSize at h
    omega
  exact widened_eq (by omega) (leNat_lt bs) sg

theorem loaded_bytes_val {n : Nat} (h : AccessSize n) (m : Memory) (a : Nat) (sg p : Bool) (va : Word) :
    (loaded (m.bytes a n) sg p va).val = widened (8 * n) (numberAt m a n) sg := by
  have hlen := m.bytes_length a n
  rw [loaded_val (hlen.symm ▸ h), hlen, leNat_bytes]

/-- Eight clean bytes give back the word that they were made of. -/
theorem loaded_leBytes_eight {v : Nat} (hv : v < 2 ^ 64) (sg : Bool) (va : Word) :
    loaded (leBytes 8 v) sg false va = Reg.clean (BitVec.ofNat 64 v) := by
  have hlen := leBytes_length 8 v
  have hval : (loaded (leBytes 8 v) sg false va).val = BitVec.ofNat 64 v := by
    rw [loaded_val (hlen.symm ▸ .inr (.inr (.inr rfl))), hlen, widened_64, leNat_leBytes, Nat.mod_eq_of_lt (by simpa using hv)]
  exact congrArg (fun w => ({ val := w, psn := none } : Reg)) hval

/-! The bytes that a store writes. -/

theorem leBytes_getD {n i : Nat} (h : i < n) (v : Nat) : (leBytes n v).getD i 0#8 = BitVec.ofNat 8 (v / 256 ^ i) := by
  induction n generalizing i v with
  | zero => exact absurd h (Nat.not_lt_zero _)
  | succ n ih =>
    cases i with
    | zero => simp [leBytes]
    | succ i => rw [leBytes, List.getD_cons_succ, ih (Nat.lt_of_succ_lt_succ h), Nat.div_div_eq_div_mul, pow_succ, Nat.mul_comm]

/-- A read after a write of n little-endian bytes of a number. -/
theorem Memory.byte_write_leBytes {m : Memory} (h : m.wf = true) (a n v : Nat) (p : Bool) (x : Nat) :
    (m.write (wbytes a (leBytes n v) p)).byte x = if a ≤ x ∧ x < a + n then BitVec.ofNat 8 (v / 256 ^ (x - a)) else m.byte x := by
  rw [Memory.byte_write_wbytes h, leBytes_length]
  refine if_ctx_congr Iff.rfl (fun hx => leBytes_getD (by omega) v) fun _ => rfl

/-! Completion with a reply to wait for. -/

/-- A load completes: its effect outside the context stands in s1, and rd takes its value (R85). -/
theorem completeWaiting_loaded {s s1 : State} (h : CanFall s) (hcur : s1.cur = s.cur) (hctxs : s1.ctxs = s.ctxs) (rd : XReg) (v : Reg) :
    ∃ t, completeWaiting .memReply 16 s (s1.writeRd rd v) = .next t ∧ WroteX s t rd v ∧ Sent s t ∧ OnlyRegs s.me t.me ∧ OnlyMe s1 t := by
  have hme : s1.me = s.me := by simp only [State.me, State.ctx, hcur, hctxs]
  obtain ⟨hx, htcur, hpc, hpfx, hregs, honly⟩ :=
    advance_writeRd s1 rd v (fun c => { c.advance (s.now + 16) with wait := .memReply }) fun _ => rfl
  have hwait : ((s1.writeRd rd v).updMe fun c => { c.advance (s.now + 16) with wait := .memReply }).me.wait = .memReply :=
    congrArg Ctx.wait (State.me_updMe _ _)
  simp only [WroteX, State.x, hme] at hx
  rw [hme] at hpc hregs
  exact ⟨_, completeWaiting_eq h _ _ _, hx, ⟨htcur.trans hcur, hpc, hpfx, hwait⟩, hregs, honly⟩

/-- A store completes: its effect outside the context stands in s1 (R85). -/
theorem completeWaiting_stored {s s1 : State} (h : CanFall s) (hcur : s1.cur = s.cur) (hctxs : s1.ctxs = s.ctxs) :
    ∃ t, completeWaiting .memReply 16 s s1 = .next t ∧ Sent s t ∧ OnlyPc s.me t.me ∧ OnlyMe s1 t := by
  have hme : s1.me = s.me := by simp only [State.me, State.ctx, hcur, hctxs]
  have htme := State.me_updMe s1 fun c => { c.advance (s.now + 16) with wait := .memReply }
  rw [hme] at htme
  refine ⟨_, completeWaiting_eq h _ _ _, ⟨hcur, ?_, ?_, ?_⟩, ?_, onlyMe_updMe _ _⟩
  · rw [htme, Ctx.advance_pc]
  · rw [htme, Ctx.advance_pfx]
  · rw [htme]
  · rw [htme]
    rfl

/-- A wait that begins with no effect so far. -/
theorem waitOn_memReply (s : State) : ∃ t, waitOn .memReply s = .next t ∧ HaltWait s t :=
  ⟨_, rfl, rfl, State.me_updMe _ _, onlyMe_updMe _ _⟩

end Sys2Proof.Machine

/-! PROOF. The keeper-physical map (R258, R259, R399 to R401, R412): what lies at an address, what a load, store or atomic of a keeper context at M does there, and the tile behind the window. -/

namespace Sys2Proof.Machine

open Sys2Proof.Safety

/-! What lies at an address. -/

theorem kregion_plain {a : Nat} (h : KeeperPlain a) : kregion a = .plain := by
  rcases h with h | h <;> simp [kregion, h]

theorem kregion_flash {a : Nat} (h : 0x2000000000 ≤ a) (h' : a < 0x2004000000) : kregion a = .flash := by
  have h1 : ¬ a < 0x10000000 := by omega
  have h2 : ¬ a < 0x1040000000 := by omega
  simp [kregion, h, h', h1, h2]

theorem kregion_routing {a : Nat} (h : 0x3000000000 ≤ a) (h' : a < 0x3000001000) : kregion a = .routing ((a - 0x3000000000) / 8) := by
  have h1 : ¬ a < 0x10000000 := by omega
  have h2 : ¬ a < 0x1040000000 := by omega
  have h3 : ¬ a < 0x2004000000 := by omega
  simp [kregion, h, h', h1, h2, h3]

theorem kregion_power {a : Nat} (h : 0x4000000000 ≤ a) (h' : a < 0x4000010000) :
    kregion a = .power ((a - 0x4000000000) / 256) ((a - 0x4000000000) % 256) := by
  have h1 : ¬ a < 0x10000000 := by omega
  have h2 : ¬ a < 0x1040000000 := by omega
  have h3 : ¬ a < 0x2004000000 := by omega
  have h4 : ¬ a < 0x3000001000 := by omega
  simp [kregion, h, h', h1, h2, h3, h4]

theorem kregion_routing_entry {m : Nat} (hm : m < 512) : kregion (0x3000000000 + 8 * m) = .routing m := by
  rw [kregion_routing (by omega) (by omega), Nat.add_sub_cancel_left, Nat.mul_div_cancel_left m (by decide)]

theorem kregion_power_register {k off : Nat} (hk : k < 256) (hoff : off < 256) : kregion (0x4000000000 + 256 * k + off) = .power k off := by
  have hdiv : (0x4000000000 + 256 * k + off - 0x4000000000) / 256 = k := by omega
  have hmod : (0x4000000000 + 256 * k + off - 0x4000000000) % 256 = off := by omega
  rw [kregion_power (by omega) (by omega), hdiv, hmod]

theorem kregion_window {k pa : Nat} (hk : k < 256) (hpa : pa < 2 ^ 31) : kregion (2 ^ 39 + 2 ^ 31 * k + pa) = .window k pa := by
  have h1 : ¬ 2 ^ 39 + 2 ^ 31 * k + pa < 0x10000000 := by omega
  have h2 : ¬ 2 ^ 39 + 2 ^ 31 * k + pa < 0x1040000000 := by omega
  have h3 : ¬ 2 ^ 39 + 2 ^ 31 * k + pa < 0x2004000000 := by omega
  have h4 : ¬ 2 ^ 39 + 2 ^ 31 * k + pa < 0x3000001000 := by omega
  have h5 : ¬ 2 ^ 39 + 2 ^ 31 * k + pa < 0x4000010000 := by omega
  have h6 : 2 ^ 39 ≤ 2 ^ 39 + 2 ^ 31 * k + pa ∧ 2 ^ 39 + 2 ^ 31 * k + pa < 2 ^ 40 := by omega
  have hdiv : (2 ^ 39 + 2 ^ 31 * k + pa - 2 ^ 39) / 2 ^ 31 = k := by omega
  have hmod : (2 ^ 39 + 2 ^ 31 * k + pa - 2 ^ 39) % 2 ^ 31 = pa := by omega
  simp only [kregion, h1, h2, h3, h4, h5, h6.1, h6.2, hdiv, hmod, decide_true, decide_false, Bool.and_true, Bool.and_false, Bool.false_eq_true,
    if_false, if_true]

theorem kregion_unmapped {a : Nat} (h : ¬ KeeperMapped a) : kregion a = .unmapped := by
  unfold KeeperMapped at h
  push Not at h
  obtain ⟨h1, h2, h3, h4, h5, h6⟩ := h
  simp only [kregion, Bool.and_eq_true, decide_eq_true_eq]
  rw [if_neg (by omega), if_neg (by omega), if_neg (by omega), if_neg (by omega), if_neg (by omega), if_neg (by omega)]

/-- Below the window, what no atomic reaches (R258). -/
theorem kregion_of_not_plain {a : Nat} (h : ¬ KeeperPlain a) (h' : a < 2 ^ 39 ∨ 2 ^ 40 ≤ a) :
    kregion a ≠ .plain ∧ ∀ k pa, kregion a ≠ .window k pa := by
  unfold KeeperPlain at h
  push Not at h
  obtain ⟨h1, h2⟩ := h
  simp only [kregion, Bool.and_eq_true, decide_eq_true_eq]
  rw [if_neg (by omega), if_neg (by omega), if_neg (c := 2 ^ 39 ≤ a ∧ a < 2 ^ 40) (by omega)]
  split_ifs <;> exact ⟨nofun, nofun⟩

/-! The power blocks. -/

/-- LD of a power block's register reads its fields (R399). -/
theorem State.powerLoad_eq (s : State) (k off : Nat) : s.powerLoad k off = powerWord (s.pwr k) off := by
  unfold powerWord
  split
  case h_1 => rfl
  case h_2 =>
    have hretained : 2 ^ 32 * b2n (s.pwr k).retained = if (s.pwr k).retained = true then 2 ^ 32 else 0 := by
      cases (s.pwr k).retained <;> rfl
    rw [← hretained]
    rfl
  case h_3 => rfl
  case h_4 =>
    rw [BitVec.ofNat_toNat]
    rfl
  case h_5 =>
    rw [Nat.add_comm]
    rfl
  case h_6 h0 h1 h2 h3 h4 =>
    unfold State.powerLoad
    split
    case h_6 => rfl
    all_goals contradiction

/-! A request leaves in the block what R400 says of it. -/

theorem State.powerRun_eq (s : State) (k : Nat) : s.powerRun k = s.setPwr k (powerAsked s k 0) := by
  cases h : (s.pwr k).st <;> simp [State.powerRun, State.refusePower, powerAsked, h]

theorem State.powerQuiesce_eq (s : State) (k : Nat) : s.powerQuiesce k = s.setPwr k (powerAsked s k 1) := by
  cases h : (s.pwr k).st <;> cases hb : s.tileBusy k <;> simp [State.powerQuiesce, State.refusePower, powerAsked, h, hb]

theorem State.powerGate_eq (s : State) (k : Nat) : s.powerGate k = s.setPwr k (powerAsked s k 2) := by
  cases h : (s.pwr k).st <;> simp [State.powerGate, State.refusePower, powerAsked, h]

theorem State.powerWake_eq (s : State) (k : Nat) : s.powerWake k = s.setPwr k (powerAsked s k 3) := by
  cases h : (s.pwr k).st <;> simp [State.powerWake, State.refusePower, powerAsked, h]

theorem State.refusePower_eq (s : State) (k : Nat) : s.refusePower k 2 = s.setPwr k (powerAsked s k 4) := rfl

theorem powerSet_setPwr (s : State) (k : Nat) (p : Power) : PowerSet s (s.setPwr k p) k p :=
  ⟨AMap.get_set_same _ _ _ _, fun _ hj => AMap.get_set_ne _ _ _ (Ne.symm hj), rfl⟩

theorem powerSet_self (s : State) (k : Nat) : PowerSet s s k (s.pwr k) := ⟨rfl, fun _ _ => rfl, rfl⟩

/-- PWRCTL takes the two low bits as a request, and 3 is none (R400). -/
theorem State.powerStore_control (s : State) (k : Nat) (v : Word) :
    ∃ t, s.powerStore k 0x00 v = some t ∧ PowerSet s t k (powerAsked s k (if v.toNat % 4 = 3 then 4 else v.toNat % 4)) := by
  have hbits : bitsNat v 0 2 = v.toNat % 4 := by simp [bitsNat]
  have hlt : v.toNat % 4 < 4 := Nat.mod_lt _ (by decide)
  refine ⟨_, rfl, ?_⟩
  rw [hbits]
  interval_cases v.toNat % 4
  · rw [State.powerRun_eq]; exact powerSet_setPwr _ _ _
  · rw [State.powerQuiesce_eq]; exact powerSet_setPwr _ _ _
  · rw [State.powerGate_eq]; exact powerSet_setPwr _ _ _
  · rw [State.refusePower_eq]; exact powerSet_setPwr _ _ _

/-- SD to a listed register leaves in the block what R399 and R400 say. -/
theorem State.powerStore_some {s : State} {k off : Nat} {v : Word} {p : Power} (h : powerStored s k v off = some p) :
    ∃ t, s.powerStore k off v = some t ∧ PowerSet s t k p := by
  unfold powerStored at h
  split at h
  case h_1 => cases h; exact State.powerStore_control s k v
  case h_2 => cases h; exact ⟨s, rfl, powerSet_self s k⟩
  case h_3 =>
    have hbit : v.getLsbD 0 = decide (v.toNat % 2 = 1) := by simp [BitVec.getLsbD, Nat.testBit_zero]
    refine ⟨_, rfl, ?_⟩
    split at h
    case isTrue hodd =>
      cases h
      rw [hbit, decide_eq_true hodd, if_pos rfl, State.powerWake_eq]
      exact powerSet_setPwr _ _ _
    case isFalse heven =>
      cases h
      rw [hbit, decide_eq_false heven, if_neg Bool.false_ne_true]
      exact powerSet_self s k
  case h_4 =>
    cases h
    have hv : v.extractLsb' 0 17 = BitVec.ofNat 17 v.toNat := by simp [BitVec.extractLsb']
    rw [← hv]
    exact ⟨_, rfl, powerSet_setPwr _ _ _⟩
  case h_5 =>
    cases h
    have hramp : v.extractLsb' 8 8 = BitVec.ofNat 8 (v.toNat / 2 ^ 8) := by rw [BitVec.extractLsb', Nat.shiftRight_eq_div_pow]
    have hbudget : v.extractLsb' 0 8 = BitVec.ofNat 8 v.toNat := by simp [BitVec.extractLsb']
    rw [← hramp, ← hbudget]
    exact ⟨_, rfl, powerSet_setPwr _ _ _⟩
  case h_6 => cases h

theorem State.powerStore_none {s : State} {k off : Nat} {v : Word} (h : powerStored s k v off = none) : s.powerStore k off v = none := by
  unfold powerStored at h
  split at h
  case h_3 => split at h <;> cases h
  case h_6 h0 h1 h2 h3 h4 =>
    unfold State.powerStore
    split
    case h_6 => rfl
    all_goals contradiction
  all_goals cases h

/-! What a load of a keeper context at M reads. -/

theorem State.kload_memory {s : State} {a : Nat} (h : kregion a = .plain ∨ kregion a = .flash) (n : Nat) :
    s.kload a n = .done (s, s.kmem.bytes a n, s.kmem.anyMarked a n) := by
  rcases h with h | h <;> simp [State.kload, h]

theorem State.kload_routing {s : State} {a m : Nat} (h : kregion a = .routing m) :
    s.kload a 8 = .done (s, leBytes 8 (s.routes.get m 0#10).toNat, false) := by
  simp [State.kload, h]

theorem State.kload_power {s : State} {a k off : Nat} {w : Word} (h : kregion a = .power k off) (hw : powerWord (s.pwr k) off = some w) :
    s.kload a 8 = .done (s, leBytes 8 w.toNat, false) := by
  simp [State.kload, h, State.powerLoad_eq, hw]

theorem State.kload_power_none {s : State} {a k off : Nat} (h : kregion a = .power k off) (hw : powerWord (s.pwr k) off = none) :
    s.kload a 8 = .fault := by
  simp [State.kload, h, State.powerLoad_eq, hw]

theorem State.kload_unmapped {s : State} {a : Nat} (h : ¬ KeeperMapped a) (n : Nat) : s.kload a n = .fault := by
  simp [State.kload, kregion_unmapped h]

/-- The routing table and the power blocks take eight bytes only (R399, R412). -/
theorem State.kload_size {s : State} {a n : Nat} (h : 0x3000000000 ≤ a) (h' : a < 0x4000010000) (hr : a < 0x3000001000 ∨ 0x4000000000 ≤ a) (hn : n ≠ 8) :
    s.kload a n = .fault := by
  rcases hr with hr | hr
  · simp [State.kload, kregion_routing h hr, hn]
  · simp [State.kload, kregion_power hr h', hn]

/-! The window (R259, R394, R401). -/

theorem State.windowOpen_off {s : State} {k : Nat} (h : (s.pwr k).st ≠ .on) : s.windowOpen k = .fault := by
  simp [State.windowOpen, h]

theorem State.windowOpen_halt {s : State} {k : Nat} (h : (s.pwr k).st = .on) (hh : s.stackState (stackOf k) = 3) : s.windowOpen k = .halted := by
  simp [State.windowOpen, h, hh]

theorem State.windowOpen_open {s : State} {k : Nat} (h : WindowOpen s k) : s.windowOpen k = .done () := by
  simp [State.windowOpen, h.1, h.2]

theorem State.kload_window_off {s : State} {a k pa : Nat} (hr : kregion a = .window k pa) (h : (s.pwr k).st ≠ .on) (n : Nat) : s.kload a n = .fault := by
  simp [State.kload, hr, State.windowOpen_off h]

theorem State.kload_window_halt {s : State} {a k pa : Nat} (hr : kregion a = .window k pa) (h : (s.pwr k).st = .on)
    (hh : s.stackState (stackOf k) = 3) (n : Nat) : s.kload a n = .halted := by
  simp [State.kload, hr, State.windowOpen_halt h hh]

/-- The bytes of HBM4 once an error in the line has been found (R360). -/
theorem State.kload_window {s : State} {a k pa : Nat} (hr : kregion a = .window k pa) (h : WindowOpen s k) (n : Nat) :
    s.kload a n = .done (s.updTile k fun x => x.discoverHbm (pa / 64), ((s.tile k).discoverHbm (pa / 64)).hbm.bytes pa n,
      ((s.tile k).discoverHbm (pa / 64)).hbm.anyMarked pa n) := by
  simp [State.kload, hr, State.windowOpen_open h]

/-! What a store of a keeper context at M does. -/

theorem State.kstore_plain {s : State} {a : Nat} (h : KeeperPlain a) (n : Nat) (bs : List Byte) (p : Bool) :
    s.kstore a n bs p = .done { s with kmem := s.kmem.write (wbytes a bs p) } := by
  simp [State.kstore, kregion_plain h]

theorem State.kstore_flash {s : State} {a : Nat} (h : 0x2000000000 ≤ a) (h' : a < 0x2004000000) (n : Nat) (bs : List Byte) (p : Bool) :
    s.kstore a n bs p = .fault := by
  simp [State.kstore, kregion_flash h h']

/-- The eight bytes of a word give it back. -/
theorem word_of_leBytes (d : Word) : BitVec.ofNat 64 (leNat (leBytes 8 d.toNat)) = d := by
  rw [leNat_leBytes, Nat.mod_eq_of_lt (by simpa using d.isLt), BitVec.ofNat_toNat, BitVec.setWidth_eq]

theorem State.kstore_routing {s : State} {a m : Nat} (h : kregion a = .routing m) (d : Word) (p : Bool) :
    s.kstore a 8 (leBytes 8 d.toNat) p = .done (({ s with routes := s.routes.set m (BitVec.ofNat 10 d.toNat) }).rerouted s) := by
  have hd : d.extractLsb' 0 10 = BitVec.ofNat 10 d.toNat := by simp [BitVec.extractLsb']
  simp only [State.kstore, h, word_of_leBytes, hd, if_true]

theorem State.kstore_power {s t : State} {a k off : Nat} {d : Word} (h : kregion a = .power k off) (hd : s.powerStore k off d = some t) (p : Bool) :
    s.kstore a 8 (leBytes 8 d.toNat) p = .done t := by
  simp only [State.kstore, h, word_of_leBytes, hd, if_true]

theorem State.kstore_power_none {s : State} {a k off : Nat} {d : Word} (h : kregion a = .power k off) (hd : s.powerStore k off d = none) (p : Bool) :
    s.kstore a 8 (leBytes 8 d.toNat) p = .fault := by
  simp only [State.kstore, h, word_of_leBytes, hd, if_true]

theorem State.kstore_unmapped {s : State} {a : Nat} (h : ¬ KeeperMapped a) (n : Nat) (bs : List Byte) (p : Bool) : s.kstore a n bs p = .fault := by
  simp [State.kstore, kregion_unmapped h]

theorem State.kstore_size {s : State} {a n : Nat} (h : 0x3000000000 ≤ a) (h' : a < 0x4000010000) (hr : a < 0x3000001000 ∨ 0x4000000000 ≤ a) (hn : n ≠ 8)
    (bs : List Byte) (p : Bool) : s.kstore a n bs p = .fault := by
  rcases hr with hr | hr
  · simp [State.kstore, kregion_routing h hr, hn]
  · simp [State.kstore, kregion_power hr h', hn]

theorem State.kstore_window_off {s : State} {a k pa : Nat} (hr : kregion a = .window k pa) (h : (s.pwr k).st ≠ .on) (n : Nat) (bs : List Byte) (p : Bool) :
    s.kstore a n bs p = .fault := by
  simp [State.kstore, hr, State.windowOpen_off h]

theorem State.kstore_window_halt {s : State} {a k pa : Nat} (hr : kregion a = .window k pa) (h : (s.pwr k).st = .on)
    (hh : s.stackState (stackOf k) = 3) (n : Nat) (bs : List Byte) (p : Bool) : s.kstore a n bs p = .halted := by
  simp [State.kstore, hr, State.windowOpen_halt h hh]

theorem State.kstore_window {s : State} {a k pa : Nat} (hr : kregion a = .window k pa) (h : WindowOpen s k) (n : Nat) (bs : List Byte) (p : Bool) :
    s.kstore a n bs p = .done (s.writeEngine k (wbytes pa bs p)) := by
  simp [State.kstore, hr, State.windowOpen_open h]

/-! What an atomic of a keeper context at M reads. -/

theorem State.katomicRead_plain {s : State} {a : Nat} (h : KeeperPlain a) (n : Nat) :
    s.katomicRead a n = .done (s, s.kmem.bytes a n, s.kmem.anyMarked a n) := by
  simp [State.katomicRead, kregion_plain h]

theorem State.katomicRead_fault {s : State} {a : Nat} (h : ¬ KeeperPlain a) (h' : a < 2 ^ 39 ∨ 2 ^ 40 ≤ a) (n : Nat) : s.katomicRead a n = .fault := by
  obtain ⟨hplain, hwindow⟩ := kregion_of_not_plain h h'
  unfold State.katomicRead
  split
  case h_1 hr => exact absurd hr hplain
  case h_2 hr => exact absurd hr (hwindow _ _)
  case h_3 => rfl

end Sys2Proof.Machine

/-! PROOF. A tile behind the window and the routes (R259, R360, R412): HBM4 reads the same bytes when an error is found, a write through the window leaves no copy of its line, and a change of routes moves links and waiting flits alone. -/

namespace Sys2Proof.Machine

open Sys2Proof.Safety

/-! HBM4 as the window reads it. -/

theorem Memory.setMarks_wf {m : Memory} (h : m.wf = true) (l : List Nat) (f : Nat → Nat) : (l.foldl (fun m i => m.setMark (f i) true) m).wf = true :=
  Memory.foldl_wf _ (fun _ _ hm => Memory.setMark_wf hm _ _) l h

/-- The bytes of a memory after a line was put back. -/
theorem Memory.byte_putLine {m : Memory} (h : m.wf = true) (l : Nat) (x : Line) (a : Nat) :
    (m.putLine l x).byte a = if 64 * l ≤ a ∧ a < 64 * l + x.bytes.length then x.bytes.getD (a - 64 * l) 0#8 else m.byte a := by
  rw [Memory.putLine, Memory.byte_foldl_setMark (List.range 8) (fun i => 64 * l + 8 * i) (fun i => x.marks.getLsbD i)]
  exact Memory.byte_setBytes_wbytes h _ _ _ _

/-- The lines kept of HBM4, put back one after another. -/
def putOld (m : Memory) (old : AMap Dirty) : Memory := old.foldl (fun m kv => m.putLine kv.1 kv.2.hbm) m

theorem Tile.hbm_eq_putOld (t : Tile) : t.hbm = putOld t.mem t.old := rfl

theorem putOld_cons (m : Memory) (l : Nat) (d : Dirty) (old : AMap Dirty) : putOld m ((l, d) :: old) = putOld (m.putLine l d.hbm) old := rfl

/-- Memories with the same bytes have the same bytes once the same lines are put back. -/
theorem putOld_congr {m m' : Memory} (h : m.wf = true) (h' : m'.wf = true) (hb : ∀ a, m.byte a = m'.byte a) (old : AMap Dirty) (a : Nat) :
    (putOld m old).byte a = (putOld m' old).byte a := by
  induction old generalizing m m' with
  | nil => exact hb a
  | cons kv old ih =>
    refine ih (Memory.putLine_wf h _ _) (Memory.putLine_wf h' _ _) fun b => ?_
    rw [Memory.byte_putLine h, Memory.byte_putLine h', hb]

/-- What the bytes of a line were does not matter when the line is put back. -/
theorem putOld_absorbs {m m' : Memory} (h : m.wf = true) (h' : m'.wf = true) {old : AMap Dirty} {l : Nat} {d : Dirty} (hf : old.find l = some d)
    (hb : ∀ a, ¬ (64 * l ≤ a ∧ a < 64 * l + d.hbm.bytes.length) → m.byte a = m'.byte a) (a : Nat) : (putOld m old).byte a = (putOld m' old).byte a := by
  induction old generalizing m m' with
  | nil => cases hf
  | cons kv old ih =>
    obtain ⟨k, e⟩ := kv
    rw [AMap.find] at hf
    split at hf
    next hk =>
      cases hf
      subst hk
      refine putOld_congr (Memory.putLine_wf h _ _) (Memory.putLine_wf h' _ _) (fun b => ?_) old a
      rw [Memory.byte_putLine h, Memory.byte_putLine h']
      split_ifs with hin
      · rfl
      · exact hb b hin
    next =>
      refine ih (Memory.putLine_wf h _ _) (Memory.putLine_wf h' _ _) hf fun b hout => ?_
      rw [Memory.byte_putLine h, Memory.byte_putLine h', hb b hout]

/-- A change of a kept line's marks changes no byte of HBM4. -/
theorem putOld_set {m : Memory} (h : m.wf = true) {old : AMap Dirty} {l : Nat} {d d' : Dirty} (hf : old.find l = some d)
    (hd : d'.hbm.bytes = d.hbm.bytes) (a : Nat) : (putOld m (old.set l d')).byte a = (putOld m old).byte a := by
  have hput (m : Memory) (hm : m.wf = true) (b : Nat) : (m.putLine l d'.hbm).byte b = (m.putLine l d.hbm).byte b := by
    rw [Memory.byte_putLine hm, Memory.byte_putLine hm, hd]
  induction old generalizing m with
  | nil => cases hf
  | cons kv old ih =>
    obtain ⟨k, e⟩ := kv
    rw [AMap.find] at hf
    rw [AMap.set, putOld_cons]
    split_ifs at hf ⊢ with hk hlt
    · cases hf
      rw [putOld_cons, hk]
      exact putOld_congr (Memory.putLine_wf h _ _) (Memory.putLine_wf h _ _) (hput m h) old a
    · rw [putOld_cons, putOld_cons]
      refine putOld_absorbs (Memory.putLine_wf (Memory.putLine_wf h _ _) _ _) (Memory.putLine_wf h _ _) hf (fun b hout => ?_) a
      have hline : (m.putLine l d'.hbm).byte b = m.byte b := by rw [hput m h, Memory.byte_putLine h, if_neg hout]
      rw [Memory.byte_putLine (Memory.putLine_wf h _ _), hline, Memory.byte_putLine h]
    · rw [putOld_cons]
      exact ih (Memory.putLine_wf h _ _) hf

/-- What finding an error may change of a tile (R360). -/
def FoundOnly (x y : Tile) : Prop :=
  y = { x with mem := y.mem, old := y.old, latent := y.latent, hbmue := y.hbmue } ∧ (∀ a, y.mem.byte a = x.mem.byte a) ∧ (x.mem.wf = true → y.mem.wf = true)

theorem FoundOnly.refl (x : Tile) : FoundOnly x x := ⟨rfl, fun _ => rfl, id⟩

theorem Tile.discover_foundOnly (x : Tile) (l : Nat) : FoundOnly x (x.discover l) ∧ (x.discover l).old = x.old := by
  unfold Tile.discover
  split
  · exact ⟨⟨rfl, Memory.byte_foldl_setMark (List.range 8) (fun i => 64 * l + 8 * i) (fun _ => true) x.mem, fun h => Memory.setMarks_wf h _ _⟩, rfl⟩
  · exact ⟨.refl x, rfl⟩

theorem Tile.discoverHbm_foundOnly (x : Tile) (l : Nat) : FoundOnly x (x.discoverHbm l) := by
  unfold Tile.discoverHbm
  split
  · split
    · exact ⟨rfl, fun _ => rfl, id⟩
    · exact .refl x
  · exact (x.discover_foundOnly l).1

/-- HBM4 keeps its bytes when an error in a line is found (R360). -/
theorem Tile.byte_hbm_discoverHbm {x : Tile} (h : x.mem.wf = true) (l a : Nat) : (x.discoverHbm l).hbm.byte a = x.hbm.byte a := by
  unfold Tile.discoverHbm
  split
  next d hd =>
    split
    · rw [Tile.hbm_eq_putOld, Tile.hbm_eq_putOld]
      refine putOld_set h hd ?_ a
      rfl
    · rfl
  next =>
    obtain ⟨⟨_, hbytes, hwf⟩, hold⟩ := x.discover_foundOnly l
    rw [Tile.hbm_eq_putOld, Tile.hbm_eq_putOld, hold]
    exact putOld_congr (hwf h) h hbytes _ a

/-! A write through the window. -/

/-- The one line of an aligned access. -/
theorem linesOf_wbytes {n pa : Nat} (hn : AccessSize n) (ha : pa % n = 0) {bs : List Byte} (hbs : bs.length = n) (p : Bool) :
    linesOf ((wbytes pa bs p).map fun w => w.1) = [pa / 64] := by
  have hpos : bs ≠ [] := by
    rintro rfl
    unfold AccessSize at hn
    rw [List.length_nil] at hbs
    omega
  have haddr : ∀ (bs : List Byte) (a : Nat), ∀ x ∈ (wbytes a bs p).map fun w => w.1, a ≤ x ∧ x < a + bs.length := by
    intro bs
    induction bs with
    | nil => exact fun _ _ h => nomatch h
    | cons b bs ih =>
      intro a x hx
      rw [wbytes, List.map_cons, List.mem_cons] at hx
      rw [List.length_cons]
      rcases hx with rfl | hx
      · omega
      · have := ih (a + 1) x hx
        omega
  have hline : ∀ y ∈ ((wbytes pa bs p).map fun w => w.1).map fun a => a / 64, y = pa / 64 := by
    intro y hy
    obtain ⟨x, hx, rfl⟩ := List.mem_map.1 hy
    have := haddr bs pa x hx
    unfold AccessSize at hn
    rcases hn with rfl | rfl | rfl | rfl <;> omega
  obtain ⟨b, bs, rfl⟩ := List.exists_cons_of_ne_nil hpos
  rw [linesOf, List.eq_replicate_of_mem hline]
  exact List.replicate_dedup (by simp [wbytes])

/-- A step of writeThrough: the line's error is over or found, and no copy of the line is left. -/
def Tile.dropCopies (x : Tile) (ws : List WByte) (l : Nat) : Tile :=
  let y := if (x.old.find l).isSome || coversLine ws l then { x with latent := natsErase x.latent l } else x.discover l
  { y.setHolders l [] with old := y.old.erase l }

theorem Tile.writeThrough_line {x : Tile} {ws : List WByte} {l : Nat} (hl : linesOf (ws.map fun w => w.1) = [l]) :
    x.writeThrough [] ws = { x.dropCopies ws l with mem := (x.dropCopies ws l).mem.write ws } := by
  rw [Tile.writeThrough, hl]
  rfl

/-- No copy of the line is left, and nothing of the tile changes but what it holds of lines and their errors (R259). -/
theorem Tile.dropCopies_facts (x : Tile) (ws : List WByte) (l : Nat) :
    let y := x.dropCopies ws l
    y = { x with mem := y.mem, old := y.old, dir := y.dir, latent := y.latent, hbmue := y.hbmue } ∧ y.old.find l = none ∧ y.dir.find l = none
      ∧ (∀ a, y.mem.byte a = x.mem.byte a) ∧ (x.mem.wf = true → y.mem.wf = true) := by
  have hfound : FoundOnly x (if (x.old.find l).isSome || coversLine ws l then { x with latent := natsErase x.latent l } else x.discover l) := by
    split
    · exact ⟨rfl, fun _ => rfl, id⟩
    · exact (x.discover_foundOnly l).1
  obtain ⟨hsame, hbytes, hwf⟩ := hfound
  refine ⟨?_, AMap.find_erase_same _ _, AMap.find_erase_same _ _, hbytes, hwf⟩
  rw [Tile.dropCopies]
  dsimp only
  rw [hsame]
  rfl

/-! Links of partitions. -/

/-- A relation that every step of a fold keeps holds between its start and its end. -/
theorem foldl_keeps {α : Type} {R : State → State → Prop} (hrefl : ∀ s, R s s) (htrans : ∀ {s t u}, R s t → R t u → R s u) {f : State → α → State}
    (hstep : ∀ s x, R s (f s x)) (l : List α) (s : State) : R s (l.foldl f s) := by
  induction l generalizing s with
  | nil => exact hrefl s
  | cons x l ih => exact htrans (hstep s x) (ih _)

/-- Nothing changes but link marks of partitions (R275). -/
def OnlyLinkMarks (s t : State) : Prop :=
  t = { s with cores := t.cores } ∧ ∀ k, t.core k = { s.core k with parts := (t.core k).parts }
    ∧ (t.core k).parts.map (fun p => { p with links := [] }) = (s.core k).parts.map fun p => { p with links := [] }

theorem OnlyLinkMarks.refl (s : State) : OnlyLinkMarks s s := ⟨rfl, fun _ => ⟨rfl, rfl⟩⟩

theorem OnlyLinkMarks.trans {s t u : State} (h : OnlyLinkMarks s t) (h' : OnlyLinkMarks t u) : OnlyLinkMarks s u := by
  obtain ⟨hst, hcores⟩ := h
  obtain ⟨htu, hcores'⟩ := h'
  refine ⟨htu.trans (by rw [hst]), fun k => ?_⟩
  obtain ⟨hcore, hparts⟩ := hcores k
  obtain ⟨hcore', hparts'⟩ := hcores' k
  exact ⟨hcore'.trans (by rw [hcore]), hparts'.trans hparts⟩

theorem Core.breakLinks_parts (c : Core) (ls : List Nat) (exempt : Option Nat) :
    (c.breakLinks ls exempt).parts.map (fun p => { p with links := [] }) = c.parts.map fun p => { p with links := [] } := by
  rw [Core.breakLinks, List.map_map]
  refine List.map_congr_left fun p _ => ?_
  rw [Function.comp]
  split <;> rfl

/-- A write that performs at TILE changes link marks and nothing else of the cores (R275). -/
theorem State.breakTileLinks_onlyLinkMarks (s : State) (t : Nat) (ls : List Nat) (ex : LinkExempt) : OnlyLinkMarks s (s.breakTileLinks t ls ex) := by
  refine foldl_keeps OnlyLinkMarks.refl OnlyLinkMarks.trans (fun s i => ?_) _ s
  dsimp only
  split
  next => exact .refl s
  next c hc =>
    split
    · exact .refl s
    · have hcore : s.core (8 * t + i) = c := by rw [State.core, AMap.get, hc, Option.getD_some]
      refine ⟨rfl, fun k => ?_⟩
      by_cases hk : 8 * t + i = k
      · subst hk
        rw [State.core_setCore_same, hcore]
        exact ⟨rfl, Core.breakLinks_parts _ _ _⟩
      · rw [State.core_setCore_ne _ _ hk]
        exact ⟨rfl, rfl⟩

/-! Routes. -/

/-- Nothing changes but what the links carry and the flits that wait for a path. -/
def OnlySends (s t : State) : Prop := t = { s with links := t.links, transit := t.transit }

theorem OnlySends.refl (s : State) : OnlySends s s := rfl

theorem OnlySends.trans {s t u : State} (h : OnlySends s t) (h' : OnlySends t u) : OnlySends s u :=
  Eq.trans h' (by rw [h])

theorem State.transmit_onlySends (s : State) (m mseq : Nat) (x : Msg) : OnlySends s (s.transmit m mseq x) := by
  unfold State.transmit
  split <;> rfl

theorem State.forward_onlySends (s : State) (f : Flit) : OnlySends s (s.forward f) := by
  unfold State.forward
  split
  · rfl
  · split <;> rfl

theorem OnlySends.foldl {α : Type} {f : State → α → State} (hf : ∀ s x, OnlySends s (f s x)) (l : List α) (s : State) : OnlySends s (l.foldl f s) :=
  foldl_keeps OnlySends.refl OnlySends.trans hf l s

theorem State.resend_onlySends (s : State) (m : Nat) : OnlySends s (s.resend m) := by
  have hstep : ∀ (s : State) (x : Nat × Msg), OnlySends s (s.transmit m x.1 x.2) := fun s x => s.transmit_onlySends m x.1 x.2
  exact OnlySends.foldl hstep (s.peers.get m {}).kept s

/-- After a change of routes messages are sent again and flits that waited are tried again; nothing else happens (R412, R413). -/
theorem State.rerouted_onlySends (s was : State) : OnlySends s (s.rerouted was) := by
  have hstep : ∀ (s : State) (kv : Nat × Peer), OnlySends s (s.resend kv.1) := fun s kv => s.resend_onlySends kv.1
  have hresent := OnlySends.foldl hstep (s.peers.filter fun kv => was.path kv.1 != s.path kv.1) s
  rw [State.rerouted]
  generalize (s.peers.filter fun kv => was.path kv.1 != s.path kv.1).foldl (fun s kv => s.resend kv.1) s = r at hresent ⊢
  have hcleared : OnlySends r { r with transit := [] } := rfl
  exact hresent.trans (hcleared.trans (OnlySends.foldl State.forward_onlySends r.transit _))

end Sys2Proof.Machine

/-! PROOF. Memory accesses of a keeper context at M, and the checks of every scalar access (R22, R80, R81, R254, R258, R259): each load, store and atomic is what its address answers, and what a state left by a region keeps the completion keeps. -/

namespace Sys2Proof.Machine

open Sys2Proof.Safety

/-! What a completion keeps of the state that an access left. -/

theorem onlyMe_eq {s t : State} (h : OnlyMe s t) : t = { s with ctxs := t.ctxs } := by
  obtain ⟨hsame, _, _⟩ := h
  rw [← hsame]

theorem onlyMe_cores {s t : State} (h : OnlyMe s t) : t.cores = s.cores := by rw [onlyMe_eq h]

theorem onlyMe_tiles {s t : State} (h : OnlyMe s t) : t.tiles = s.tiles := by rw [onlyMe_eq h]

theorem onlyMe_core {s t : State} (h : OnlyMe s t) (k : Nat) : t.core k = s.core k := by rw [State.core, State.core, onlyMe_cores h]

theorem onlyMe_tile {s t : State} (h : OnlyMe s t) (k : Nat) : t.tile k = s.tile k := by rw [State.tile, State.tile, onlyMe_tiles h]

/-- Other contexts are as they were when the access left every context as it was. -/
theorem onlyMe_others {s s1 t : State} (h : OnlyMe s1 t) (hcur : s1.cur = s.cur) (hctxs : s1.ctxs = s.ctxs) (c : Nat) (hc : c ≠ s.cur) :
    t.ctx c = s.ctx c := by
  obtain ⟨_, hothers, _⟩ := h
  rw [hothers c (hcur ▸ hc), State.ctx, State.ctx, hctxs]

theorem onlyAccess_completed {s s1 t : State} (h : OnlyAccess s s1) (hctxs : s1.ctxs = s.ctxs) (ht : OnlyMe s1 t) : OnlyAccess s t := by
  obtain ⟨hsame, _, hcores, htiles⟩ := h
  have hcur : s1.cur = s.cur := by rw [hsame]
  refine ⟨?_, onlyMe_others ht hcur hctxs, fun k => ?_, fun k => ?_⟩
  · rw [onlyMe_eq ht, hsame]
  · rw [onlyMe_core ht]
    exact hcores k
  · rw [onlyMe_tile ht]
    exact htiles k

/-- A tile alone has changed, in what an access may change of it. -/
theorem onlyAccess_updTile (s : State) (k : Nat) (f : Tile → Tile)
    (hf : f (s.tile k) = { s.tile k with mem := (f (s.tile k)).mem, old := (f (s.tile k)).old, dir := (f (s.tile k)).dir, latent := (f (s.tile k)).latent,
                                         walker := (f (s.tile k)).walker, hbmue := (f (s.tile k)).hbmue }) : OnlyAccess s (s.updTile k f) := by
  refine ⟨rfl, fun _ _ => rfl, fun _ => ⟨rfl, rfl⟩, fun j => ?_⟩
  by_cases hj : k = j
  · subst hj
    rw [State.tile_updTile_same]
    exact hf
  · rw [State.tile_updTile_ne s f hj]

theorem core_access_then_parts {c d e : Core} (h : d = { c with tlb := d.tlb, buf := d.buf, parts := d.parts }) (h' : e = { d with parts := e.parts }) :
    e = { c with tlb := e.tlb, buf := e.buf, parts := e.parts } := by
  rw [h', h]

/-- Link marks are among what an access may change. -/
theorem onlyAccess_linkMarks {s u t : State} (h : OnlyAccess s u) (ht : OnlyLinkMarks u t) : OnlyAccess s t := by
  obtain ⟨hsame, hctxs, hcores, htiles⟩ := h
  obtain ⟨hmarks, hparts⟩ := ht
  have hctx (d : Nat) : t.ctx d = u.ctx d := by rw [hmarks]; rfl
  have htile (k : Nat) : t.tile k = u.tile k := by rw [hmarks]; rfl
  refine ⟨?_, fun d hd => (hctx d).trans (hctxs d hd), fun k => ?_, fun k => ?_⟩
  · rw [hmarks, hsame]
  · obtain ⟨hcore, hlinks⟩ := hcores k
    obtain ⟨hcore', hlinks'⟩ := hparts k
    exact ⟨core_access_then_parts hcore hcore', hlinks'.trans hlinks⟩
  · rw [htile]
    exact htiles k

/-! The window. -/

/-- A load through the window finds errors and changes no byte. -/
theorem discoverHbm_onlyAccess (s : State) (k l : Nat) : OnlyAccess s (s.updTile k fun x => x.discoverHbm l) := by
  obtain ⟨hsame, _, _⟩ := (s.tile k).discoverHbm_foundOnly l
  exact onlyAccess_updTile s k _ (by rw [hsame])

theorem discoverHbm_memSame (s : State) (k l : Nat) : MemSame s (s.updTile k fun x => x.discoverHbm l) := by
  obtain ⟨_, hbytes, _⟩ := (s.tile k).discoverHbm_foundOnly l
  refine ⟨fun j a => ?_, fun _ => rfl, fun _ => rfl⟩
  by_cases hj : k = j
  · subst hj
    rw [State.tile_updTile_same]
    exact hbytes a
  · rw [State.tile_updTile_ne s _ hj]

theorem numberAt_congr {m m' : Memory} (h : ∀ a, m.byte a = m'.byte a) (a n : Nat) : numberAt m a n = numberAt m' a n := by
  simp only [numberAt, h]

/-- The tiles after a write through the window: only the link marks of its cores differ. -/
theorem State.tile_writeEngine (s : State) (k j : Nat) (ws : List WByte) :
    (s.writeEngine k ws).tile j = (s.updTile k fun x => x.writeThrough [] ws).tile j := by
  obtain ⟨hmarks, _⟩ := (s.updTile k fun x => x.writeThrough [] ws).breakTileLinks_onlyLinkMarks k (linesOf (ws.map fun w => w.1)) .nobody
  rw [State.writeEngine, hmarks]
  rfl

theorem State.writeEngine_contexts (s : State) (k : Nat) (ws : List WByte) : (s.writeEngine k ws).cur = s.cur ∧ (s.writeEngine k ws).ctxs = s.ctxs := by
  obtain ⟨hmarks, _⟩ := (s.updTile k fun x => x.writeThrough [] ws).breakTileLinks_onlyLinkMarks k (linesOf (ws.map fun w => w.1)) .nobody
  rw [State.writeEngine, hmarks]
  exact ⟨rfl, rfl⟩

theorem State.writeEngine_onlyAccess {s : State} {k l : Nat} {ws : List WByte} (hl : linesOf (ws.map fun w => w.1) = [l]) :
    OnlyAccess s (s.writeEngine k ws) := by
  obtain ⟨hsame, _⟩ := (s.tile k).dropCopies_facts ws l
  have htile : OnlyAccess s (s.updTile k fun x => x.writeThrough [] ws) := by
    refine onlyAccess_updTile s k _ ?_
    rw [Tile.writeThrough_line hl, hsame]
  exact onlyAccess_linkMarks htile (State.breakTileLinks_onlyLinkMarks _ _ _ _)

/-! Accesses of a keeper context at M. -/

/-- A context that reaches keeper-physical addresses makes an aligned access to one (R81, R254). -/
structure KeeperAccess (s : State) (va : Word) (n : Nat) : Prop where
  keeper : 32768 ≤ s.cur
  machine : s.me.priv = 3#2
  canonical : Canonical va
  aligned : va.toNat % n = 0

/-- Its checks pass, and the access goes to the address itself. -/
theorem KeeperAccess.passes {s : State} {va : Word} {n : Nat} (h : KeeperAccess s va n) {r : XReg} (hclean : (s.x r).psn = none) (kind : AccKind)
    (k : State → Loc → Out) : needClean [s.x r] s (fun _ => withAddr va n kind s k) = k s (.keeper va.toNat) :=
  (needClean_clean (rs := [r]) ((firstOrigin_singleton s r).trans hclean) _).trans (withAddr_keeper h.canonical h.aligned h.keeper h.machine kind k)

section
variable {s : State} {n : Nat} {base : XReg} {off : BitVec 12} (ha : KeeperAccess s (addressOf (s.x base).val off) n) (hclean : (s.x base).psn = none)
include ha hclean

theorem load_done {s1 : State} {bs : List Byte} {p : Bool} (h : s.kload (addressOf (s.x base).val off).toNat n = .done (s1, bs, p)) (sg : Bool) (rd : XReg)
    (aq : BitVec 1) :
    load n sg rd base aq off s = completeWaiting .memReply 16 s (s1.writeRd rd (loaded bs sg p (addressOf (s.x base).val off))) := by
  simp only [load, effAddr_eq_addressOf, ha.passes hclean, h]

theorem load_fault (h : s.kload (addressOf (s.x base).val off).toNat n = .fault) (sg : Bool) (rd : XReg) (aq : BitVec 1) :
    load n sg rd base aq off s = raise .accessFault (addressOf (s.x base).val off) s := by
  simp only [load, effAddr_eq_addressOf, ha.passes hclean, h]

theorem load_halted (h : s.kload (addressOf (s.x base).val off).toNat n = .halted) (sg : Bool) (rd : XReg) (aq : BitVec 1) :
    load n sg rd base aq off s = waitOn .memReply s := by
  simp only [load, effAddr_eq_addressOf, ha.passes hclean, h]

variable {rs : XReg}

theorem store_done {s1 : State} (h : s.kstore (addressOf (s.x base).val off).toNat n (leBytes n (s.x rs).val.toNat) (s.x rs).psn.isSome = .done s1)
    (rl : BitVec 1) : store n rs base rl off s = completeWaiting .memReply 16 s s1 := by
  simp only [store, effAddr_eq_addressOf, ha.passes hclean, h]

theorem store_fault (h : s.kstore (addressOf (s.x base).val off).toNat n (leBytes n (s.x rs).val.toNat) (s.x rs).psn.isSome = .fault) (rl : BitVec 1) :
    store n rs base rl off s = raise .accessFault (addressOf (s.x base).val off) s := by
  simp only [store, effAddr_eq_addressOf, ha.passes hclean, h]

theorem store_halted (h : s.kstore (addressOf (s.x base).val off).toNat n (leBytes n (s.x rs).val.toNat) (s.x rs).psn.isSome = .halted) (rl : BitVec 1) :
    store n rs base rl off s = waitOn .memReply s := by
  simp only [store, effAddr_eq_addressOf, ha.passes hclean, h]

end

/-- An atomic but ACAS writes the new bytes and returns the old value (R89). -/
theorem atomicAt_of_ne_cas {op : AtomicOp} (hop : op ≠ .cas) (n : Nat) (rd rs2 : XReg) (va : Word) (s s1 : State) (bs : List Byte) (p : Bool)
    (put : State → List Byte → Bool → State) :
    atomicAt op n rd rs2 va s s1 bs p put = completeWaiting .memReply 16 s
      ((put s1 (leBytes n (op.apply (8 * n) (leNat bs) ((s.x rs2).val.toNat % 2 ^ (8 * n)))) (p || (s.x rs2).psn.isSome)).writeRd rd
        (atomicReturn op bs p va (s.x rs2))) := by
  cases op <;> first | exact absurd rfl hop | rfl

theorem atomicChecked_of_ne_cas {op : AtomicOp} (hop : op ≠ .cas) (rd rs1 rs2 : XReg) (s : State) : atomicChecked op rd rs1 rs2 s = [s.x rs1] := by
  cases op <;> first | exact absurd rfl hop | rfl

section
variable {s : State} {z : BitVec 2} {rs1 : XReg} (ha : KeeperAccess s (s.x rs1).val (2 ^ z.toNat)) (hclean : (s.x rs1).psn = none)
  {op : AtomicOp} (hop : op ≠ .cas)
include ha hclean hop

/-- An atomic on keeper memory or staging memory leaves a memory m, in which the new value stands, and returns what it read. -/
theorem atomic_plain (hwf : s.kmem.wf = true) (hplain : KeeperPlain (s.x rs1).val.toNat) (rd rs2 : XReg) (rl : BitVec 1) :
    ∃ (m : Memory) (p : Bool),
      (∀ b, m.byte b = if (s.x rs1).val.toNat ≤ b ∧ b < (s.x rs1).val.toNat + 2 ^ z.toNat
        then BitVec.ofNat 8 (op.apply (8 * 2 ^ z.toNat) (numberAt s.kmem (s.x rs1).val.toNat (2 ^ z.toNat)) ((s.x rs2).val.toNat % 2 ^ (8 * 2 ^ z.toNat))
          / 256 ^ (b - (s.x rs1).val.toNat))
        else s.kmem.byte b)
      ∧ atomic op rd rs1 rs2 rl z s = completeWaiting .memReply 16 s
        (State.writeRd { s with kmem := m } rd (atomicReturn op (s.kmem.bytes (s.x rs1).val.toNat (2 ^ z.toNat)) p (s.x rs1).val (s.x rs2))) := by
  simp only [atomic, atomicChecked_of_ne_cas hop, ha.passes hclean, State.katomicRead_plain hplain, atomicAt_of_ne_cas hop, State.kstore_plain hplain,
    leNat_bytes]
  exact ⟨_, _, Memory.byte_write_leBytes hwf _ _ _ _, rfl⟩

theorem atomic_fault (hplain : ¬ KeeperPlain (s.x rs1).val.toNat) (hwindow : (s.x rs1).val.toNat < 2 ^ 39 ∨ 2 ^ 40 ≤ (s.x rs1).val.toNat)
    (rd rs2 : XReg) (rl : BitVec 1) : atomic op rd rs1 rs2 rl z s = raise .accessFault (s.x rs1).val s := by
  simp only [atomic, atomicChecked_of_ne_cas hop, ha.passes hclean, State.katomicRead_fault hplain hwindow]

end

/-! Loads, stores and atomics by what lies at their address. -/

section
variable {s : State} {i : Instr} {n : Nat} {sg : Bool} {rd base : XReg} {aq : BitVec 1} {off : BitVec 12}
  (hform : loadForm i = some (n, sg, rd, base, aq, off)) (ha : KeeperAccess s (addressOf (s.x base).val off) n) (hclean : (s.x base).psn = none)
include hform ha hclean

/-- Keeper memory, staging memory and the boot flash give their bytes (R258). -/
theorem keeperLoad_memory (hfall : CanFall s)
    (h : kregion (addressOf (s.x base).val off).toNat = .plain ∨ kregion (addressOf (s.x base).val off).toNat = .flash) :
    ∃ t v, exec i s = .next t ∧ WroteX s t rd v ∧ v.val = widened (8 * n) (numberAt s.kmem (addressOf (s.x base).val off).toNat n) sg
      ∧ Sent s t ∧ OnlyRegs s.me t.me ∧ OnlyMe s t := by
  obtain ⟨hsize, sg', hexec, hwiden⟩ := exec_of_loadForm hform
  rw [hexec, load_done ha hclean (State.kload_memory h n)]
  obtain ⟨t, ht, hx, hsent, hregs, honly⟩ := completeWaiting_loaded hfall rfl rfl rd (loaded _ sg' _ _)
  exact ⟨t, _, ht, hx, (loaded_bytes_val hsize _ _ _ _ _).trans (hwiden _), hsent, hregs, honly⟩

/-- LD of a register gives its word (R399, R412). -/
theorem keeperLoad_register (hfall : CanFall s) {v : Nat} (hv : v < 2 ^ 64)
    (h : s.kload (addressOf (s.x base).val off).toNat n = .done (s, leBytes 8 v, false)) :
    ∃ t, exec i s = .next t ∧ WroteX s t rd (Reg.clean (BitVec.ofNat 64 v)) ∧ Sent s t ∧ OnlyRegs s.me t.me ∧ OnlyMe s t := by
  obtain ⟨_, sg', hexec, _⟩ := exec_of_loadForm hform
  rw [hexec, load_done ha hclean h, loaded_leBytes_eight hv]
  exact completeWaiting_loaded hfall rfl rfl rd _

/-- An open window gives the bytes that HBM4 holds (R259). -/
theorem keeperLoad_window (hfall : CanFall s) {k pa : Nat} (hr : kregion (addressOf (s.x base).val off).toNat = .window k pa) (hopen : WindowOpen s k)
    (hwf : (s.tile k).mem.wf = true) :
    ∃ t v, exec i s = .next t ∧ WroteX s t rd v ∧ v.val = widened (8 * n) (numberAt (s.tile k).hbm pa n) sg
      ∧ Sent s t ∧ OnlyRegs s.me t.me ∧ OnlyAccess s t ∧ MemSame s t := by
  obtain ⟨hsize, sg', hexec, hwiden⟩ := exec_of_loadForm hform
  rw [hexec, load_done ha hclean (State.kload_window hr hopen n)]
  obtain ⟨t, ht, hx, hsent, hregs, honly⟩ :=
    completeWaiting_loaded (s1 := s.updTile k fun x => x.discoverHbm (pa / 64)) hfall rfl rfl rd (loaded _ sg' _ _)
  have hval := numberAt_congr (Tile.byte_hbm_discoverHbm hwf (pa / 64)) pa n
  obtain ⟨hbytes, hkmem, hbufs⟩ := discoverHbm_memSame s k (pa / 64)
  have hthen : MemSame s t :=
    ⟨fun j a => by rw [onlyMe_tile honly]; exact hbytes j a, fun a => by rw [onlyMe_eq honly]; exact hkmem a,
      fun j => by rw [onlyMe_core honly]; exact hbufs j⟩
  exact ⟨t, _, ht, hx, (loaded_bytes_val hsize _ _ _ _ _).trans (by rw [hval, hwiden]), hsent, hregs,
    onlyAccess_completed (discoverHbm_onlyAccess s k _) rfl honly, hthen⟩

theorem keeperLoad_fault (hin : s.me.intrap = false) (h : s.kload (addressOf (s.x base).val off).toNat n = .fault) :
    ∃ t, exec i s = .next t ∧ Trapped s t 0x07#8 (addressOf (s.x base).val off) := by
  obtain ⟨_, sg', hexec, _⟩ := exec_of_loadForm hform
  rw [hexec, load_fault ha hclean h]
  exact raise_entered hin .accessFault _

theorem keeperLoad_halt (h : s.kload (addressOf (s.x base).val off).toNat n = .halted) : ∃ t, exec i s = .next t ∧ HaltWait s t := by
  obtain ⟨_, sg', hexec, _⟩ := exec_of_loadForm hform
  rw [hexec, load_halted ha hclean h]
  exact waitOn_memReply s

end

/-- A store has completed: past itself, with no other context changed (R85). -/
def Stored (i : Instr) (s t : State) : Prop := exec i s = .next t ∧ Sent s t ∧ OnlyPc s.me t.me ∧ ∀ c, c ≠ s.cur → t.ctx c = s.ctx c

section
variable {s : State} {i : Instr} {n : Nat} {rs base : XReg} {rl : BitVec 1} {off : BitVec 12}
  (hform : storeForm i = some (n, rs, base, rl, off)) (ha : KeeperAccess s (addressOf (s.x base).val off) n) (hclean : (s.x base).psn = none)
include hform ha hclean

/-- A store completes with the effect that its address gives it. -/
theorem keeperStore_done (hfall : CanFall s) {s1 : State}
    (h : s.kstore (addressOf (s.x base).val off).toNat n (leBytes n (s.x rs).val.toNat) (s.x rs).psn.isSome = .done s1)
    (hcur : s1.cur = s.cur) (hctxs : s1.ctxs = s.ctxs) :
    ∃ t, Stored i s t ∧ OnlyMe s1 t := by
  obtain ⟨_, hexec⟩ := exec_of_storeForm hform
  obtain ⟨t, ht, hsent, hpc, honly⟩ := completeWaiting_stored hfall hcur hctxs
  exact ⟨t, ⟨by rw [hexec, store_done ha hclean h, ht], hsent, hpc, onlyMe_others honly hcur hctxs⟩, honly⟩

theorem keeperStore_fault (hin : s.me.intrap = false)
    (h : s.kstore (addressOf (s.x base).val off).toNat n (leBytes n (s.x rs).val.toNat) (s.x rs).psn.isSome = .fault) :
    ∃ t, exec i s = .next t ∧ Trapped s t 0x07#8 (addressOf (s.x base).val off) := by
  obtain ⟨_, hexec⟩ := exec_of_storeForm hform
  rw [hexec, store_fault ha hclean h]
  exact raise_entered hin .accessFault _

theorem keeperStore_halt (h : s.kstore (addressOf (s.x base).val off).toNat n (leBytes n (s.x rs).val.toNat) (s.x rs).psn.isSome = .halted) :
    ∃ t, exec i s = .next t ∧ HaltWait s t := by
  obtain ⟨_, hexec⟩ := exec_of_storeForm hform
  rw [hexec, store_halted ha hclean h]
  exact waitOn_memReply s

/-- Keeper memory and staging memory take exactly the bytes of the store (R258). -/
theorem keeperStore_plain (hfall : CanFall s) (hwf : s.kmem.wf = true) (h : KeeperPlain (addressOf (s.x base).val off).toNat) :
    ∃ t, Stored i s t ∧ t = { s with ctxs := t.ctxs, kmem := t.kmem }
      ∧ ∀ b, t.kmem.byte b =
          if (addressOf (s.x base).val off).toNat ≤ b ∧ b < (addressOf (s.x base).val off).toNat + n
          then BitVec.ofNat 8 ((s.x rs).val.toNat / 256 ^ (b - (addressOf (s.x base).val off).toNat)) else s.kmem.byte b := by
  obtain ⟨t, hstored, honly⟩ := keeperStore_done hform ha hclean hfall (State.kstore_plain h n _ _) rfl rfl
  have ht := onlyMe_eq honly
  refine ⟨t, hstored, by rw [ht], fun b => ?_⟩
  rw [ht]
  exact Memory.byte_write_leBytes hwf _ _ _ _ b

/-- An entry of the routing table takes ten bits (R412). -/
theorem keeperStore_routing (hfall : CanFall s) {m : Nat} (hr : kregion (addressOf (s.x base).val off).toNat = .routing m) (hn : n = 8) :
    ∃ t, Stored i s t ∧ (∀ j, t.routes.get j 0#10 = if j = m then BitVec.ofNat 10 (s.x rs).val.toNat else s.routes.get j 0#10)
      ∧ t.cores = s.cores ∧ t.tiles = s.tiles ∧ t.kmem = s.kmem ∧ t.power = s.power := by
  subst hn
  have hsends := State.rerouted_onlySends { s with routes := s.routes.set m (BitVec.ofNat 10 (s.x rs).val.toNat) } s
  obtain ⟨t, hstored, honly⟩ := keeperStore_done hform ha hclean hfall (State.kstore_routing hr _ _) (by rw [hsends]) (by rw [hsends])
  have ht := onlyMe_eq honly
  rw [hsends] at ht
  refine ⟨t, hstored, fun j => ?_, by rw [ht], by rw [ht], by rw [ht], by rw [ht]⟩
  rw [ht]
  by_cases hj : j = m
  · rw [if_pos hj, hj]
    exact AMap.get_set_same _ _ _ _
  · rw [if_neg hj]
    exact AMap.get_set_ne _ _ _ (Ne.symm hj)

/-- A register of a power block takes what R399 and R400 say (R400). -/
theorem keeperStore_power (hfall : CanFall s) {k o : Nat} (hr : kregion (addressOf (s.x base).val off).toNat = .power k o) (hn : n = 8) {p : Power}
    (hp : powerStored s k (s.x rs).val o = some p) :
    ∃ t, Stored i s t ∧ t = { s with ctxs := t.ctxs, power := t.power } ∧ ∀ j, t.pwr j = if j = k then p else s.pwr j := by
  subst hn
  obtain ⟨s1, hs1, hpwr, hothers, hsame⟩ := State.powerStore_some hp
  have hs1' : s1 = { s with power := s1.power } := by rw [← hsame]
  obtain ⟨t, hstored, honly⟩ := keeperStore_done hform ha hclean hfall (State.kstore_power hr hs1 _) (by rw [hs1']) (by rw [hs1'])
  have ht := onlyMe_eq honly
  refine ⟨t, hstored, by rw [ht, hs1'], fun j => ?_⟩
  have hpower : t.pwr j = s1.pwr j := by rw [ht]; rfl
  rw [hpower]
  split_ifs with hj
  · rw [hj, hpwr]
  · exact hothers j hj

/-- A store through an open window replaces exactly its bytes, and no cache of the tile holds the line (R259). -/
theorem keeperStore_window (hfall : CanFall s) {k pa : Nat} (hr : kregion (addressOf (s.x base).val off).toNat = .window k pa) (hopen : WindowOpen s k)
    (hpa : pa % n = 0) (hwf : (s.tile k).mem.wf = true) :
    ∃ t, Stored i s t ∧ OnlyAccess s t
      ∧ (∀ b, (t.tile k).mem.byte b = if pa ≤ b ∧ b < pa + n then BitVec.ofNat 8 ((s.x rs).val.toNat / 256 ^ (b - pa)) else (s.tile k).mem.byte b)
      ∧ (t.tile k).old.find (pa / 64) = none ∧ (t.tile k).dir.find (pa / 64) = none ∧ ∀ j, j ≠ k → t.tile j = s.tile j := by
  obtain ⟨hsize, _⟩ := exec_of_storeForm hform
  have hl := linesOf_wbytes hsize hpa (leBytes_length n (s.x rs).val.toNat) (s.x rs).psn.isSome
  have haccess := State.writeEngine_onlyAccess (s := s) (k := k) hl
  obtain ⟨hcur, hctxs⟩ := State.writeEngine_contexts s k (wbytes pa (leBytes n (s.x rs).val.toNat) (s.x rs).psn.isSome)
  obtain ⟨t, hstored, honly⟩ := keeperStore_done hform ha hclean hfall (State.kstore_window hr hopen n _ _) hcur hctxs
  have htile (j : Nat) : t.tile j = (s.updTile k fun x => x.writeThrough [] (wbytes pa (leBytes n (s.x rs).val.toNat) (s.x rs).psn.isSome)).tile j :=
    (onlyMe_tile honly j).trans (State.tile_writeEngine s k j _)
  obtain ⟨_, hold, hdir, hbytes, hkeeps⟩ := (s.tile k).dropCopies_facts (wbytes pa (leBytes n (s.x rs).val.toNat) (s.x rs).psn.isSome) (pa / 64)
  refine ⟨t, hstored, onlyAccess_completed haccess hctxs honly, ?_, ?_, ?_, fun j hj => ?_⟩
  · intro b
    rw [htile, State.tile_updTile_same, Tile.writeThrough_line hl, ← hbytes b]
    exact Memory.byte_write_leBytes (hkeeps hwf) _ _ _ _ b
  · rw [htile, State.tile_updTile_same, Tile.writeThrough_line hl]
    exact hold
  · rw [htile, State.tile_updTile_same, Tile.writeThrough_line hl]
    exact hdir
  · rw [htile, State.tile_updTile_ne s _ (Ne.symm hj)]

end

section
variable {s : State} {i : Instr} {rd rs1 rs2 : XReg} {rl : BitVec 1} {z : BitVec 2} {sg : Bool} {f : Nat → Nat → Nat → Nat}
  (hform : atomicForm i = some (rd, rs1, rs2, rl, z, sg, f)) (ha : KeeperAccess s (s.x rs1).val (2 ^ z.toNat)) (hclean : (s.x rs1).psn = none)
include hform ha hclean

/-- Atomics act on keeper memory and staging memory, and return the old value (R258). -/
theorem keeperAtomic_plain (hfall : CanFall s) (hwf : s.kmem.wf = true) (h : KeeperPlain (s.x rs1).val.toNat) :
    let n := 2 ^ z.toNat
    let a := (s.x rs1).val.toNat
    ∃ t v, exec i s = .next t ∧ WroteX s t rd v ∧ v.val = widened (8 * n) (numberAt s.kmem a n) sg
      ∧ (∀ b, t.kmem.byte b = if a ≤ b ∧ b < a + n
          then BitVec.ofNat 8 (f (8 * n) (numberAt s.kmem a n) ((s.x rs2).val.toNat % 2 ^ (8 * n)) / 256 ^ (b - a)) else s.kmem.byte b)
      ∧ Sent s t ∧ OnlyRegs s.me t.me ∧ t = { s with ctxs := t.ctxs, kmem := t.kmem } ∧ ∀ c, c ≠ s.cur → t.ctx c = s.ctx c := by
  obtain ⟨op, hop, hexec, hreturn, happly⟩ := exec_of_atomicForm hform
  obtain ⟨m, p, hm, hatomic⟩ := atomic_plain ha hclean hop hwf h rd rs2 rl
  have hnew := happly (8 * 2 ^ z.toNat) _ _ (by positivity) (numberAt_lt s.kmem (s.x rs1).val.toNat (2 ^ z.toNat))
    (Nat.mod_lt (s.x rs2).val.toNat (Nat.two_pow_pos (8 * 2 ^ z.toNat)))
  rw [hnew] at hm
  obtain ⟨t, ht, hx, hsent, hregs, honly⟩ := completeWaiting_loaded hfall (s1 := { s with kmem := m }) rfl rfl rd
    (atomicReturn op (s.kmem.bytes (s.x rs1).val.toNat (2 ^ z.toNat)) p (s.x rs1).val (s.x rs2))
  have heq := onlyMe_eq honly
  refine ⟨t, _, (hexec s).trans (hatomic.trans ht), hx, (hreturn _ _ _ _).trans (loaded_bytes_val (accessSize_two_pow z) _ _ _ _ _), fun b => ?_, hsent,
    hregs, by rw [heq], onlyMe_others honly rfl rfl⟩
  rw [heq]
  exact hm b

theorem keeperAtomic_fault (hin : s.me.intrap = false) (h : ¬ KeeperPlain (s.x rs1).val.toNat)
    (hwindow : (s.x rs1).val.toNat < 2 ^ 39 ∨ 2 ^ 40 ≤ (s.x rs1).val.toNat) : ∃ t, exec i s = .next t ∧ Trapped s t 0x07#8 (s.x rs1).val := by
  obtain ⟨op, hop, hexec, _⟩ := exec_of_atomicForm hform
  rw [hexec, atomic_fault ha hclean hop h hwindow]
  exact raise_entered hin .accessFault _

end

/-! The obligation. -/

theorem not_keeperMapped_gap {a : Nat} (h : 0x10000000 ≤ a) (h' : a < 0x1000000000) : ¬ KeeperMapped a := by
  unfold KeeperMapped
  omega

/-- A window begins at a multiple of every size of an access (R259). -/
theorem aligned_in_window {n a k pa : Nat} (hn : AccessSize n) (ha : a = 2 ^ 39 + 2 ^ 31 * k + pa) (hal : a % n = 0) : pa % n = 0 := by
  unfold AccessSize at hn
  rcases hn with rfl | rfl | rfl | rfl <;> omega

/-- Settles O15: an access of every form makes its checks before it reaches anything, and past them a keeper context's access is what its address answers, region by region. -/
theorem memoryAccessTraps : Obligations.MemoryAccessTraps := by
  refine ⟨⟨?_, ?_⟩, ?_, ?_, ?_⟩
  · intro s i b va n kind h hin
    obtain ⟨hi, hkind⟩ := checked_of_memForm h
    refine ⟨fun o ho => hi.poisoned hin ((firstOrigin_singleton s b).trans ho), fun hpsn => ?_⟩
    have hclean := (firstOrigin_singleton s b).trans hpsn
    refine ⟨hi.not_canonical hclean hin, fun hc => hi.misaligned hclean hc hin, fun hc ha hm =>
      ⟨fun s1 lvl r ht => ?_, fun s1 => hi.poisonedEntry hclean hc ha hm hin, fun s1 => hi.absentEntry hclean hc ha hm hin⟩⟩
    have hfault := hi.pageFault hclean hc ha hm hin ht
    cases kind with
    | fetch => exact absurd rfl hkind
    | load => exact hfault
    | store => exact hfault
    | icinv => exact hfault
  · intro s rd a b aq rl z hin
    have hi := checked_acas rd a b aq rl z s
    exact ⟨fun o => hi.poisoned hin, fun hclean => ⟨hi.not_canonical hclean hin, fun hc => hi.misaligned hclean hc hin,
      fun hc ha hm s1 lvl r => hi.pageFault hclean hc ha hm hin⟩⟩
  · intro s hk hp hfall hm
    refine ⟨?_, ?_⟩
    · intro i n signed rd base aq off hform hclean ha hal
      exact keeperLoad_memory hform ⟨hk, hp, .inl (by omega), hal⟩ hclean hfall (.inl (kregion_plain (.inl ha)))
    · intro i n rs base rl off hform hclean hal
      refine ⟨fun ha => ?_, fun hlo hhi hin => ?_, fun hlo hhi hin => ?_⟩
      · obtain ⟨t, ⟨hexec, hsent, hpc, _⟩, hsame, hbytes⟩ :=
          keeperStore_plain hform ⟨hk, hp, .inl (by omega), hal⟩ hclean hfall hm.2 (.inl ha)
        exact ⟨t, hexec, hsent, hpc, hsame, hbytes⟩
      · exact keeperStore_fault hform ⟨hk, hp, .inl (by omega), hal⟩ hclean hin (State.kstore_flash hlo hhi _ _ _)
      · exact keeperStore_fault hform ⟨hk, hp, .inl (by omega), hal⟩ hclean hin (State.kstore_unmapped (not_keeperMapped_gap hlo hhi) _ _ _)
  · intro s i n signed rd base aq off hk hp hfall hm hin hform hclean va a hc hal Gives Faults
    have hacc : KeeperAccess s va n := ⟨hk, hp, hc, hal⟩
    have hfault := keeperLoad_fault hform hacc hclean hin
    refine ⟨?_, ?_, ?_, ?_, ?_, ?_⟩
    · rintro (ha | ⟨hlo, hhi⟩)
      · exact keeperLoad_memory hform hacc hclean hfall (.inl (kregion_plain (.inr ha)))
      · exact keeperLoad_memory hform hacc hclean hfall (.inr (kregion_flash hlo hhi))
    · rintro m hm ha rfl
      have hr := (congrArg kregion ha).trans (kregion_routing_entry hm)
      exact keeperLoad_register hform hacc hclean hfall ((s.routes.get m 0#10).isLt.trans (by decide)) (State.kload_routing hr)
    · exact fun hlo hhi hside hn => hfault (State.kload_size hlo hhi hside hn)
    · rintro k o hko ho ha rfl
      have hr := (congrArg kregion ha).trans (kregion_power_register hko ho)
      refine ⟨fun w hw => ?_, fun hw => hfault (State.kload_power_none hr hw)⟩
      have hgives := keeperLoad_register hform hacc hclean hfall w.isLt (State.kload_power hr hw)
      rwa [BitVec.ofNat_toNat, BitVec.setWidth_eq] at hgives
    · intro k pa hkk hpa ha
      have hr := (congrArg kregion ha).trans (kregion_window hkk hpa)
      exact ⟨fun hopen => keeperLoad_window hform hacc hclean hfall hr hopen (hm.1.1 k), fun hoff => hfault (State.kload_window_off hr hoff n),
        fun hon hhalt => keeperLoad_halt hform hacc hclean (State.kload_window_halt hr hon hhalt n)⟩
    · exact fun hun => hfault (State.kload_unmapped hun n)
  · intro s hk hp hfall hm hin
    refine ⟨?_, ?_⟩
    · intro i n rs base rl off hform hclean va a d Done Faults hc hal
      have hacc : KeeperAccess s va n := ⟨hk, hp, hc, hal⟩
      have hfault := keeperStore_fault hform hacc hclean hin
      refine ⟨?_, ?_, ?_, ?_, ?_, ?_⟩
      · exact fun hlo hhi => keeperStore_plain hform hacc hclean hfall hm.2 (.inr ⟨hlo, hhi⟩)
      · intro m hmm ha hn
        exact keeperStore_routing hform hacc hclean hfall ((congrArg kregion ha).trans (kregion_routing_entry hmm)) hn
      · exact fun hlo hhi hside hn => hfault (State.kstore_size hlo hhi hside hn _ _)
      · intro k o hko ho ha hn
        have hr := (congrArg kregion ha).trans (kregion_power_register hko ho)
        refine ⟨fun p hpow => keeperStore_power hform hacc hclean hfall hr hn hpow, fun hpow => ?_⟩
        subst hn
        exact hfault (State.kstore_power_none hr (State.powerStore_none hpow) _)
      · intro k pa hkk hpa ha
        have hr := (congrArg kregion ha).trans (kregion_window hkk hpa)
        have hsize := (exec_of_storeForm hform).1
        have hpal : pa % n = 0 := aligned_in_window hsize ha hal
        exact ⟨fun hopen => keeperStore_window hform hacc hclean hfall hr hopen hpal (hm.1 k), fun hoff => hfault (State.kstore_window_off hr hoff n _ _),
          fun hon hhalt => keeperStore_halt hform hacc hclean (State.kstore_window_halt hr hon hhalt n _ _)⟩
      · exact fun hun => hfault (State.kstore_unmapped hun n _ _)
    · intro i rd rs1 rs2 rl z sg f hform hclean n a new hc hal
      have hacc : KeeperAccess s (s.x rs1).val n := ⟨hk, hp, hc, hal⟩
      exact ⟨keeperAtomic_plain hform hacc hclean hfall hm.2, keeperAtomic_fault hform hacc hclean hin⟩

end Sys2Proof.Machine

/-! PROOF. Vector configuration (R124, R163, R173): a state with two partitions over one base, and what VSETVL leaves of the caller's queue there. -/

namespace Sys2Proof.Machine

open Sys2Proof.Safety

/-! The state. Its two partitions have one base, which the buddy arrangement of R124 rules out and the hypotheses of O29 admit. -/

/-- A partition over the first way pair, all of whose lanes are in service, owned by slot 0, with an empty queue. -/
def callerPart : Part := { base := 0, pairs := 1, owner := some 0, lanes := 8192 }

/-- A VID that has not begun. -/
def queuedVid : VEntry := { op := .vid 0#5 none, vl := 1, vtype := 0#18, vsbase := 0#64, vseed := 0#64, bank := 0#1, stamp := 0, by_ := 1 }

/-- A partition over the same way pair, owned by slot 1, with an entry in its queue. -/
def siblingPart : Part := { callerPart with owner := some 1, queue := [queuedVid] }

/-- Slot 0 issues on a core in mode 1 whose two partitions both stand at base 0, the sibling's first. -/
def sharedBase : State := { cores := [(0, { vmode := 1#2, parts := [siblingPart, callerPart] })] }

theorem myPart_sharedBase : sharedBase.myPart = some callerPart := by decide +kernel

theorem canFall_sharedBase : CanFall sharedBase := by
  unfold CanFall
  decide +kernel

/-- No lane of the caller has left service, so VSETVL queues no repack (R369). -/
theorem lanes_sharedBase : 128 * (sharedBase.myCore.service callerPart.base callerPart.pairs).length = callerPart.lanes := by decide +kernel

/-! VSETVL there. The grant is written to every partition at the caller's base and each keeps the queue that it had, so the partition that slot 0 is found to own afterwards is the sibling's. -/

/-- The partition that the grant makes of the sibling's: it is now slot 0's, and has the sibling's queue. -/
def grantedSibling : Part := { sharedBase.grantPart callerPart 0 with vl := 0, queue := [queuedVid] }

/-- A grant of no elements without the high-water mark, before its result is written (R163). -/
theorem myPart_grant_sharedBase :
    (((sharedBase.queueRepack callerPart).updMyPart fun q => { sharedBase.grantPart callerPart 0 with vl := 0, queue := q.queue, fly := q.fly }).myPart) =
      some grantedSibling := by decide +kernel

/-- VSETVL of a clean count, under a VTYPE that names an element width and without the high-water mark, is granted at once (R163, R173). -/
theorem execVsetvl_granted {s : State} {p : Part} {rs1 : XReg} (hclean : (s.x rs1).psn = none) (hpart : s.myPart = some p) (hsew : vtSew p.vtype ≤ 5)
    (hoff : p.hwmEn = false) (rd : XReg) :
    execVsetvl rd rs1 s = setvlDone rd p (s.grantPart p (s.x rs1).val.toNat) (s.grantPart p (s.x rs1).val.toNat).vl s := by
  have hcount : firstOrigin s [rs1] = none := (firstOrigin_singleton s rs1).trans hclean
  unfold execVsetvl
  refine (needClean_clean hcount _).trans ?_
  simp [hpart, Nat.not_lt.mpr hsew, hoff]

/-- Completing with a result leaves the partitions alone. -/
theorem myPart_complete_writeRd {s s' t : State} {rd : XReg} {v : Reg} (hfall : CanFall s) (h : complete s (s'.writeRd rd v) = .next t) :
    t.myPart = s'.myPart := by
  rw [complete_eq hfall] at h
  cases h
  rfl

/-- Slot 0 asks for no elements (x0) and is granted none: the partition that it is found to own is the sibling's. -/
theorem myPart_vsetvl_sharedBase {t : State} (h : exec (.vsetvl 1#5 0#5) sharedBase = .next t) : t.myPart = some grantedSibling := by
  rw [exec_vsetvl, execVsetvl_granted rfl myPart_sharedBase (by decide) rfl] at h
  exact (myPart_complete_writeRd canFall_sharedBase h).trans myPart_grant_sharedBase

/-- Refutes O29 at `sharedBase`: where another slot's partition at the caller's base is listed before the caller's own, VSETVL leaves the caller with that partition's queue, though its lanes are those in service. No hypothesis of the VSETVL clause says that the caller's partition is the only one at its base. -/
theorem not_vectorConfiguration : ¬ Obligations.VectorConfiguration := by
  intro h
  obtain ⟨⟨_, hpart⟩, _⟩ := h
  obtain ⟨hvsetvl, _⟩ := hpart sharedBase callerPart myPart_sharedBase
  obtain ⟨hoff, _⟩ := hvsetvl 1#5 0#5 canFall_sharedBase rfl (by decide)
  obtain ⟨t, q, hexec, _, _, _, honly, hkept⟩ := hoff rfl
  obtain ⟨_, _, _, _, hmine, _⟩ := honly
  have hqueue : q = [] := hkept lanes_sharedBase
  have hsame := hmine.symm.trans (myPart_vsetvl_sharedBase hexec)
  have : q = [queuedVid] := congrArg Part.queue (Option.some.inj hsame)
  rw [hqueue] at this
  cases this

end Sys2Proof.Machine
